-- ==== Sys2Proof/Word.lean ====
section
/-!
DEFINITION. The words of the Aedbex Z9: bytes, 32-bit register words, a 4 KiB block, a host tag and the 4,160-byte
payload that parity and the link carry (spec/00_scope.md R14; spec/08_rows_and_parity.md R267).
-/

namespace Sys2Proof

/-- A byte. -/
abbrev Byte := BitVec 8

/-- A register: every register is 32 bits wide (R14). -/
abbrev Word := BitVec 32

/-- The data of one block: 4,096 bytes, byte 0 in the least significant bits. -/
abbrev Block := BitVec 32768

/-- A 16-byte host tag (R85). -/
abbrev HostTag := BitVec 128

/-- The 4,160-byte payload of a codeword: 4,096 B of data, then 64 B of metadata (R267). -/
abbrev Payload := BitVec 33280

end Sys2Proof
end

