-- ==== Sys2Proof/Syntax.lean ====
section
/-!
DEFINITION. The commands of the Z9: one constructor per row of spec/opcode_table.json, with the operands each needs
(notes/assumptions/2.md: times; notes/assumptions/4.md: commands that name nothing; notes/assumptions/9.md: what a command carries in).
-/

namespace Sys2Proof

/-- The configurations (R2). -/
inductive Variant where
  | z9A | z9E | z9P | z9H
  deriving DecidableEq, Repr

/-- By which path a register is reached (spec/16_register_map.md): BAR0 of the owner function, BAR0 of any other physical function (R172), the
management endpoint's register-access messages (R514), the firmware of the security core or of the control cluster (R425), a function's configuration space (R168, the PCX registers), a function's BAR2 (R80, R173) or BAR4 (R172, R173), or the
SR-IOV capability of a link, whose word is NumVFs with VF Enable set (R168). Functions are port x 1024 + index, links port x 4 + link. -/
inductive Path where
  | bar0 | otherPf | mgmt | core (control : Bool) | cfg (fn : Nat) | bar2 (fn : Nat) | bar4 (fn : Nat) | sriov (link : Nat)
  deriving DecidableEq, Repr

/-- Is a path the device's own firmware? -/
def Path.isCore : Path → Bool
  | .core _ => true
  | _ => false

/-- Is a path a function's BAR2? -/
def Path.isBar2 : Path → Bool
  | .bar2 _ => true
  | _ => false

/-- The width of a register access (R80, R522): narrower than a word, a word, or 64 bits with this high word. -/
inductive Width where
  | narrow | word | double (hi : Word)
  deriving DecidableEq, Repr

/-- What a register write carries: the word, and the width of the access. -/
structure RegVal where
  v : Word
  w : Width
  deriving DecidableEq, Repr

/-- What a failed DMA transfer was for: the descriptors of a ring, a command. -/
structure DmaHit where
  sq : Option Nat
  id : Option Nat
  deriving DecidableEq, Repr

/-- Who sent an Ethernet frame: the MAC address, and the VLAN of its 802.1Q tag (R121). -/
structure EthSrc where
  mac : Nat
  vlan : Option Nat
  deriving DecidableEq, Repr

/-- A page of a system row is programmed: when, and the word lines whose program failed meanwhile: die, bed, word line (R255, R256). -/
structure PageEnd where
  fails : List (Nat × Nat × Nat)
  t : Nat
  deriving DecidableEq, Repr

/-- What discovery could not read on dies: the wear figure (R29), the system header: its CRC fails or it names another device (R322). -/
structure DieNews where
  noWear : List Nat
  foreign : List Nat
  deriving DecidableEq, Repr

/-- How a DMA read fails (R176): Unsupported Request, Completer Abort, poisoned data, Completion Timeout. -/
inductive DmaFail where
  | unsupported | abort | poisoned | timeout
  deriving DecidableEq, Repr

/-- An entry of a scatter list (R84): address, length, region key. -/
structure SgEntry where
  addr : Nat
  len : Nat
  key : Nat
  deriving DecidableEq, Repr

/-- How a completion count is read (R80): its low word, its high word, or both in one 64-bit read. -/
inductive CountAccess where
  | lo | hi | both
  deriving DecidableEq, Repr

/-- How a codeword's decode ends (R388-R390): decoded with a corrected-bit count, its block passing the guard or not; failed; or refused for release by the
output syndrome, a fault of the cluster. -/
inductive DecodeResult where
  | decoded (bits : Nat) (guard : Bool) | failed | refused
  deriving DecidableEq, Repr

/-- What the boot core finds in an image slot (R435, R436): header fields, the GPIO pins its board configuration gives a function (R518), and whether the verification passes beyond the checks of slot and SVN. -/
structure BootImage where
  slot : Nat
  svn : Nat
  version : Nat
  gpio : Nat
  good : Bool
  deriving DecidableEq, Repr

/-- Instructions shifted into a TAP (R520, R521). -/
inductive TapInstr where
  | bypass | idcode | extest | intest | clamp | highz | debug
  deriving DecidableEq, Repr

/-- A memory error as it is detected (R399): SRAM 0, HBM 1, fabric 2; the structure's class (R402); bank, pseudo-channel or port; byte address; failing bit or symbol. -/
structure MemErr where
  mem : Nat
  cls : Nat
  unit : Nat
  addr : Nat
  syn : Nat
  deriving DecidableEq, Repr

/-- What an uncorrectable error hit (R402): a line that is had elsewhere; a write-buffer block by budget position; a stripe's running parity; a pool buffer; a
journal-tail record by sequence number, in one copy or in both. -/
inductive UeHit where
  | line | block (pos : Nat) | parity (stripe : Nat) | buffer (pool ptr : Nat) | journal (seq : Nat) (both : Bool)
  deriving DecidableEq, Repr

/-- What enters or leaves a low-power state (R461, R465): the whole part (S1 or S2), a link group, an Ethernet port, a PCIe port. -/
inductive ParkUnit where
  | part | lg (g : Nat) | eth (n : Nat) | pcx (n : Nat)
  deriving DecidableEq, Repr

/-- A UDP datagram received on an Ethernet interface (R121-R123, R137): source address (IPv4 as ::ffff:a.b.c.d), ports, the ECN field, the checksum field, the payload; vlan: the VLAN of
its frame's 802.1Q tag. -/
structure RxPkt where
  iface : Nat
  src : Nat
  sport : Nat
  dport : Nat
  ecn : Nat
  csum : Nat
  bytes : List Byte
  vlan : Option Nat := none
  deriving DecidableEq, Repr

/-- The commands. -/
inductive Instr where
  /-- NOP, R87. -/
  | nop (id : Nat)
  /-- READ, R56. -/
  | read (id : Nat) (sg : List SgEntry)
  /-- ZWRITE, R53. -/
  | zwrite (id : Nat) (sg : List SgEntry)
  /-- ZAPPEND, R54. -/
  | zappend (id : Nat) (sg : List SgEntry)
  /-- ZMGMT_OPEN, R48. -/
  | zmgmtOpen (id : Nat)
  /-- ZMGMT_CLOSE, R48. -/
  | zmgmtClose (id : Nat)
  /-- ZMGMT_FINISH, R48. -/
  | zmgmtFinish (id : Nat)
  /-- ZMGMT_RESET, R60. -/
  | zmgmtReset (id : Nat)
  /-- ZMGMT_QUERY, R58. -/
  | zmgmtQuery (id : Nat)
  /-- CWRITE, R65. -/
  | cwrite (id : Nat) (sg : List SgEntry)
  /-- CREAD, R65. -/
  | cread (id : Nat) (sg : List SgEntry)
  /-- COPY, R88. -/
  | copy (id : Nat)
  /-- WAIT, R105. -/
  | wait (id t : Nat)
  /-- ABORT, R110. -/
  | abort (id : Nat)
  /-- TENANT_CREATE, R39. -/
  | tenantCreate (id : Nat) (blk : List Byte)
  /-- TENANT_GRANT, R40. -/
  | tenantGrant (id : Nat) (blk : List Byte)
  /-- TENANT_DELETE, R41. -/
  | tenantDelete (id : Nat)
  /-- RING_CREATE, R93. -/
  | ringCreate (id : Nat)
  /-- RING_DELETE, R94. -/
  | ringDelete (id : Nat)
  /-- PLOT_CREATE, R42. -/
  | plotCreate (id : Nat) (blk : List Byte)
  /-- REGION_CREATE, R62. -/
  | regionCreate (id : Nat) (blk : List Byte)
  /-- PLOT_DELETE, R46. -/
  | plotDelete (id : Nat)
  /-- PLOT_HINTS, R92. -/
  | plotHints (id : Nat)
  /-- ACCORD_SET, R211. -/
  | accordSet (id : Nat)
  /-- CONN_CREATE, R125. -/
  | connCreate (id : Nat) (blk : List Byte)
  /-- CONN_DELETE, R131. -/
  | connDelete (id : Nat)
  /-- CONN_KEY, R419. -/
  | connKey (id : Nat) (blk : List Byte)
  /-- GRAFT_START, R287. -/
  | graftStart (id : Nat)
  /-- SQ_TAIL, R80. -/
  | sqTail (fn sq : Nat) (v : Word) (t : Nat)
  /-- CQ_HEAD, R80. -/
  | cqHead (fn cq : Nat) (v : Word) (t : Nat)
  /-- CQ_COUNT_READ, R80. -/
  | cqCountRead (fn cq : Nat) (acc : CountAccess)
  /-- QM_MBX_DB, R79. -/
  | qmMbxDb (path : Path) (v : Word) (t : Nat)
  /-- ADMIN_RING_ENABLE, R79. -/
  | adminRingEnable (path : Path) (v : Word)
  /-- GLB_SETUP_LOCK, R530. -/
  | glbSetupLock (path : Path) (v : Word)
  /-- REGISTER_WRITE, R15. -/
  | registerWrite (path : Path) (off : Nat) (v : RegVal)
  /-- REG64_HIGH_WRITE, R14. -/
  | reg64HighWrite (path : Path) (off : Nat) (v : Word)
  /-- REG64_LOW_READ, R524. -/
  | reg64LowRead (path : Path) (off : Nat)
  /-- SMT_IF_IPV6_LAST_WRITE, R14. -/
  | smtIfIpv6LastWrite (path : Path) (iface : Nat) (v : Word)
  /-- DESCRIPTOR_FETCH, R76. -/
  | descriptorFetch (sq : Nat) (desc : BitVec 512) (t : Nat)
  /-- RANGE_LOCK_GRANT, R113. -/
  | rangeLockGrant (id : Nat)
  /-- WRITE_COMMIT, R52. -/
  | writeCommit (id : Nat) (data : List (BitVec 32768)) (tags : List (BitVec 128))
  /-- WRITE_ACKNOWLEDGE, R291. -/
  | writeAcknowledge (t : Nat)
  /-- COMPLETION_POST, R78. -/
  | completionPost (id t : Nat)
  /-- COALESCE_TIMER_EXPIRY, R81. -/
  | coalesceTimerExpiry (cq : Nat) (t : Nat)
  /-- WAIT_TIMEOUT, R107. -/
  | waitTimeout (id t : Nat)
  /-- BUFFER_GRANT, R115. -/
  | bufferGrant
  /-- BUFFER_RETURN, R116. -/
  | bufferReturn (pool ptr : Nat)
  /-- TELEMETRY_PERIOD, R118. -/
  | telemetryPeriod (t : Nat)
  /-- ACCORD_MISS_SECOND, R217. -/
  | accordMissSecond (t : Nat)
  /-- ALMANAC_PERIOD, R194. -/
  | almanacPeriod (t : Nat)
  /-- ALMANAC_SLOT, R201. -/
  | almanacSlot (t : Nat)
  /-- BLOCKED_TIME_EXPIRY, R198. -/
  | blockedTimeExpiry (die t : Nat)
  /-- LDPC_DECODE_DONE, R390. -/
  | ldpcDecodeDone (job : Nat) (res : DecodeResult) (t : Nat)
  /-- SOFT_BUFFER_GRANT, R392. -/
  | softBufferGrant (cluster : Nat)
  /-- STRIPE_IDLE_SPILL, R270. -/
  | stripeIdleSpill (stripe t : Nat)
  /-- WEED_SWITCH, R246. -/
  | weedSwitch (bad : List Nat) (t : Nat)
  /-- TRANSPLANT_SWITCH, R252. -/
  | transplantSwitch (row pos : Nat) (bad : List Nat) (t : Nat)
  /-- REBUILD_REPLACE, R279. -/
  | rebuildReplace (row pos : Nat) (bad : List Nat) (t : Nat)
  /-- GRAFT_ZONE_SWITCH, R289. -/
  | graftZoneSwitch (plot zone : Nat) (bad : List Nat) (t : Nat)
  /-- ROW_READS_DRAINED, R246. -/
  | rowReadsDrained (row t : Nat)
  /-- PATROL_STRIPE, R284. -/
  | patrolStripe (row stripe : Nat) (bits : List (List Nat)) (bad sp sq : List Nat) (t : Nat)
  /-- MED_HOUR_TICK, R251. -/
  | medHourTick (t : Nat)
  /-- HL_FRAME_RECEIVE, R341. -/
  | hlFrameReceive (link : Nat) (fs pay fin : List (Nat × List Byte)) (t : Nat)
  /-- HL_DIN_FRAME, R363. -/
  | hlDinFrame (link t : Nat)
  /-- HL_RSP_FRAME, R364. -/
  | hlRspFrame (link t : Nat)
  /-- HL_ALERT, R364. -/
  | hlAlert (link t : Nat)
  /-- HL_LCTL_ACK, R342. -/
  | hlLctlAck (link : Nat) (blocks : List (Nat × List Byte)) (t : Nat)
  /-- HL_LCTL_NAK, R345. -/
  | hlLctlNak (link : Nat) (blocks : List (Nat × List Byte)) (t : Nat)
  /-- HL_PARK_ACK, R356. -/
  | hlParkAck (link : Nat) (blocks : List (Nat × List Byte)) (t : Nat)
  /-- HL_PARK_NAK, R356. -/
  | hlParkNak (link : Nat) (blocks : List (Nat × List Byte)) (t : Nat)
  /-- HL_P1_IDLE_TIMER, R356. -/
  | hlP1IdleTimer (link t : Nat)
  /-- HL_REPLAY_TIMER, R346. -/
  | hlReplayTimer (link t : Nat)
  /-- HL_LOCK_LOSS, R335. -/
  | hlLockLoss (link t : Nat)
  /-- HL_RETRAIN_DONE, R350. -/
  | hlRetrainDone (link t : Nat)
  /-- HL_RETRAIN_TIMEOUT, R350. -/
  | hlRetrainTimeout (link t : Nat)
  /-- HL_TRAINING_DONE, R352. -/
  | hlTrainingDone (link txPre brPre eye credit t : Nat)
  /-- HL_TRAINING_TIMEOUT, R350. -/
  | hlTrainingTimeout (link t : Nat)
  /-- HL_BRIDGE_WAKE, R358. -/
  | hlBridgeWake (link t : Nat)
  /-- LG_PARK_TIMER, R465. -/
  | lgParkTimer (lg t : Nat)
  /-- HL_OP_TIMEOUT, R368. -/
  | hlOpTimeout (link otag t : Nat)
  /-- HL_RESET_TIMEOUT, R368. -/
  | hlResetTimeout (link otag t : Nat)
  /-- HL_RETRY_TIMER, R369. -/
  | hlRetryTimer (link t : Nat)
  /-- HL_LCTRL_RETRAIN, R350. -/
  | hlLctrlRetrain (path : Path) (link t : Nat)
  /-- HL_LCTRL_FULL, R350. -/
  | hlLctrlFull (path : Path) (link t : Nat)
  /-- HL_LCTRL_RETURN, R369. -/
  | hlLctrlReturn (path : Path) (link t : Nat)
  /-- SMT_BELL, R143. -/
  | smtBell (p : RxPkt) (t : Nat)
  /-- SMT_RRESP, R146. -/
  | smtRresp (p : RxPkt) (t : Nat)
  /-- SMT_ACK_RX, R153. -/
  | smtAckRx (p : RxPkt) (t : Nat)
  /-- SMT_CRED_RX, R158. -/
  | smtCredRx (p : RxPkt) (t : Nat)
  /-- SMT_KEEP_RX, R157. -/
  | smtKeepRx (p : RxPkt) (t : Nat)
  /-- SMT_CLOSE_RX, R129. -/
  | smtCloseRx (p : RxPkt) (t : Nat)
  /-- SMT_ARP_REQUEST, R122. -/
  | smtArpRequest (iface : Nat) (eth : EthSrc) (spa tpa t : Nat)
  /-- SMT_NEIGHBOR_SOLICIT, R122. -/
  | smtNeighborSolicit (iface : Nat) (eth : EthSrc) (src target t : Nat)
  /-- SMT_ICMP_ECHO, R122. -/
  | smtIcmpEcho (iface : Nat) (eth : EthSrc) (src dst : Nat) (body : List Byte) (t : Nat)
  /-- SMT_FRAME_DROP, R122. -/
  | smtFrameDrop (iface : Nat) (p : Option RxPkt) (t : Nat)
  /-- SMT_RTO_EXPIRY, R153. -/
  | smtRtoExpiry (conn t : Nat)
  /-- SMT_ACK_DELAY_TIMER, R152. -/
  | smtAckDelayTimer (conn t : Nat)
  /-- SMT_KEEP_IDLE, R157. -/
  | smtKeepIdle (conn t : Nat)
  /-- SMT_DEAD_TIMER, R129. -/
  | smtDeadTimer (conn t : Nat)
  /-- SMT_ECN_HOLD, R160. -/
  | smtEcnHold (conn t : Nat)
  /-- SMT_KEY_DRAIN_TIMER, R162. -/
  | smtKeyDrainTimer (conn t : Nat)
  /-- SMT_CLOSE_TIMER, R129. -/
  | smtCloseTimer (conn t : Nat)
  /-- ETH_PARK_TIMER, R465. -/
  | ethParkTimer (port t : Nat)
  /-- PCX_PARK_TIMER, R465. -/
  | pcxParkTimer (port t : Nat)
  /-- PCX_FLR, R178. -/
  | pcxFlr (fn : Nat)
  /-- PCX_OWNER_FLR, R180. -/
  | pcxOwnerFlr
  /-- PCX_VF_DISABLE, R181. -/
  | pcxVfDisable (link : Nat)
  /-- PCX_PERST, R181. -/
  | pcxPerst (link : Nat)
  /-- PCX_HOT_RESET, R181. -/
  | pcxHotReset (link : Nat)
  /-- PCX_DL_DOWN, R181. -/
  | pcxDlDown (link : Nat)
  /-- PCX_DMA_ERROR, R176. -/
  | pcxDmaError (fn : Nat) (kind : DmaFail) (hit : DmaHit)
  /-- CEILING_RECOMPUTE, R293. -/
  | ceilingRecompute (t : Nat)
  /-- HOLDUP_SHORT_TIMER, R295. -/
  | holdupShortTimer (t : Nat)
  /-- VIN_DROP, R304. -/
  | vinDrop (mv t : Nat)
  /-- VIN_GLITCH, R304. -/
  | vinGlitch (mv t : Nat)
  /-- POWER_FAIL, R304. -/
  | powerFail (t : Nat)
  /-- FLUSH_DONE, R307. -/
  | flushDone (stopAt : Option Nat) (t : Nat)
  /-- VIN_RETURN, R309. -/
  | vinReturn (mv t : Nat)
  /-- KEEPER_WDOG_EXPIRY, R310. -/
  | keeperWdogExpiry (t : Nat)
  /-- HEARTBEAT, R441. -/
  | heartbeat (t : Nat)
  /-- KPR_CTRL_WARM, R310. -/
  | kprCtrlWarm (path : Path) (t : Nat)
  /-- KPR_CTRL_SHUTDOWN, R320. -/
  | kprCtrlShutdown (path : Path) (t : Nat)
  /-- CLEAN_SHUTDOWN_DONE, R320. -/
  | cleanShutdownDone (t : Nat)
  /-- HLD_CTRL_CAL, R300. -/
  | hldCtrlCal (path : Path) (t : Nat)
  /-- HLD_CAL_SCHEDULE, R299. -/
  | hldCalSchedule (t : Nat)
  /-- HLD_CAL_DONE, R298. -/
  | hldCalDone (v step : Nat × Nat) (t : Nat)
  /-- HLD_CAL_ABORT, R300. -/
  | hldCalAbort (sinkFault : Bool) (t : Nat)
  /-- HLD_CTRL_BLEED_SET, R303. -/
  | hldCtrlBleedSet (path : Path) (t : Nat)
  /-- HLD_CTRL_BLEED_CLEAR, R303. -/
  | hldCtrlBleedClear (path : Path) (t : Nat)
  /-- BLEED_DONE, R303. -/
  | bleedDone (mv t : Nat)
  /-- LEAKAGE_CHECK, R302. -/
  | leakageCheck (t : Nat)
  /-- ADC_SAMPLE, R301. -/
  | adcSample (chan code : Nat) (t : Nat)
  /-- JNL_PAGE_TIMER, R316. -/
  | jnlPageTimer (e : PageEnd)
  /-- CHECKPOINT_TIMER, R317. -/
  | checkpointTimer (t : Nat)
  /-- CHECKPOINT_DONE, R319. -/
  | checkpointDone (e : PageEnd)
  /-- COLD_RESET, R327. -/
  | coldReset (vin : Nat) (vaux : Bool) (t : Nat)
  /-- RAIL_POWER_GOOD, R540. -/
  | railPowerGood (rail t : Nat)
  /-- RAIL_PG_TIMEOUT, R541. -/
  | railPgTimeout (vout t : Nat)
  /-- RAIL_FAULT, R446. -/
  | railFault (rail vout t : Nat)
  /-- SRAM_FILL_DONE, R321. -/
  | sramFillDone (temp : Int) (t : Nat)
  /-- WARMUP_DONE, R489. -/
  | warmupDone (temp : Int) (t : Nat)
  /-- WARMUP_TIMEOUT, R489. -/
  | warmupTimeout (temp : Int) (t : Nat)
  /-- HBM_FILL_DONE, R397. -/
  | hbmFillDone (t : Nat)
  /-- BOOT_VERIFY_DONE, R436. -/
  | bootVerifyDone (a b : Option BootImage) (pools : List Nat) (t : Nat)
  /-- DISCOVERY_DONE, R322. -/
  | discoveryDone (dies : DieNews) (clusters : List Nat) (t : Nat)
  /-- CHECKPOINT_LOAD_DONE, R324. -/
  | checkpointLoadDone (ok0 ok1 : Bool) (t : Nat)
  /-- JOURNAL_REPLAY_DONE, R323. -/
  | journalReplayDone (gap : Option Nat) (repaired : Nat) (unknown : List (Nat × Nat)) (t : Nat)
  /-- RESCUE_INTAKE_DONE, R323. -/
  | rescueIntakeDone (t : Nat)
  /-- RNG_READY, R422. -/
  | rngReady
  /-- RNG_HEALTH_FAIL, R424. -/
  | rngHealthFail (t : Nat)
  /-- PL_CEILING_CHANGE, R456. -/
  | plCeilingChange (t : Nat)
  /-- PL_MOVE_DONE, R459. -/
  | plMoveDone (t : Nat)
  /-- PL6_MODE_CHECK, R457. -/
  | pl6ModeCheck (margin t : Nat)
  /-- VDDC_ADAPT, R458. -/
  | vddcAdapt (margin t : Nat)
  /-- PMBUS_ARB_LOSS, R516. -/
  | pmbusArbLoss (bus target t : Nat)
  /-- S1_IDLE_TIMER, R461. -/
  | s1IdleTimer (t : Nat)
  /-- S2_IDLE_TIMER, R462. -/
  | s2IdleTimer (t : Nat)
  /-- SLEEP_ENTRY_DONE, R467. -/
  | sleepEntryDone (unit : ParkUnit) (t : Nat)
  /-- SLEEP_EXIT_DONE, R466. -/
  | sleepExitDone (unit : ParkUnit) (t : Nat)
  /-- PWR_SLEEP_S2, R462. -/
  | pwrSleepS2 (path : Path) (t : Nat)
  /-- PWR_SLEEP_S3, R464. -/
  | pwrSleepS3 (path : Path) (t : Nat)
  /-- PWR_PAD_RELEASE, R453. -/
  | pwrPadRelease (path : Path)
  /-- KLINK_RESYNC, R442. -/
  | klinkResync (up : Bool) (crc t : Nat)
  /-- KLINK_PF_TIMEOUT, R443. -/
  | klinkPfTimeout (t : Nat)
  /-- CLK_LOSS, R470. -/
  | clkLoss (lock : Bool) (t : Nat)
  /-- XTAL_LOST, R471. -/
  | xtalLost (t : Nat)
  /-- RC_TRIM, R471. -/
  | rcTrim (temp : Int) (xtal : Bool) (t : Nat)
  /-- THM_SAMPLE, R477. -/
  | thmSample (sensor : Nat) (temp : Int) (t : Nat)
  /-- SENSOR_TIMEOUT, R474. -/
  | sensorTimeout (sensor : Nat) (t : Nat)
  /-- HBM_SENSOR_READ, R472. -/
  | hbmSensorRead (temp : Int) (t : Nat)
  /-- PTH_SAMPLE, R477. -/
  | pthSample (sensor : Nat) (temp : Int) (t : Nat)
  /-- THROTTLE_STEP, R479. -/
  | throttleStep (t : Nat)
  /-- THERMAL_CEILING_RISE, R479. -/
  | thermalCeilingRise (t : Nat)
  /-- ORDERLY_STOP_DONE, R482. -/
  | orderlyStopDone (t : Nat)
  /-- THERMAL_RESTART, R485. -/
  | thermalRestart (t : Nat)
  /-- POWER_SAMPLE, R486. -/
  | powerSample (rails : List Nat) (vinMw vddcMa busy t : Nat)
  /-- AGE_HOUR_TICK, R493. -/
  | ageHourTick (freqs : List (Nat × Nat)) (t : Nat)
  /-- SIL_RECORD, R501. -/
  | silRecord (t : Nat)
  /-- SIL_PROGRAM_DONE, R497. -/
  | silProgramDone (t : Nat)
  /-- SIL_SECTOR_ERASE_DONE, R497. -/
  | silSectorEraseDone (t : Nat)
  /-- SIL_TOKEN_TICK, R502. -/
  | silTokenTick (t : Nat)
  /-- SIL_HOUR_STORE, R499. -/
  | silHourStore (t : Nat)
  /-- SIL_FREEZE, R507. -/
  | silFreeze (path : Path) (v : Word) (t : Nat)
  /-- SIL_FREEZE_TIMEOUT, R507. -/
  | silFreezeTimeout (path : Path) (t : Nat)
  /-- SIL_WINDOW_READ, R506. -/
  | silWindowRead (path : Path) (word : Nat)
  /-- SIL_CLEAR_GO, R509. -/
  | silClearGo (path : Path) (t : Nat)
  /-- SIL_CLEAR_DONE, R509. -/
  | silClearDone (t : Nat)
  /-- MAIN_RECORD_STORE, R500. -/
  | mainRecordStore (busy : Bool) (t : Nat)
  /-- REGISTER_ACCESS_REQUEST, R514. -/
  | registerAccessRequest (pec : Bool) (bytes : List Byte) (t : Nat)
  /-- SET_ENDPOINT_ID, R513. -/
  | setEndpointId (pec : Bool) (op eid t : Nat)
  /-- GET_ENDPOINT_ID, R513. -/
  | getEndpointId (pec : Bool) (t : Nat)
  /-- GET_MCTP_VERSION_SUPPORT, R513. -/
  | getMctpVersionSupport (pec : Bool) (ty t : Nat)
  /-- GET_MESSAGE_TYPE_SUPPORT, R513. -/
  | getMessageTypeSupport (pec : Bool) (t : Nat)
  /-- GET_VENDOR_DEFINED_MESSAGE_SUPPORT, R513. -/
  | getVendorDefinedMessageSupport (pec : Bool) (selector t : Nat)
  /-- PLDM_BASE, R513. -/
  | pldmBase (pec : Bool) (cmd arg t : Nat)
  /-- PLDM_SENSOR_READ, R496. -/
  | pldmSensorRead (pec : Bool) (sensorId t : Nat)
  /-- PLDM_FIRMWARE_UPDATE, R515. -/
  | pldmFirmwareUpdate (pec : Bool) (img : BootImage) (abandoned : Bool) (t : Nat)
  /-- MCTP_TIMEOUT, R516. -/
  | mctpTimeout (t : Nat)
  /-- COMMIT_KA, R412. -/
  | commitKa (path : Path)
  /-- COMMIT_SIG, R412. -/
  | commitSig (path : Path)
  /-- RAISE1, R431. -/
  | raise1 (path : Path) (v : Word)
  /-- RAISE2, R431. -/
  | raise2 (path : Path) (v : Word)
  /-- SEC_CMD_LOWER, R433. -/
  | secCmdLower (path : Path) (v : Word) (t : Nat)
  /-- LOWERING_DONE, R433. -/
  | loweringDone (beds failures t : Nat)
  /-- SEC_CMD_REPLACE_KA, R432. -/
  | secCmdReplaceKa (path : Path) (v : Word)
  /-- SEC_CMD_REPLACE_SIG, R432. -/
  | secCmdReplaceSig (path : Path) (v : Word)
  /-- SEC_CMD_ADVANCE_SVN, R437. -/
  | secCmdAdvanceSvn (path : Path) (v : Word)
  /-- SCU_TAKE, R425. -/
  | scuTake (path : Path)
  /-- SCU_RELEASE, R426. -/
  | scuRelease (path : Path)
  /-- SCU_GCM_ENCRYPT, R427. -/
  | scuGcmEncrypt (path : Path) (v : Word)
  /-- SCU_GCM_DECRYPT, R428. -/
  | scuGcmDecrypt (path : Path) (v : Word)
  /-- SCU_CMAC, R427. -/
  | scuCmac (path : Path) (v : Word)
  /-- SCU_KEY_WRAP, R427. -/
  | scuKeyWrap (path : Path) (v : Word)
  /-- SCU_KEY_UNWRAP, R427. -/
  | scuKeyUnwrap (path : Path) (v : Word)
  /-- SCU_SHA384, R427. -/
  | scuSha384 (path : Path) (v : Word)
  /-- SCU_OP_DONE, R427. -/
  | scuOpDone
  /-- MEM_CORRECTABLE, R398. -/
  | memCorrectable (e : MemErr) (t : Nat)
  /-- MEM_UNCORRECTABLE, R402. -/
  | memUncorrectable (e : MemErr) (mismatch : Bool) (hit : UeHit) (t : Nat)
  /-- NARROW_WRITE_REFUSED, R396. -/
  | narrowWriteRefused (e : MemErr) (t : Nat)
  /-- FABRIC_PARITY_FAIL, R381. -/
  | fabricParityFail (again : Bool) (e : MemErr) (hit : UeHit) (t : Nat)
  /-- ERROR_RECORD_HANDLED, R400. -/
  | errorRecordHandled
  /-- ECC_INJECT, R396. -/
  | eccInject (path : Path) (v : Word)
  /-- AGE_BANK_RESET, R494. -/
  | ageBankReset (path : Path)
  /-- ROOT_PLL_LOCK, R470. -/
  | rootPllLock (t : Nat)
  /-- VIN_STABLE, R540. -/
  | vinStable (mv t : Nat)
  /-- INRUSH_DONE, R540. -/
  | inrushDone (t : Nat)
  /-- RAIL_SEQUENCE_RESTART, R541. -/
  | railSequenceRestart (mv t : Nat)
  /-- RAIL_POWER_DOWN_STEP, R542. -/
  | railPowerDownStep (t : Nat)
  /-- VIN_ABOVE_RANGE, R541. -/
  | vinAboveRange (mv t : Nat)
  /-- ALL_SUPPLIES_LOST, R501. -/
  | allSuppliesLost (t : Nat)
  /-- LINK_GROUP_PLL_FAIL, R368. -/
  | linkGroupPllFail (lg t : Nat)
  /-- PCX_LINK_TRAINED, R168. -/
  | pcxLinkTrained (link rate width : Nat)
  /-- ETH_LINK_STATE_CHANGE, R121. -/
  | ethLinkStateChange (iface speed : Nat)
  /-- PCX_BUS_MASTER_ENABLE, R178. -/
  | pcxBusMasterEnable (fn : Nat)
  /-- JTAG_INSTRUCTION, R521. -/
  | jtagInstruction (main : Bool) (i : TapInstr)
  deriving DecidableEq, Repr

end Sys2Proof
end

