-- ==== Sys2Proof/Decode.lean ====
section
/-!
DEFINITION. The command that a word spells by the opcode table's bits. No row of spec/opcode_table.json gives bits: a command of the part is an event,
not a word, so no word spells one. (A submission descriptor is an operand of DESCRIPTOR_FETCH; Machine/Rings.lean reads it.)
-/

namespace Sys2Proof

/-- No row of the table has bits. -/
def decodeTableWord (_nbits _w : Nat) : Option Instr := none

end Sys2Proof
end

