-- ==== Sys2Proof/Machine/Tbl.lean ====
section
/-!
DEFINITION. Sparse tables: lists of key and value in one canonical form, keys strictly rising. Equal tables are equal
lists. A table whose unlisted keys read as a default value keeps no entry equal to that default (setD).
-/

namespace Sys2Proof.Machine

/-- A sparse table from naturals. -/
abbrev Tbl (α : Type) := List (Nat × α)

/-- The entry at a key. -/
def tget {α : Type} : Tbl α → Nat → Option α
  | [], _ => none
  | (i, v) :: t, k => if k = i then some v else if k < i then none else tget t k

/-- Write an entry, keeping the keys rising. -/
def tset {α : Type} : Tbl α → Nat → α → Tbl α
  | [], k, v => [(k, v)]
  | (i, w) :: t, k, v =>
    if k < i then (k, v) :: (i, w) :: t else if k = i then (k, v) :: t else (i, w) :: tset t k v

/-- Remove an entry. -/
def tdel {α : Type} : Tbl α → Nat → Tbl α
  | [], _ => []
  | (i, w) :: t, k => if k = i then t else if k < i then (i, w) :: t else (i, w) :: tdel t k

/-- The entry at a key of a table with a default. -/
def tgetD {α : Type} (t : Tbl α) (k : Nat) (d : α) : α := (tget t k).getD d

/-- Write an entry of a table with a default: writing the default removes the entry. -/
def tsetD {α : Type} [DecidableEq α] (t : Tbl α) (k : Nat) (v d : α) : Tbl α :=
  if v = d then tdel t k else tset t k v

/-- Change an entry that is present; nothing where it is absent. -/
def tmod {α : Type} (t : Tbl α) (k : Nat) (f : α → α) : Tbl α :=
  match tget t k with
  | none => t
  | some v => tset t k (f v)

/-- Is there an entry at a key? -/
def thas {α : Type} (t : Tbl α) (k : Nat) : Bool := (tget t k).isSome

/-- Change every value; the keys stay. -/
def tmap {α β : Type} (t : Tbl α) (f : Nat → α → β) : Tbl β := t.map fun e => (e.1, f e.1 e.2)

/-- Keep the entries that satisfy a test. -/
def tfilter {α : Type} (t : Tbl α) (p : Nat → α → Bool) : Tbl α := t.filter fun e => p e.1 e.2

/-- How many entries satisfy a test. -/
def tcount {α : Type} (t : Tbl α) (p : Nat → α → Bool) : Nat := (tfilter t p).length

/-- The first entry, in key order, that satisfies a test. -/
def tfind {α : Type} (t : Tbl α) (p : Nat → α → Bool) : Option (Nat × α) := t.find? fun e => p e.1 e.2

/-- The lowest key from a start upward that a table does not hold; the table's keys are rising. -/
def tfree {α : Type} : Tbl α → Nat → Nat
  | [], k => k
  | (i, _) :: t, k => if i < k then tfree t k else if i = k then tfree t (k + 1) else k

/-- The canonical form: keys strictly rising. -/
def Tbl.wf {α : Type} (t : Tbl α) : Bool :=
  match t with
  | [] => true
  | (_, _) :: [] => true
  | (i, _) :: (j, w) :: t => decide (i < j) && Tbl.wf ((j, w) :: t)

end Sys2Proof.Machine
end

