-- ==== Sys2Proof/Machine/State.lean ====
section
/-!
DEFINITION. The state of the Z9 as plain data: everything the spec gives the part, in one structure per unit
(spec/01_architecture.md), the queue of commands waiting, the reasons a step can stop, and the state right after the
power die starts (spec/09_power_loss_and_startup.md R327). INVENTORY.md lists every piece with its rule and reset value.
-/

namespace Sys2Proof.Machine

/-- Why the part stops. -/
inductive Fault where
  /-- Raised by ADC_SAMPLE and by the supply events where a supply lies beyond the absolute maximum ratings (R535): the spec gives the part
  no behaviour there. Safe: the part may be damaged. -/
  | absoluteMaximum
  deriving DecidableEq, Repr

/-- Why a command has no meaning. -/
inductive Refusal where
  /-- Raised by exec for a command whose meaning is not written yet. Safe. -/
  | notModelled (mnemonic : String)
  deriving DecidableEq, Repr

/-! ### Names -/

/-- The completion statuses (R98, R135); their codes are in Operands. -/
inductive Status where
  | ok | invalidOpcode | invalidField | aborted | notOwner | notReady | unitAbsent | classAbsent | waitTimeout
  | tenantInvalid | plotInvalid | ringInvalid | connInvalid | tenantBusy | ringBusy | wrongPlotKind | regionExists
  | graftBusy | resourceLimit | tenantLimit | plotLimit | regionLimit | quotaExceeded | tooManyOpen | tooManyActive
  | noSpaceTransient | noSpaceGraft | zoneState | zoneFull | zoneReadOnly | zoneOffline | zoneInvalidWrite
  | zoneBoundary | lbaRange | unwrittenBlock | mediaLost | accordRefused | accordMedia | thermalStop
  | connLimit | connState | connBusy | connBlock | keyUnwrap | kgenMismatch
  deriving DecidableEq, Repr

/-- The zone states (R47). -/
inductive ZState where
  | empty | iOpen | eOpen | closed | full | readOnly | offline
  deriving DecidableEq, Repr

/-- What a ring is bound to: a PCIe function (port x 1024 + function index, R166), a Smiast connection with its generation (R124), or
the on-chip mailbox (R79). -/
inductive Bind where
  | fn (f : Nat) | conn (c : Nat) | mailbox
  deriving DecidableEq, Repr

/-- Where an outstanding command stands (R89, R110, R113, R291). -/
inductive Stage where
  | fetched | lockWait | spaceWait | transfer | reading | committed | done | posting
  deriving DecidableEq, Repr

/-! ### Configuration and straps -/

/-- The configuration and the straps (R2, R167, R512, R521, R550; notes/assumptions/1.md). -/
structure Ident where
  variant : Variant := .z9A
  ownerMgt : Bool := false
  bif0 : Nat := 0
  bif1 : Nat := 0
  mgtMode : Bool := false
  mgtAddr : Nat := 0
  bscan : Bool := false
  deriving DecidableEq, Repr

/-! ### The register file -/

/-- Registers that hold what software wrote, the words staged for 64-bit and 128-bit quantities (R14), the read
latches of R524, the setup lock and the power die's copy (R530), and the mailbox bytes by BAR0 offset (R79, R563). -/
structure RegFile where
  regs : Tbl Word := []
  stage : Tbl Word := []
  latch : Tbl Word := []
  lock : Bool := false
  copy : Tbl Word := []
  mbx : Tbl Byte := []
  mbxCount : Nat := 0
  deriving DecidableEq, Repr

/-! ### Rings and commands -/

/-- A submission ring (R73-R76, R93, R105, R176, R178). No tenant: the owner's. -/
structure SubRing where
  tenant : Option Nat := none
  admin : Bool := false
  bind : Bind := .mailbox
  base : Nat := 0
  rkey : Nat := 0
  log2 : Nat := 0
  cq : Nat := 0
  head : Nat := 0
  tail : Nat := 0
  held : Option Nat := none
  deleting : Option Nat := none
  halted : Bool := false
  fault : Bool := false
  deriving DecidableEq, Repr

/-- A completion or telemetry ring (R73-R78, R81, R93, R118). -/
structure CompRing where
  tenant : Option Nat := none
  telem : Bool := false
  bind : Bind := .mailbox
  base : Nat := 0
  rkey : Nat := 0
  log2 : Nat := 0
  vector : Nat := 0
  coalCount : Nat := 0
  coalTime : Nat := 0
  count : Nat := 0
  widx : Nat := 0
  phase : Bool := false
  head : Nat := 0
  reserved : Nat := 0
  sinceIrq : Nat := 0
  firstAt : Option Nat := none
  halted : Bool := false
  deriving DecidableEq, Repr

/-- What a command has read of one block: nothing yet, the payload, an unwritten region block (zeros, R65), a block
never written (R57, R266), or lost. -/
inductive Got where
  | pending | have (p : Payload) | zeros | filler | lost
  deriving DecidableEq, Repr

/-- An accord (R68). -/
structure Accord where
  lat : Nat
  durable : Bool
  share : Nat
  bw : Nat
  deriving DecidableEq, Repr

/-- An outstanding command (R82, R86, R95-R99, R110, R111). Its key is its fetch number. asked: on a Smiast ring, its reads of remote memory have been asked for (R147). accOld: of
an ACCORD_SET executed and not yet completed, the tenant and the accord it had before (R71). held: of a read fetched before a move took effect and not begun, where what it reads lay
then: row and slot by zone key; row and offset by 2^63 + block key of a region (R246); and of a row position that got another bed since, by 2^62 + row x 32 + position, the row with 1 + the
old bed's key, or 0 where the position is rebuilt for it (R252, R279). -/
structure Cmd where
  sq : Nat := 0
  desc : BitVec 512 := 0
  sqhd : Nat := 0
  arrived : Nat := 0
  lat : Nat := 0
  gdur : Bool := false
  stage : Stage := .fetched
  past : Bool := false
  discard : Bool := false
  status : Status := .ok
  result : BitVec 64 := 0
  field : Nat := 0
  ew : Bool := false
  rc : Bool := false
  sd : Bool := false
  ht : Bool := false
  dp : Nat := 0
  causes : List (Nat × Nat) := []
  waitFrom : Nat := 0
  pos0 : Nat := 0
  npos : Nat := 0
  jseq : Nat := 0
  got : List Got := []
  segs : List SgEntry := []
  staged : Tbl Byte := []
  after : Option Nat := none
  asked : Bool := false
  accOld : Option (Nat × Option Accord) := none
  held : Tbl (Nat × Nat) := []
  deriving DecidableEq, Repr

/-- A range-lock entry, in arrival order (R112-R114): entered says it has a place in the table, held that it is granted. -/
structure Lock where
  cmd : Nat
  tenant : Nat
  plot : Nat
  first : Nat
  last : Nat
  excl : Bool
  entered : Bool
  held : Bool
  deriving DecidableEq, Repr

/-- The queue manager. -/
structure Qm where
  sqs : Tbl SubRing := []
  cqs : Tbl CompRing := []
  cmds : Tbl Cmd := []
  nextCmd : Nat := 0
  adminOn : Bool := false
  adminErr : Bool := false
  adminAwait : Bool := false
  locks : List Lock := []
  lockHigh : Nat := 0
  dbReject : Nat := 0
  countLatch : Tbl Word := []
  telemDue : Nat := 0
  telemSeq : Nat := 0
  telemDrop : Nat := 0
  deriving DecidableEq, Repr

/-! ### Buffer pools -/

/-- One pool of buffers (R115, R116): its base, buffer size, buffers as sized at start-up, of which lost to refused returns, the free list, fallbacks counted. -/
structure Pool where
  base : Nat
  size : Nat
  total : Nat
  lost : Nat
  free : List Nat
  fallback : Nat
  deriving DecidableEq, Repr

/-- Who waits for a buffer (R115): a Smiast packet to be sent, by its ticket; a COPY; the staging of a write's remote data and tags; an admin command's parameter block. -/
inductive BufUser where
  | packet (conn ticket : Nat) | copy (cmd : Nat) | staging (cmd : Nat) | block (cmd : Nat)
  deriving DecidableEq, Repr

/-- The buffer pool manager (R115-R117). -/
structure Bpm where
  pools : List Pool := []
  waiting : List (Nat × BufUser) := []
  granted : List (BufUser × Nat × Nat) := []
  bad : Nat := 0
  badPool : Nat := 0
  badKind : Nat := 0
  deriving DecidableEq, Repr

/-! ### Tenants, plots, zones, rows and beds: what the journal records (R312) -/

/-- The grants of R39. -/
structure Grants where
  quota : Nat
  plots : Nat
  openZones : Nat
  sqs : Nat
  cqs : Nat
  conns : Nat
  active : Nat
  region : Nat
  deriving DecidableEq, Repr

/-- A tenant. -/
structure Tenant where
  grants : Grants
  accord : Option Accord
  deriving DecidableEq, Repr

/-- A plot or a conventional region (R42, R43, R62). count is zones, or GiB of a region. -/
structure Plot where
  tenant : Nat
  region : Bool
  durable : Bool
  k : Nat
  mc : Nat
  profile : Nat
  count : Nat
  cap : Nat
  span : Nat
  hints : BitVec 64
  deriving DecidableEq, Repr

/-- A zone-map entry (R229). No row: a zone finished while Empty holds no row share (R48). written: blocks with data below the write pointer, which a finish
moves beyond them; the row table's valid blocks count these (the model's own field). -/
structure Zone where
  st : ZState
  row : Option Nat
  slot : Nat
  wp : Nat
  written : Nat
  commit : Nat
  lost : Bool
  deriving DecidableEq, Repr

/-- The row states of R230. -/
inductive RState where
  | building | isOpen | isSealed | weeding
  deriving DecidableEq, Repr

/-- A row-table entry (R230). kind: 0 zoned, 1 region, 2 system; role of a system row: 0 journal, 1 checkpoint, 2 rescue. pos: die and
bed of each position. assigned: per slot, its stripes in rank order (R264); since: per slot, when it became unclaimed; made: when the row was built. -/
structure Row where
  st : RState
  durable : Bool
  kind : Nat
  role : Nat
  k : Nat
  mc : Nat
  life : Nat
  slc : Bool
  profile : Nat
  plot : Nat
  bset : Option Nat
  valid : Nat
  claimed : Nat
  sealHour : Nat
  colo : Nat
  stream : Nat
  pos : List (Nat × Nat)
  assigned : List (List Nat)
  since : List Nat
  made : Nat := 0
  filled : Nat
  deriving DecidableEq, Repr

/-- The bed states of R225. -/
inductive BState where
  | erased | released | isOpen | isSealed | suspect | retired | system
  deriving DecidableEq, Repr

/-- A bed-table entry (R227). gone: the bed's die was declared failed and has returned; its position is not read (R274). -/
structure Bed where
  st : BState
  factory : Bool
  slc : Bool
  pe : Nat
  row : Nat
  pos : Nat
  skips : List Nat
  heat : Nat
  life : Nat
  senses : Nat
  stamp : Nat
  ew : Nat
  mean : Nat
  xpl : Bool := false
  gone : Bool := false
  deriving DecidableEq, Repr

/-- A graft (R288): 1 Copying, 2 Draining. -/
structure Graft where
  st : Nat
  durable : Bool
  k : Nat
  mc : Nat
  waitSpace : Bool
  deriving DecidableEq, Repr

/-- Every map and object the journal records (R312). Keys: zones plot x 2^32 + zone; beds die x 4096 + bed; cmap
plot x 2^48 + LBA to slot x 2^22 + offset; rslots plot x 2^14 + slot; lost and spills row x 2^16 + stripe; fixes
die x 4096 + bed; dieSvc 1 failed on its own, 2 failed with its link or group. -/
structure Maps where
  tenants : Tbl Tenant := []
  plots : Tbl Plot := []
  zones : Tbl Zone := []
  rows : Tbl Row := []
  beds : Tbl Bed := []
  cmap : Tbl Nat := []
  rslots : Tbl Nat := []
  lost : Tbl (List Nat) := []
  fixes : Tbl (List Nat) := []
  grafts : Tbl Graft := []
  spills : Tbl Nat := []
  dieSvc : Tbl Nat := []
  deriving DecidableEq, Repr

/-- A journal record (R314), with the absolute value it carries (R312). -/
inductive JRec where
  | zone (key : Nat) (z : Option Zone)
  | stripe (row slot stripe rank : Nat)
  | cmap (key : Nat) (e : Option Nat)
  | row (id : Nat) (r : Option Row)
  | pos (row i die bed : Nat) (old : Nat × Nat)
  | bed (key : Nat) (b : Bed)
  | move (plot zone row slot oldRow kind : Nat)
  | lost (key : Nat) (blocks : List Nat)
  | fix (key : Nat) (cws : List Nat)
  | plot (id : Nat) (p : Option Plot) (op : Nat)
  | tenant (id : Nat) (t : Option Tenant) (op : Nat)
  | graft (plot : Nat) (g : Option Graft) (st : Nat)
  | ckpt (set num : Nat) (isEnd : Bool)
  | spill (key : Nat) (rescue : Option Nat) (stripe : Nat)
  | key (plot : Nat) (installed : Bool)
  | mark (kind cycle image : Nat)
  | rslot (key : Nat) (row : Option Nat)
  | dieState (die st : Nat)
  deriving DecidableEq, Repr

/-! ### Write buffer, budget queue and stripes -/

/-- A committed block in the write buffer; its key is its budget position (R291). spilled: on a rescue row (R270); at: which one, and its data offset there. -/
structure BufBlk where
  plot : Nat
  lba : Nat
  pay : Payload
  spilled : Bool
  at_ : Option (Nat × Nat) := none
  deriving DecidableEq, Repr

/-- An incomplete stripe (R264, R269); key row x 2^16 + stripe. blocks: the budget position of each data block placed, in stripe order
(none: filler). lba0: LBA of the stripe's first block. fill: the stripe holds fillers alone (R266). spilling: its spill is on the way to a rescue row and nothing was added since. par: running P and Q per column. progd: positions programmed. -/
structure Stripe where
  slot : Nat := 0
  rank : Nat := 0
  lba0 : Nat := 0
  blocks : List (Option Nat) := []
  par : Tbl (Payload × Payload) := []
  progd : List Nat := []
  last : Nat := 0
  spilled : Bool := false
  spilling : Bool := false
  fill : Bool := false
  deriving DecidableEq, Repr

/-! ### Dies and the Almanac -/

/-- A found die: its media profile, inclusion (R221), wear figure (R29), worn mark (R257), running operation, time
until which it is blocked (R198), busy time of this period and of the last complete one (R186), slots claimed (R194), operation
time-outs seen (R368). -/
structure Die where
  profile : Nat := 0
  included : Bool := false
  wearValid : Bool := false
  worn : Bool := false
  blockedUntil : Nat := 0
  busy : Nat := 0
  busyLast : Nat := 0
  used : Tbl Nat := []
  timeouts : List Nat := []
  resetting : Option Nat := none
  deriving DecidableEq, Repr

/-- What a die operation does. -/
inductive OpKind where
  | readPage | program | erase
  deriving DecidableEq, Repr

/-- What a die operation belongs to: a host read, a write-buffer program or an erase; a copy in progress (its key), a transplant or rebuild (row x 32 + position), a patrol pass,
a spill (its stripe), a page of a failed word line that is programmed again. -/
inductive Work where
  | host | copy (key : Nat) | xpl (key : Nat) | rebuild (key : Nat) | patrol (row : Nat) | spill (key : Nat) | again
  deriving DecidableEq, Repr

/-- A die operation of the Almanac (R195-R199). level: its place in the order of R195. jobs: the codewords a read brings.
row, stripe, pos: what a program or read is for. replays, retrains: of its link since it was sent; crowded: more members of its row were unavailable than R203
allows (R208). -/
structure DieOp where
  die : Nat := 0
  kind : OpKind := .readPage
  bed : Nat := 0
  page : Nat := 0
  plane : Nat := 0
  level : Nat := 0
  retry : Bool := false
  tenant : Option Nat := none
  ready : Nat := 0
  deadline : Nat := 0
  sent : Bool := false
  suspending : Bool := false
  suspended : Bool := false
  suspends : Nat := 0
  since : Nat := 0
  gated : Bool := false
  ahead : Nat := 0
  jobs : List Nat := []
  row : Nat := 0
  stripe : Nat := 0
  pos : Nat := 0
  replays : Nat := 0
  retrains : Nat := 0
  crowded : Bool := false
  work : Work := .host
  deriving DecidableEq, Repr

/-- How far a codeword is (R390): read from the die, received and in decode, retried with offsets, in soft decode, waiting for a soft buffer; aside: a member that failed hard decode while
the others may do (R205). -/
inductive JobSt where
  | sensing | decoding | retrying | soft | softWait | aside | finished
  deriving DecidableEq, Repr

/-- A codeword being read for a command: which block it serves, where it lies, and, of a rebuild, the siblings gathered so far (R203,
R268). pos: the member position read; target: the block's own. parent: the job a sibling's read serves. cluster: whose soft buffer it holds. -/
structure Job where
  cmd : Nat := 0
  idx : Nat := 0
  plot : Nat := 0
  lba : Nat := 0
  row : Nat := 0
  stripe : Nat := 0
  q : Nat := 0
  c : Nat := 0
  pos : Nat := 0
  target : Nat := 0
  around : Bool := false
  gotp : Tbl Payload := []
  bad : List Nat := []
  st : JobSt := .sensing
  retries : Nat := 0
  parent : Option Nat := none
  cluster : Nat := 0
  senses : Nat := 0
  deriving DecidableEq, Repr

/-- Per-tenant service figures of the telemetry period and of the present second (R120, R217, R218). ended: completions of the period. -/
structure TStat where
  ended : Nat := 0
  reads : Nat := 0
  writes : Nat := 0
  cb : Nat := 0
  rc : Nat := 0
  sd : Nat := 0
  rh : Tbl Nat := []
  wh : Tbl Nat := []
  bytesR : Nat := 0
  bytesW : Nat := 0
  misses : Tbl Nat := []
  deriving DecidableEq, Repr

/-- Trellis and the Almanac. slotRb: dies that rebuild work has taken a further slot of in the present background slot; rbUsed: by die, how many it took in this period (R202). -/
structure Alm where
  dies : Tbl Die := []
  ops : Tbl DieOp := []
  nextOp : Nat := 0
  jobs : Tbl Job := []
  nextJob : Nat := 0
  bsets : Tbl (List Nat) := []
  bsetHigh : Nat := 0
  bsetFullAt : Tbl Nat := []
  placed : Nat := 0
  periodAt : Nat := 0
  slotAt : Nat := 0
  slotDue : Nat := 0
  slotBg : List Nat := []
  slotRb : List Nat := []
  rbUsed : Tbl Nat := []
  rcaCnt : Nat := 0
  boundMiss : Nat := 0
  gateWait : Nat := 0
  stats : Tbl TStat := []
  missDue : Nat := 0
  deriving DecidableEq, Repr

/-! ### Background moves -/

/-- A transplant (R248, R253): its cause, whether it takes the slots of R202, whether it runs, writing: its pages are read and the programs are out, waiting: no bed was to be had
(R185); the fresh bed; key row x 32 + position. -/
structure Xpl where
  cause : Nat := 0
  hard : Bool := false
  running : Bool := false
  writing : Bool := false
  waiting : Bool := false
  die : Nat := 0
  bed : Nat := 0
  deriving DecidableEq, Repr

/-- A rebuild of a row position (R275-R277), as a transplant; key row x 32 + position. -/
structure Rebuild where
  running : Bool := false
  writing : Bool := false
  waiting : Bool := false
  die : Nat := 0
  bed : Nat := 0
  deriving DecidableEq, Repr

/-- A zone or region copy in progress (R245, R289): destination row and slot, and what the zone was when the copy began; writing: its
pages are read and the programs are out. blks: of a region, the blocks of the stripe under way: LBA and offset in the source row; slot is then its rank in the destination. -/
structure Copying where
  plot : Nat
  zone : Nat
  src : Nat
  dst : Nat
  slot : Nat
  wp : Nat
  st : ZState
  kind : Nat
  writing : Bool := false
  blks : List (Nat × Nat) := []
  deriving DecidableEq, Repr

/-- A bed that is out of its row and waits for the reads that still use it (R246, R252, R279): state it goes to. -/
structure OldBed where
  row : Nat
  die : Nat
  bed : Nat
  next : BState
  cause : Nat
  deriving DecidableEq, Repr

/-- Media management and rows: weeding, transplants, rebuilds, grafts, patrol. toErase: beds given to a row that must be erased before its first program
(R226). trow: per profile, the times of the last weeding passes to reclaim a row, newest first (R240).
patrolAt, patrolDone: when the patrol period began, the rows it has passed over; patAcc: per position of the pass, corrected bits, codewords, codewords
above the threshold. levelling: profiles being levelled (R258). patrolRead: the stripe of the pass is being read (R283). retryGrafts: grafts that wait for space and may try again since the last weeding pass (R185).
mapLines: the lines in the map cache, by map and line (R232). dying: plots whose deletion executes, with the first fetch number it refuses (R46). -/
structure Med where
  stripes : Tbl Stripe := []
  weeding : List Nat := []
  weedRow : Option Nat := none
  weedFrom : Nat := 0
  copies : Tbl Copying := []
  reclaim : Tbl (List Nat) := []
  xpls : Tbl Xpl := []
  rebuilds : Tbl Rebuild := []
  old : List OldBed := []
  oldRows : List Nat := []
  noGroup : List Nat := []
  failedLg : List Nat := []
  effHours : Tbl Nat := []
  xplCnt : List Nat := []
  weedCnt : Nat := 0
  weedBlk : Nat := 0
  mapc : Nat := 0
  eolYears : Nat := 0xFFFF
  eolProfile : Nat := 0
  eolBasis : Bool := false
  peHist : Tbl (List Nat) := []
  rebuilt : Nat := 0
  patrolRow : Nat := 0
  patrolFrom : Nat := 0
  patrolFix : Nat := 0
  patrolAt : Nat := 0
  patrolDone : List Nat := []
  patAcc : List (Nat × Nat × Nat) := []
  patrolRead : Bool := false
  retryGrafts : List Nat := []
  mapLines : List (Nat × Nat) := []
  levelling : List Nat := []
  hourDue : Nat := 0
  toErase : List (Nat × Nat) := []
  trow : Tbl (List Nat) := []
  dying : List (Nat × Nat) := []
  deriving DecidableEq, Repr

/-! ### Journal, checkpoints, rescue content -/

/-- A checkpoint of one set (R317, R318): its number, begin sequence, when it began, its image, whether its pages still read. -/
structure Ckpt where
  num : Nat
  begin : Nat
  beganAt : Nat
  image : Maps
  readable : Bool
  deriving DecidableEq, Repr

/-- A checkpoint being written. -/
structure CkptRun where
  set : Nat
  num : Nat
  begin : Nat
  beganAt : Nat
  deriving DecidableEq, Repr

/-- What a flush left in the rescue rows (R307): journal tail, zone entries of active zones, blocks by budget position, the running parity
of incomplete stripes, the acknowledgement seal (cycle, position of the last acknowledged block plus one), the final seal. -/
structure Rescue where
  tail : List (Nat × JRec) := []
  zones : Tbl Zone := []
  blocks : Tbl BufBlk := []
  stripes : Tbl Stripe := []
  ackSeal : Option (Nat × Nat) := none
  finalSeal : Bool := false
  unarmed : Bool := false
  deriving DecidableEq, Repr

/-- The journal and its checkpoints; pages: the first sequence number of each programmed page that is not trimmed; used: rescue rows written since their last erase; trimmed: pages trimmed whose journal pair is not yet given up (R319); replayFrom: where replay begins; and the flash contents: programmed payloads by place ((die x 4096 + bed) x 2^16 + page) x 16 +
plane x 4 + codeword (notes/assumptions/10.md). -/
structure Jnl where
  seq : Nat := 0
  tail : List (Nat × JRec) := []
  tailAt : Option Nat := none
  prog : List (Nat × JRec) := []
  pages : List Nat := []
  ckpt0 : Option Ckpt := none
  ckpt1 : Option Ckpt := none
  writing : Option CkptRun := none
  recRecords : Nat := 0
  recTorn : Nat := 0
  mirrorFix : Nat := 0
  formatted : Bool := false
  rescue : Rescue := {}
  used : List Nat := []
  trimmed : Nat := 0
  replayFrom : Nat := 0
  flash : Tbl Payload := []
  deriving DecidableEq, Repr

/-- One ADC channel (R301): the sample, the range in force and the sample's own (shown), the first-after-change mark of the sample, next: the range has just changed, the range lock. -/
structure AdcChan where
  code : Nat := 0
  coarse : Bool := false
  shown : Bool := false
  rsw : Bool := false
  next : Bool := false
  locked : Bool := false
  deriving DecidableEq, Repr

/-- The hold-up bank and its measurement (R297-R303). due: when the next scheduled measurement falls due. -/
structure Hld where
  calSt : Nat := 0
  result : Nat := 0
  reason : Nat := 0
  valid : Bool := false
  validAt : Nat := 0
  cap : Nat := 0
  esr : Nat := 0
  due : Option Nat := none
  first : Bool := false
  refused : Bool := false
  runSince : Nat := 0
  soft : Bool := false
  charging : Bool := false
  bleed : Bool := false
  bleeding : Bool := false
  safe : Bool := false
  vhold : Nat := 0
  chans : List AdcChan := []
  leakDue : Nat := 0
  discharging : Bool := false
  deriving DecidableEq, Repr

/-- The main-die side of Cloche (R290-R295, R321). bank: the hold-up bank as the main die last saw it, while the keeper link is down (R20). -/
structure Clo where
  buf : Tbl BufBlk := []
  nextPos : Nat := 0
  ackPos : Nat := 0
  ceil : Nat := 0
  ceilDue : Nat := 0
  dpCnt : Nat := 0
  shortSince : Option Nat := none
  armed : Bool := false
  phase : Nat := 0
  ready : Bool := false
  bank : Option Hld := none
  fallback : Bool := false
  image : Nat := 0
  format : Bool := false
  ckptOld : Bool := false
  warmFrom : Nat := 0
  deriving DecidableEq, Repr

/-! ### The power die: supplies, sequence, hold-up bank -/

/-- The keeper: rails, power-fail, watchdog, starts (R304-R310, R327, R445, R446, R540-R542). restart: the cause of the start that follows once
the rails are down (none: stay off). seqFails: failures of the power sequence in a row; seqLost: VIN left its range during it; s3: the stop is an S3 entry. flush: cause (CLO_LAST) and start time of a flush in progress. ignored: requests for a warm start or a shutdown that came during a flush (R329; notes/assumptions/77.md). -/
structure Kpr where
  running : Bool := false
  state : Nat := 0
  cause : Nat := 0
  pf : Bool := false
  vinMv : Nat := 0
  vinOkSince : Option Nat := none
  vauxOk : Bool := false
  filterAt : Option Nat := none
  glitch : Nat := 0
  pwrcyc : Nat := 0
  lastBeat : Nat := 0
  flush : Option (Nat × Nat) := none
  restart : Option Nat := none
  lastResult : Nat := 0
  lastCause : Nat := 0
  lastDuration : Nat := 0
  fet : Bool := false
  buck : Bool := false
  ken : List Nat := []
  kpg : List Nat := []
  railAt : Nat := 0
  seqFails : Nat := 0
  seqLost : Bool := false
  restartAt : Option Nat := none
  downFrom : Option Nat := none
  shutdown : Bool := false
  s3 : Bool := false
  ignored : Nat := 0
  deriving DecidableEq, Repr

/-! ### Smiast -/

/-- A data-space packet sent and not yet acknowledged (R141, R153, R155): its header and plaintext, the key generation it was sealed under, how
often and when it was sent, its present time-out. completes: the completion ring it completes (R78); ticket: its buffer's user. -/
structure TxPkt where
  psn : Nat
  ty : Nat
  hdr : List Byte
  pay : List Byte
  kgen : Nat
  timerFrom : Nat
  rto : Nat
  retries : Nat
  retxAt : Option Nat
  completes : Option Nat
  ticket : Nat
  deriving DecidableEq, Repr

/-- What an RREQ fetches (R144-R146). tags: from 64-byte boundaries, so that the first skip bytes are no tags; off: how far in the read. -/
inductive ReqUse where
  | descs (sq first n : Nat) | data (cmd off : Nat) | tags (cmd skip off : Nat) | list (cmd : Nat) | params (cmd : Nat)
  deriving DecidableEq, Repr

/-- An outstanding RREQ: what for, address, length, region key, segments received. -/
structure Req where
  use : ReqUse
  addr : Nat
  len : Nat
  rkey : Nat
  segs : Tbl (List Byte)
  deriving DecidableEq, Repr

/-- A data-space packet the device has still to send: type, flags, request id, address, key, segment, payload; ticket: the number its buffer is asked under (R115); cmd: the command
whose read data it carries. -/
structure TxReq where
  ty : Nat
  flags : Nat
  reqId : Nat
  addr : Nat
  rkey : Nat
  pay : List Byte
  seg : Nat
  completes : Option Nat
  ticket : Nat := 0
  cmd : Option Nat := none
  deriving DecidableEq, Repr

/-- The connection states (R129). -/
inductive CState where
  | pending | isOpen | closing | failed | shut
  deriving DecidableEq, Repr

/-- A Smiast connection (R124-R165). iface, peer, port, nhMac: where its datagrams go. rxCum, rxSet: data-space PSNs received; held: BELLs and CLOSEs above a gap. granted, told: the
client's limit as it stands and as last sent. ceAt: the last CE mark; halvedAt: when the allowance was last halved; ecnAt: start of the present ECN_HOLD. waitKey: the CONN_KEY that waits for the
previous key to go, with its key. rxSealed, rxSealedCtl: packets the client has sealed under the current key in its two spaces, oldSealed, oldSealedCtl under the previous one (R164). deleting: the CONN_DELETE that waits for the acknowledgement of its CLOSE. -/
structure Conn where
  gen : Nat := 0
  tenant : Nat := 0
  iface : Nat := 0
  peer : Nat := 0
  port : Nat := 0
  psize : Nat := 0
  dscp : Nat := 0
  nhMac : Nat := 0
  regions : List (Nat × Nat × Nat) := []
  salt : Nat := 0
  st : CState := .pending
  reason : Nat := 0
  kgen : Nat := 0
  key : Option (BitVec 256) := none
  prevKey : Option (BitVec 256 × Nat) := none
  waitKey : Option (Nat × BitVec 256) := none
  psnDue : Bool := false
  txNext : Nat := 0
  unacked : List TxPkt := []
  queue : List TxReq := []
  rxCum : Nat := 0
  rxSet : List Nat := []
  held : List (Nat × Nat × List Byte) := []
  ctlTx : Nat := 0
  ctlRx : Nat := 0
  used : Nat := 0
  limit : Nat := 0
  clientUsed : Nat := 0
  granted : Nat := 0
  window : Nat := 0
  ceSeen : Bool := false
  ceCount : Nat := 0
  ceAt : Option Nat := none
  halvedAt : Option Nat := none
  ecnAt : Nat := 0
  told : Nat := 0
  reqs : Tbl Req := []
  reqQueue : List (ReqUse × Nat × Nat × Nat) := []
  nextReq : Nat := 0
  sealedTx : Nat := 0
  sealedCtl : Nat := 0
  rxSealed : Nat := 0
  rxSealedCtl : Nat := 0
  oldSealed : Nat := 0
  oldSealedCtl : Nat := 0
  nextTicket : Nat := 0
  ackDue : Nat := 0
  ackFrom : Option Nat := none
  gapFrom : Option Nat := none
  lastTx : Nat := 0
  lastRx : Nat := 0
  nakcAt : Option Nat := none
  closeAt : Option Nat := none
  deleting : Option Nat := none
  deriving DecidableEq, Repr

/-- The Smiast engine and the Ethernet interfaces. gcm: by port, the connections whose keys stand in its GCM engine's key cache (R411). -/
structure Smt where
  conns : Tbl Conn := []
  gens : Tbl Nat := []
  cache : List Nat := []
  links : Tbl Nat := []
  ipv6 : Tbl (BitVec 128) := []
  dropAuth : Nat := 0
  dropOther : Nat := 0
  retx : Nat := 0
  miss : Nat := 0
  echoes : Tbl (List Nat) := []
  gcm : Tbl (List Nat) := []
  deriving DecidableEq, Repr

/-! ### PCIe -/

/-- One PCIe link (R166-R182): NumVFs, trained rate and width, retrains, the reset log, DMA failures. -/
structure PcxLink where
  numVfs : Nat := 0
  rate : Nat := 0
  width : Nat := 0
  degraded : Bool := false
  retrains : Nat := 0
  pend : Bool := false
  flrCount : Nat := 0
  flrLast : Nat := 0
  dmaErr : Nat := 0
  deriving DecidableEq, Repr

/-- An entry of an MSI-X table in BAR4 (R168, R172): address, data, mask; pending. -/
structure Msix where
  addr : Nat
  data : Nat
  masked : Bool
  pending : Bool
  deriving DecidableEq, Repr

/-- The PCIe ports. Links are keyed port x 4 + link; functions port x 1024 + index; vectors function x 2048 + vector. master: the functions
whose Bus Master Enable is set (R178). cfg: what configuration space holds beside its reset values, keyed function x 4096 + offset (R168, R172, R176, R177). -/
structure Pcx where
  links : Tbl PcxLink := []
  master : List Nat := []
  cfg : Tbl Word := []
  msix : Tbl Msix := []
  deriving DecidableEq, Repr

/-- The types of the event records (R505). -/
inductive EvType where
  | clear | lost | fallback | strapOverride | fwUpdate | arbLoss
  | powerFail | clocheDone | clocheShort | holdupShort | calDone | calRefused | calAbort | bleedDone | railFault
  | klinkLost | clkLoss | xtalLost | pl6Mode
  | thermWarn | thermRate | thermStop | thermTrip | thermLockout | sensorFail | warmupTimeout
  | bootImage | bootFail | ckptFallback | recoveryFailed | jnlUnknown | cmapRaised
  | mediaUnknown | bedSuspect | bedRetired | dieWorn | memberFailed | rebuildNoGroup | stripeLost | patrolFix
  | graftStart | graftDone | bsetFull | bridgeAlert | linkReturn
  | guardFail | ldcFence | wbufLost | memCe | memUe | bpmBadReturn
  | accordMiss | pcxDegraded | pcxRingFault | pcxFlr | smtFail | smtClose | smtRingFault | smtRekeyDue
  | rngFail | keyMissing | slRaise | slLower | slErased | secCmd
  deriving DecidableEq, Repr

/-- What the device sends out (notes/assumptions/5.md). Numbers stand for bytes, byte 0 least significant. -/
inductive Out where
  /-- A DMA write with a function's Requester ID: address, length in bytes, the bytes. -/
  | dma (fn addr len bytes : Nat)
  /-- A DMA read request. -/
  | dmaRead (fn addr len : Nat)
  /-- An MSI-X message: function, address, data. -/
  | msix (fn addr data : Nat)
  /-- A UDP datagram carrying a Smiast packet, with what R121 and R123 set: interface, the 802.1Q tag (priority x 8192 + VLAN), destination MAC, address and port, source port, DSCP,
  ECN codepoint, TTL, don't-fragment (IPv4), UDP checksum; the UDP payload. -/
  | smiast (iface : Nat) (tag : Option Nat) (mac peer dport sport dscp ecn ttl : Nat) (df : Bool) (csum : Nat) (bytes : List Byte)
  /-- Another Ethernet frame answered on an interface: its 802.1Q tag; 0 ARP reply, 1 Neighbor Advertisement, 2 echo reply; to whom; its contents. -/
  | eth (iface : Nat) (tag : Option Nat) (kind peer : Nat) (bytes : List Byte)
  /-- A Herarn frame on a link. -/
  | herarn (link kind target seq len otag offset : Nat) (bytes : List Byte)
  /-- A Herarn LCTL block: link, code, ACK_SEQ. -/
  | lctl (link code ack : Nat)
  /-- A link action: 0 TS1 sent for a wake, 1 fast retrain begun, 2 full training begun. -/
  | linkAct (link act : Nat)
  /-- An MCTP message sent: its kind and the bytes of its body. -/
  | mctp (kind : Nat) (body : List Nat)
  /-- The value a register read answered. -/
  | regRead (off : Nat) (v : Word)
  /-- A PMBus transaction: target, command, value. -/
  | pmbus (target cmd value : Nat)
  /-- A pin driven: which and its level. -/
  | pin (name level : Nat)
  /-- A value shifted out of a test access port. -/
  | tdo (v : Nat)
  deriving DecidableEq, Repr

/-- An event record on its way to Sillage (R498, R505): its type, the time, the source, five parameters at most. -/
structure Ev where
  ty : EvType
  ps : List Nat
  deriving DecidableEq, Repr


/-! ### Herarn links -/

/-- A Herarn frame (R336, R337): kind 0 CMD, 1 DOUT, 2 DIN, 3 RSP; payload of len bytes. -/
structure HlFrame where
  kind : Nat
  target : Nat
  seq : Nat
  len : Nat
  otag : Nat
  offset : Nat
  pay : List Byte
  deriving DecidableEq, Repr

/-- An operation outstanding on a link (R361, R368): its opcode, target, the Almanac operation it carries out (or the operation a SUSPEND or
RESUME names), when its CMD went out, time it has been suspended, DIN bytes received, and the bytes themselves of a GEOMETRY or BADMAP report. -/
structure HlOp where
  opc : Nat
  target : Nat
  op : Option Nat
  sentAt : Nat
  pausedFor : Nat
  pausedAt : Option Nat
  din : Nat
  data : List Byte
  all : Bool := false
  deriving DecidableEq, Repr

/-- A Herarn link (R331-R369). failing: 1 once declared failed, until it returns. tempSum, tempN: TEMP reports of this hour (R251). st is STATE of HL_LSTAT: 0 Down, 1 Training, 2 Active, 3 Retrain, 4 P1, 5 P2, 6 Failed. -/
structure HLink where
  st : Nat := 0
  locked : Bool := false
  present : Nat := 0
  temp : Nat := 0
  tempSum : Int := 0
  tempN : Nat := 0
  errCrc : Nat := 0
  errSync : Nat := 0
  replays : Nat := 0
  retrains : Nat := 0
  lockLosses : Nat := 0
  timeouts : Nat := 0
  txPre : Nat := 0
  brPre : Nat := 0
  eye : Nat := 0
  buffer : Nat := 0
  fwVer : Nat := 0
  geo : List Byte := []
  badmaps : Tbl (List Byte) := []
  failing : Nat := 0
  deriving DecidableEq, Repr

/-- The sequencing of a link (R342-R349, R352, R363) and its timers; the line coding of its lane (R331-R334, R341): the descrambler and the scrambler as they stand, blocks sent since
the last SKP, and the frame in reception, its FS block and the data so far. txDraw: how many runs of IDLE blocks were drawn (the model's own: notes/assumptions/69.md). -/
structure HSeq where
  txSeq : Nat := 0
  rxSeq : Nat := 0
  unacked : List HlFrame := []
  queue : List HlFrame := []
  sameReplay : Nat := 0
  replayFrom : Nat := 0
  nakAt : Option Nat := none
  doutUsed : Nat := 0
  doutLimit : Nat := 0
  attempts : Nat := 0
  phaseAt : Nat := 0
  retrainAt : List Nat := []
  parking : Bool := false
  waking : Bool := false
  pll : Nat := 0
  idleFrom : Nat := 0
  retryAt : Nat := 0
  inbox : List HlFrame := []
  ops : Tbl HlOp := []
  ctrl : Nat := 0
  rxScr : BitVec 23 := 0x5AC3E1#23
  txScr : BitVec 23 := 0x5AC3E1#23
  txBlks : Nat := 0
  txDraw : Nat := 0
  rxPart : Option (List Byte × List Byte) := none
  deriving DecidableEq, Repr

/-- The Herarn links. groupIdle: since when every link of a group is in P1. known: the identity bytes of every die ever discovered (kept across starts). wearless: dies whose
wear figure could not be read when they were last discovered (R29). -/
structure Hl where
  links : Tbl HLink := []
  seqs : Tbl HSeq := []
  groupIdle : Tbl Nat := []
  known : Tbl (List Byte) := []
  wearless : List Nat := []
  deriving DecidableEq, Repr

/-! ### Memories and integrity -/

/-- An error record (R399): its four words. -/
structure ErrRec where
  w0 : Word := 0
  w1 : Word := 0
  w2 : Word := 0
  w3 : Word := 0
  deriving DecidableEq, Repr

/-- Error handling and the decoder clusters (R387-R408). -/
structure Ecc where
  queue : List ErrRec := []
  last : ErrRec := {}
  ovf : Bool := false
  ue : Bool := false
  ovfCnt : Nat := 0
  sramCe : Nat := 0
  sramUe : Nat := 0
  hbmCe : Nat := 0
  hbmUe : Nat := 0
  hbmAddr : Nat := 0
  narrow : Nat := 0
  guardW : Nat := 0
  guardR : Nat := 0
  fabric : Nat := 0
  injected : List (Nat × Nat × Nat × Nat) := []
  ceSince : Tbl Nat := []
  ceAt : Tbl Nat := []
  hbmStat : Nat := 0
  cw : Nat := 0
  hardFail : Nat := 0
  softA : Nat := 0
  softB : Nat := 0
  softFail : Nat := 0
  cbMax : Nat := 0
  softUse : Tbl Nat := []
  softWait : List Nat := []
  fenced : List Nat := []
  faults : Tbl (List Nat) := []
  cmapRes : Nat := 0
  deriving DecidableEq, Repr

/-! ### Keys and ciphers -/

/-- Fuses, owner keys and the key store (R409-R437). sl1, sl2: the fuses of the present epoch. store: the seed of each plot's key (R415, R416). ownResult:
RESULT of SEC_OWNKEY. wiped: plots whose key-store entry is destroyed (R417). xts: plots whose key stands in the XTS key cache; sskSeq: the journal sequence at this start, from which
SSK comes (R410, R411). lowering: 0, or the step of R433 reached; erasePend: the flag in the power die. aValid to svn: what SEC_BOOT shows of the last start. slots: images that firmware updates have written to A (0) and B (1). -/
structure Sec where
  sl1 : Bool := false
  sl2 : Bool := false
  epoch : Nat := 0
  svnFuse : Nat := 0
  revoked : Nat := 0
  ka : Option (BitVec 768) := none
  sig : Option (BitVec 768) := none
  ownResult : Nat := 0
  store : Tbl (BitVec 256) := []
  nonce : Option (BitVec 128) := none
  cmdResult : Nat := 0
  cmdReason : Nat := 0
  rngReady : Bool := false
  rngFailed : Bool := false
  rngFails : Nat := 0
  rngFailAt : List Nat := []
  lowering : Bool := false
  erasePend : Bool := false
  aValid : Bool := false
  bValid : Bool := false
  slot : Nat := 0
  svn : Nat := 0
  slots : Tbl BootImage := []
  wiped : List Nat := []
  xts : List Nat := []
  sskSeq : Nat := 0
  deriving DecidableEq, Repr

/-- The service cipher unit (R425-R428): the agent that holds it (0 free), its key, IV and buffer bytes, the operation running; failed: its tag or integrity check fails, which TAG_BAD shows when it ends. -/
structure Scu where
  holder : Nat := 0
  key : Tbl Byte := []
  iv : Tbl Byte := []
  buf : Tbl Byte := []
  ofs : Nat := 0
  len : Nat := 0
  op : Nat := 0
  busy : Bool := false
  fin : Bool := false
  failed : Bool := false
  tagBad : Bool := false
  err : Bool := false
  deriving DecidableEq, Repr

/-! ### Power, thermal, ageing -/

/-- Sleep states (R461): S0; entering, in and leaving S1; entering, in and leaving S2. -/
inductive Sleep where
  | s0 | s1Entering | s1 | s1Leaving | entering | s2 | leaving
  deriving DecidableEq, Repr

/-- A unit going into its park or coming out of it (R465, R467, R468): since when; exitAfter: a command arrived, so it exits as soon as the entry ends; unwinding: the entry was cancelled. -/
structure ParkRun where
  unit : ParkUnit
  leaving : Bool
  since : Nat
  exitAfter : Bool
  unwinding : Bool
  deriving DecidableEq, Repr

/-- A performance-level move in progress (R459, R460): its target; up: VDDC first, the divisor at the end. -/
structure Move where
  target : Nat
  up : Bool
  deriving DecidableEq, Repr

/-- Performance levels, sleep, parks, pads, keeper link, clocks (R438-R471). aon: the always-on domain is released. pl6Fast: PL6 runs CCLK / 3.
arbHeld: PMBus arbitration was lost for the VOUT_COMMAND of the move. voutHeld: a VOUT_COMMAND that waits for the keeper link (R20). exitAfter: exit as soon as the entry ends (R467); unwinding: an entry was cancelled (R468). parking: units between their states; the parked ones. activeAt: when the part was last
not idle. padsSafe: pads still at their start-up safe states (R454). -/
structure Pwr where
  aon : Bool := false
  pl : Nat := 0
  cdiv : Nat := 0
  vddc : Nat := 0
  margin : Nat := 0
  pl6Fast : Bool := false
  pl6Due : Nat := 0
  move : Option Move := none
  arbHeld : Bool := false
  voutHeld : Option Nat := none
  sleep : Sleep := .s0
  sleepAt : Nat := 0
  exitAfter : Bool := false
  unwinding : Bool := false
  cancelled : Bool := false
  activeAt : Nat := 0
  gpioLatched : Bool := true
  padsSafe : Bool := false
  klinkUp : Bool := false
  klinkCrc : Nat := 0
  klinkResync : Nat := 0
  klinkDownAt : Option Nat := none
  pllLock : Bool := false
  holdover : Bool := false
  clkLoss : Nat := 0
  parking : List ParkRun := []
  lgParked : List Nat := []
  ethParked : List Nat := []
  pcxParked : List Nat := []
  ethLast : Tbl Nat := []
  pcxLast : Tbl Nat := []
  deriving DecidableEq, Repr

/-- Temperatures and what follows from them (R472-R489), in 0.1 degrees C. hist: each sensor's readings over the last 10 s, newest first. raised: sensors whose
warning crossing has been recorded. fallTo: the level a rate action still brings the ceiling down to. pw: device power samples (mW) of the last second,
newest first, of which the mean outside a sprint takes those after pwFrom, the end of the last sprint; excess: energy (uJ) above 250 W of the last 300 s. stops: when stops and trips fell. throttleFrom: when the next fall of a throttle is due. tripAt: since when a trip waits for the keeper link. elecOver: the second's mean
lies above its limit; elecCalm: since when below 95 % of both. rails: mW of the rails in the order of R445, 1-8. -/
structure Thm where
  temps : Tbl Int := []
  hist : Tbl (List (Nat × Int)) := []
  failed : List Nat := []
  ceil : Nat := 7
  elec : Nat := 7
  warn : Bool := false
  raised : List Nat := []
  rateWarn : Bool := false
  rateFired : Option Nat := none
  fallTo : Option Nat := none
  fellAt : Option Nat := none
  throttleFrom : Option Nat := none
  calmFrom : Nat := 0
  hbmHot : Bool := false
  stopping : Bool := false
  stops : List Nat := []
  lockout : Bool := false
  restartFrom : Option Nat := none
  tripAt : Option Nat := none
  rails : Tbl Nat := []
  vinMw : Nat := 0
  pw : List (Nat × Nat) := []
  pwFrom : Nat := 0
  excess : List (Nat × Nat) := []
  sprint : Bool := false
  slackFrom : Option Nat := none
  elecOver : Bool := false
  elecCalm : Nat := 0
  steps : Nat := 0
  throttles : Nat := 0
  stopCnt : Nat := 0
  trips : Nat := 0
  pth : Tbl Int := []
  pthFailed : List Nat := []
  rcTrim : Nat := 0
  trimTemp : Int := 0
  xtalOk : Bool := false
  xtalLost : Bool := false
  deriving DecidableEq, Repr

/-- Ageing (R491-R495). cells: operating hours by level x 16 + band. drift: per sentinel, in 0.001 %. lastCell: the cell of the last operating hour. tjSum, plSum:
sums behind the lifetime means. bank: valid capacitances (hour taken, uF), oldest first; c0From: the hour at which RESET was last written. lastSilicon,
lastFlash: the last predictions before the main die went (R511). -/
structure Age where
  cells : Tbl Nat := []
  drift : Tbl Int := []
  lastCell : Nat := 0
  tjSum : Int := 0
  plSum : Nat := 0
  eolYears : Nat := 0xFFFF
  sentinel : Nat := 0
  bank : List (Nat × Nat) := []
  c0From : Option Nat := none
  lastSilicon : Nat := 0xFFFF
  lastFlash : Nat := 0xFFFF
  deriving DecidableEq, Repr

/-! ### Sillage and debug -/

/-- A record in the ring (R498): its sequence number, TYPE, severity, whether it comes from the main die, power-cycle count, operating hours,
seconds in the hour, parameters. -/
structure SilRec where
  rseq : Nat
  ty : Nat
  sev : Nat
  src : Nat
  pcc : Nat
  hours : Nat
  secs : Nat
  ps : List Nat
  deriving DecidableEq, Repr

/-- A record waiting to be programmed (R501), extra: one that takes no entry of the 32, the EV_LOST of a cause in its place (R503) or EV_CLEAR (R509). -/
structure SilItem where
  item : SilRec
  extra : Bool
  deriving DecidableEq, Repr

/-- A reading path's cursor, freeze and window (R506, R507). since: when its last freeze was set. lost: records lost since then. -/
structure SilPath where
  cursor : Nat := 0
  frozen : Bool := false
  since : Option Nat := none
  lost : Nat := 0
  window : List Word := []
  deriving DecidableEq, Repr

/-- The Sillage recorder (R497-R511, R560). inboxMain, inbox: events that arise on the main die and at the power die, not yet taken (true: from the main
die). store: records the main die holds; lostMain: how many it lost and the TYPE of the first. slots: the ring; first: the first slot written since the last
clear. prog: the record being programmed; erasing: a sector erase runs; clearing: a clear runs. tokAt: when the allowance last grew. hourStored: the stored
hour; hourBase, hourFrom: hours at the power die's start and when that was. Paths: bar0, mgmt. -/
structure Sil where
  inboxMain : List Ev := []
  store : List Ev := []
  lostMain : Nat := 0
  lostType : Nat := 0
  inbox : List (Ev × Bool) := []
  slots : Tbl SilRec := []
  head : Nat := 0
  first : Nat := 0
  wrapped : Bool := false
  rseq : Nat := 0
  queue : List SilItem := []
  prog : Option SilRec := none
  erasing : Bool := false
  tokens : Nat := 2048
  tokAt : Nat := 0
  dropped : Nat := 0
  hourStored : Nat := 0
  hourBase : Nat := 0
  hourFrom : Nat := 0
  bar0 : SilPath := {}
  mgmt : SilPath := {}
  clrCnt : Nat := 0
  clearing : Bool := false
  clearResult : Nat := 0
  clearReason : Nat := 0
  deriving DecidableEq, Repr

/-- An MCTP message offered to the management bus and not known to be sent (R516): its kind and body, when it was offered, arbitration losses. -/
structure MctpMsg where
  kind : Nat
  body : List Nat
  since : Nat
  losses : Nat
  deriving DecidableEq, Repr

/-- The management endpoint, test multiplexers and JTAG (R512-R521). arbRun: losses in a row of the PMBus transaction. gpio: pins with a GPIO function.
tmxRefused: TMX_REFUSED. tapMain, tapPower: the instruction in effect in each TAP. fwBusy: an update is being written. -/
structure Mgt where
  eid : Option Nat := none
  tid : Nat := 0
  msg : Option MctpMsg := none
  arbMgmt : Nat := 0
  arbPmbus : Nat := 0
  arbRun : Nat := 0
  pec : Nat := 0
  timeouts : Nat := 0
  gpio : Nat := 0
  tmxRefused : Nat := 0
  tapMain : TapInstr := .bypass
  tapPower : TapInstr := .bypass
  deriving DecidableEq, Repr

/-! ### The whole part -/

/-- What the model itself keeps beside the part's state (notes/assumptions/2.md, 5.md, 7.md): the latest time told in ns, the outputs sent, in order,
how many random numbers have been drawn; stood: by CB_REASON 1-4, the latest time told at which its condition stood (R208, R216); line: the blocks of frames and link control sent on
Herarn lanes as they stand on the line, in order (link, sync header, 16 bytes; R331, R332, R334); picks: how many cache evictions were drawn (notes/assumptions/71.md). -/
structure Io where
  now : Nat := 0
  out : List Out := []
  draws : Nat := 0
  stood : Tbl Nat := []
  line : List (Nat × Nat × List Byte) := []
  picks : Nat := 0
  deriving DecidableEq, Repr

/-- The part. -/
structure Dev where
  id : Ident := {}
  rf : RegFile := {}
  qm : Qm := {}
  bpm : Bpm := {}
  maps : Maps := {}
  alm : Alm := {}
  med : Med := {}
  jnl : Jnl := {}
  clo : Clo := {}
  kpr : Kpr := {}
  hld : Hld := {}
  smt : Smt := {}
  pcx : Pcx := {}
  hl : Hl := {}
  ecc : Ecc := {}
  sec : Sec := {}
  scu : Scu := {}
  pwr : Pwr := {}
  thm : Thm := {}
  age : Age := {}
  sil : Sil := {}
  mgt : Mgt := {}
  io : Io := {}
  deriving DecidableEq, Repr

/-- The machine: the part and the commands waiting, first in, first out. -/
structure State where
  dev : Dev
  pending : List Instr
  deriving DecidableEq, Repr

/-- Right after the cold reset with which the power die first starts (R327 cause 0): every unit at its reset values (spec/16_register_map.md), the main die off, VIN at
12 V and VAUX in range, media as from the factory (notes/assumptions/6.md). -/
def State.reset : State := {
  dev := { kpr := { running := true, vinMv := 12000, vinOkSince := some 0, vauxOk := true, pwrcyc := 1, restart := some 0 }, hld := { first := true } }
  pending := [] }

end Sys2Proof.Machine
end

