-- ==== Sys2Proof/Machine/Operands.lean ====
section
/-!
DEFINITION. Operand forms: bit fields, little- and big-endian bytes, the fields of a submission descriptor (R82, R83), the blocks its
parameters lie in (R91, R92), and the codes of statuses (R98, R135) and event types (R505).
-/

namespace Sys2Proof.Machine

/-! ### Fields and bytes -/

/-- Bits [lo + len - 1 : lo] of a number. -/
def fld (v lo len : Nat) : Nat := (v >>> lo) % 2 ^ len

/-- Is a bit of a number set? -/
def bit (v i : Nat) : Bool := v.testBit i

/-- A flag as a number. -/
def b2n (b : Bool) : Nat := if b then 1 else 0

/-- Bytes, first least significant. -/
def leNat : List Byte → Nat
  | [] => 0
  | b :: t => b.toNat + 256 * leNat t

/-- Bytes, first most significant. -/
def beNat (l : List Byte) : Nat := l.foldl (fun a b => a * 256 + b.toNat) 0

/-- The n low bytes of a number, least significant first. -/
def leBytes : Nat → Nat → List Byte
  | 0, _ => []
  | n + 1, v => BitVec.ofNat 8 v :: leBytes n (v / 256)

/-- The n low bytes of a number, most significant first. -/
def beBytes (n v : Nat) : List Byte := (leBytes n v).reverse

/-- Bytes from a up to a + n of a list. -/
def slice (l : List Byte) (a n : Nat) : List Byte := (l.drop a).take n

/-- A little-endian field of a byte list. -/
def leAt (l : List Byte) (a n : Nat) : Nat := leNat (slice l a n)

/-- Rounded-up division. -/
def cdiv (a b : Nat) : Nat := (a + b - 1) / b

/-- Hold a value within bounds. -/
def clampN (lo hi v : Nat) : Nat := if v < lo then lo else if hi < v then hi else v

/-- The larger of zero-to-one defaults: zero counts as one (the reading of many register fields). -/
def zeroAsOne (v : Nat) : Nat := if v = 0 then 1 else v

/-- A saturating counter of w bits, one more. -/
def satInc (w v : Nat) : Nat := if v + 1 < 2 ^ w then v + 1 else 2 ^ w - 1

/-- A saturating counter of w bits, n more. -/
def satAdd (w v n : Nat) : Nat := if v + n < 2 ^ w then v + n else 2 ^ w - 1

/-- A signed byte or halfword of w bits, from an integer. -/
def twos (w : Nat) (i : Int) : Nat := (BitVec.ofInt w i).toNat

/-- The integer a w-bit number stands for in two's complement. -/
def signed (w v : Nat) : Int := (BitVec.ofNat w v).toInt

/-! ### Lists -/

/-- Insert before the first element that does not come before. -/
def insertBy {α : Type} (before : α → α → Bool) (a : α) : List α → List α
  | [] => [a]
  | b :: t => if before b a then b :: insertBy before a t else a :: b :: t

/-- Sort by an order; equal elements keep their order. -/
def sortBy {α : Type} (lt : α → α → Bool) (l : List α) : List α :=
  l.foldr (fun a t => insertBy (fun b a => lt b a) a t) []

/-- The sum of a list. -/
def sumL (l : List Nat) : Nat := l.foldl (· + ·) 0

/-- The first least element by a measure. -/
def minBy {α : Type} (f : α → Nat) : List α → Option α
  | [] => none
  | a :: t => match minBy f t with
    | some b => if f b < f a then some b else some a
    | none => some a

/-- The first greatest element by a measure. -/
def maxBy {α : Type} (f : α → Nat) : List α → Option α
  | [] => none
  | a :: t => match maxBy f t with
    | some b => if f a < f b then some b else some a
    | none => some a

/-! ### Descriptors (R82, R83) -/

def dFld (d : BitVec 512) (byte lo len : Nat) : Nat := fld d.toNat (8 * byte + lo) len
def dOpc (d : BitVec 512) : Nat := dFld d 0 0 8
def dHv (d : BitVec 512) : Bool := dFld d 1 0 1 = 1
def dHtag (d : BitVec 512) : Bool := dFld d 1 1 1 = 1
def dList (d : BitVec 512) : Bool := dFld d 1 2 1 = 1
def dTag (d : BitVec 512) : Nat := dFld d 2 0 16
def dPlot (d : BitVec 512) : Nat := dFld d 4 0 14
def dNblk (d : BitVec 512) : Nat := dFld d 6 0 8 + 1
def dNblkRaw (d : BitVec 512) : Nat := dFld d 6 0 16
def dLba (d : BitVec 512) : Nat := dFld d 8 0 48
def dZone (d : BitVec 512) : Nat := dFld d 8 0 32
def dDptr (d : BitVec 512) : Nat := dFld d 16 0 64
def dTptr (d : BitVec 512) : Nat := dFld d 24 0 64
def dRkey (d : BitVec 512) : Nat := dFld d 32 0 32
def dHints (d : BitVec 512) : BitVec 64 := BitVec.ofNat 64 (dFld d 36 0 64)
def dArg (d : BitVec 512) (i : Nat) : Nat := dFld d (44 + 4 * i) 0 32

/-- The hints: lifetime class, read heat, spread or pack, stream id, colocate key (R83). -/
def hLife (h : BitVec 64) : Nat := fld h.toNat 0 3
def hHeat (h : BitVec 64) : Nat := fld h.toNat 3 2
def hSpread (h : BitVec 64) : Nat := fld h.toNat 5 2
def hStream (h : BitVec 64) : Nat := fld h.toNat 16 16
def hColo (h : BitVec 64) : Nat := fld h.toNat 32 32

/-- The hints a command works under: its own when HV is set, else the plot's defaults (R66, R83). -/
def hintsOf (d : BitVec 512) (p : Plot) : BitVec 64 := if dHv d then dHints d else p.hints

/-- Spread or pack of a plot's default: true is pack. -/
def packDefault (p : Plot) : Bool := decide (hSpread p.hints = 2)

/-- Spread or pack in force: the command's when 1 or 2, else the plot's; 0 or 3 there is spread (R185 table, R66). True: pack. -/
def packOf (d : BitVec 512) (p : Plot) : Bool :=
  let c := if dHv d then hSpread (dHints d) else 0
  if c = 1 then false else if c = 2 then true else packDefault p

/-! ### Codes -/

/-- The encoding of a status (R98, R135). -/
def Status.code : Status → Nat
  | .ok => 0x0000 | .invalidOpcode => 0x0001 | .invalidField => 0x0002 | .aborted => 0x0003 | .notOwner => 0x0004
  | .notReady => 0x0005 | .unitAbsent => 0x0006 | .classAbsent => 0x0007 | .waitTimeout => 0x0008
  | .tenantInvalid => 0x0101 | .plotInvalid => 0x0102 | .ringInvalid => 0x0103 | .connInvalid => 0x0104
  | .tenantBusy => 0x0105 | .ringBusy => 0x0106 | .wrongPlotKind => 0x0107 | .regionExists => 0x0108
  | .graftBusy => 0x0109 | .resourceLimit => 0x0201 | .tenantLimit => 0x0202 | .plotLimit => 0x0203
  | .regionLimit => 0x0204 | .quotaExceeded => 0x0205 | .tooManyOpen => 0x0206 | .tooManyActive => 0x0207
  | .noSpaceTransient => 0x0208 | .noSpaceGraft => 0x0209 | .zoneState => 0x0301 | .zoneFull => 0x0302
  | .zoneReadOnly => 0x0303 | .zoneOffline => 0x0304 | .zoneInvalidWrite => 0x0305 | .zoneBoundary => 0x0306
  | .lbaRange => 0x0307 | .unwrittenBlock => 0x0308 | .mediaLost => 0x0401 | .accordRefused => 0x0501
  | .accordMedia => 0x0502 | .thermalStop => 0x0601 | .connLimit => 0x0701 | .connState => 0x0702
  | .connBusy => 0x0703 | .connBlock => 0x0704 | .keyUnwrap => 0x0801 | .kgenMismatch => 0x0802

/-- The zone-state values (R47). -/
def ZState.code : ZState → Nat
  | .empty => 1 | .iOpen => 2 | .eOpen => 3 | .closed => 4 | .full => 5 | .readOnly => 6 | .offline => 7

/-- The type and the severity (0 I, 1 W, 2 E, 3 F) of an event record (R505). -/
def EvType.code : EvType → Nat × Nat
  | .clear => (0x0001, 0) | .lost => (0x0002, 1) | .fallback => (0x0003, 1) | .strapOverride => (0x0004, 1)
  | .fwUpdate => (0x0005, 0) | .arbLoss => (0x0006, 1) | .powerFail => (0x0101, 2) | .clocheDone => (0x0102, 0)
  | .clocheShort => (0x0103, 2) | .holdupShort => (0x0104, 2) | .calDone => (0x0105, 0) | .calRefused => (0x0106, 1)
  | .calAbort => (0x0107, 1) | .bleedDone => (0x0108, 0) | .railFault => (0x0109, 3) | .klinkLost => (0x010A, 3)
  | .clkLoss => (0x010B, 2) | .xtalLost => (0x010C, 1) | .pl6Mode => (0x010D, 0) | .thermWarn => (0x0201, 1)
  | .thermRate => (0x0202, 1) | .thermStop => (0x0203, 2) | .thermTrip => (0x0204, 3) | .thermLockout => (0x0205, 3)
  | .sensorFail => (0x0206, 1) | .warmupTimeout => (0x0207, 3) | .bootImage => (0x0301, 0) | .bootFail => (0x0302, 3)
  | .ckptFallback => (0x0303, 2) | .recoveryFailed => (0x0304, 3) | .jnlUnknown => (0x0305, 1)
  | .cmapRaised => (0x0306, 1) | .mediaUnknown => (0x0401, 1) | .bedSuspect => (0x0402, 1) | .bedRetired => (0x0403, 0)
  | .dieWorn => (0x0404, 2) | .memberFailed => (0x0405, 2) | .rebuildNoGroup => (0x0406, 2) | .stripeLost => (0x0407, 2)
  | .patrolFix => (0x0408, 1) | .graftStart => (0x0409, 0) | .graftDone => (0x040A, 0) | .bsetFull => (0x040B, 1)
  | .bridgeAlert => (0x040C, 1) | .linkReturn => (0x040D, 0) | .guardFail => (0x0501, 2) | .ldcFence => (0x0502, 2)
  | .wbufLost => (0x0503, 2) | .memCe => (0x0504, 0) | .memUe => (0x0505, 2) | .bpmBadReturn => (0x0506, 2)
  | .accordMiss => (0x0601, 1) | .pcxDegraded => (0x0602, 1) | .pcxRingFault => (0x0603, 1) | .pcxFlr => (0x0604, 0)
  | .smtFail => (0x0605, 1) | .smtClose => (0x0606, 0) | .smtRingFault => (0x0607, 1) | .smtRekeyDue => (0x0608, 1)
  | .rngFail => (0x0701, 2) | .keyMissing => (0x0702, 2) | .slRaise => (0x0703, 0) | .slLower => (0x0704, 2)
  | .slErased => (0x0705, 0) | .secCmd => (0x0706, 0)

/-! ### Keys of the tables -/

def zkey (plot zone : Nat) : Nat := plot * 2 ^ 32 + zone
def bkey (die bed : Nat) : Nat := die * 4096 + bed
def lkey (plot lba : Nat) : Nat := plot * 2 ^ 48 + lba
def skey (row stripe : Nat) : Nat := row * 65536 + stripe
def pkey (row pos : Nat) : Nat := row * 32 + pos
/-- The flash place of a codeword (notes/assumptions/10.md). -/
def fkey (die bed page q c : Nat) : Nat := (bkey die bed * 65536 + page) * 16 + q * 4 + c

/-- The link and the link group of a die. -/
def linkOf (die : Nat) : Nat := die / 8
def lgOf (die : Nat) : Nat := die / 64

end Sys2Proof.Machine
end

