-- ==== Sys2Proof/Machine/Crypto.lean ====
section
/-!
DEFINITION. The ciphers the spec names by standard (spec/12_security.md R427, spec/04_smiast_transport.md R140): AES-256 (FIPS 197), GCM
(SP 800-38D), CMAC (SP 800-38B), key wrap (RFC 3394), SHA-384 (FIPS 180-4), the KDF in counter mode (SP 800-108), CRC-32C (R375) and CRC-16
(R337). The standards' own definitions are not printed in the spec: notes/assumptions/12.md.
-/

namespace Sys2Proof.Machine

/-! ### AES-256 -/

/-- The S-box and its inverse, entry x at bits [8x + 7 : 8x]. -/
def sboxBits : Nat := 0x16BB54B00F2D99416842E6BF0D89A18CDF2855CEE9871E9B948ED9691198F8E19E1DC186B95735610EF6034866B53E708A8BBD4B1F74DDE8C6B4A61C2E2578BA08AE7A65EAF4566CA94ED58D6D37C8E779E4959162ACD3C25C2406490A3A32E0DB0B5EDE14B8EE4688902A22DC4F816073195D643D7EA7C41744975FEC130CCDD2F3FF1021DAB6BCF5389D928F40A351A89F3C507F02F94585334D43FBAAEFD0CF584C4A39BECB6A5BB1FC20ED00D153842FE329B3D63B52A05A6E1B1A2C830975B227EBE28012079A059618C323C7041531D871F1E5A534CCF73F362693FDB7C072A49CAFA2D4ADF04759FA7DC982CA76ABD7FE2B670130C56F6BF27B777C63
def sboxInvBits : Nat := 0x7D0C2155631469E126D677BA7E042B17619953833CBBEBC8B0F52AAE4D3BE0A0EF9CC9939F7AE52D0D4AB519A97F51605FEC8027591012B131C7078833A8DD1FF45ACD78FEC0DB9A2079D2C64B3E56FC1BBE18AA0E62B76F89C5291D711AF1476EDF751CE837F9E28535ADE72274AC9673E6B4F0CECFF297EADC674F4111913A6B8A130103BDAFC1020F3FCA8F1E2CD00645B3B80558E4F70AD3BC8C00ABD890849D8DA75746155EDAB9EDFD5048706C92B6655DCC5CA4D41698688664F6F87225D18B6D49A25B76B224D92866A12E084EC3FA420B954CEE3D23C2A632947B54CBE9DEC444438E3487FF2F9B8239E37CFBD7F3819EA340BF38A53630D56A0952

def subByte (x : Nat) : Nat := (sboxBits >>> (8 * x)) % 256
def subByteInv (x : Nat) : Nat := (sboxInvBits >>> (8 * x)) % 256

/-- Multiplication by x in the AES field. -/
def aesX (a : Nat) : Nat := if a < 128 then 2 * a else (2 * a) ^^^ 0x11B
def aesMul (a : Nat) : Nat → Nat
  | 0 => 0 | 1 => a | 2 => aesX a | 3 => aesX a ^^^ a
  | 9 => aesX (aesX (aesX a)) ^^^ a | 11 => aesX (aesX (aesX a) ^^^ a) ^^^ a
  | 13 => aesX (aesX (aesX a ^^^ a)) ^^^ a | 14 => aesX (aesX (aesX a ^^^ a) ^^^ a) | _ => 0

def xorL (a b : List Nat) : List Nat := List.zipWith (· ^^^ ·) a b

/-- The sixty words of the key schedule, each four bytes; from the eight of the key. -/
def aesExpand : Nat → Nat → List (List Nat) → List (List Nat)
  | 0, _, w => w
  | n + 1, rcon, w =>
    let i := w.length
    let t := w.getLast?.getD []
    let t := if i % 8 = 0 then
        (match (t.rotateLeft 1).map subByte with | a :: r => (a ^^^ rcon) :: r | [] => [])
      else if i % 8 = 4 then t.map subByte else t
    aesExpand n (if i % 8 = 0 then aesX rcon else rcon) (w ++ [xorL (w.getD (i - 8) []) t])

/-- The fifteen round keys, 16 bytes each. -/
def aesKeys (key : List Nat) : List (List Nat) :=
  let w := aesExpand 52 1 ((List.range 8).map fun i => (key.drop (4 * i)).take 4)
  (List.range 15).map fun r => ((w.drop (4 * r)).take 4).flatten

def shiftRows (s : List Nat) : List Nat := (List.range 16).map fun i => s.getD ((i + 4 * (i % 4)) % 16) 0
def shiftRowsInv (s : List Nat) : List Nat := (List.range 16).map fun i => s.getD ((i + 16 - 4 * (i % 4)) % 16) 0
def mixCol (a b c d : Nat) (s : List Nat) : List Nat := (List.range 16).map fun i =>
  let base := i / 4 * 4
  let g := fun j => s.getD (base + (i + j) % 4) 0
  aesMul (g 0) a ^^^ aesMul (g 1) b ^^^ aesMul (g 2) c ^^^ aesMul (g 3) d

/-- One AES-256 block. -/
def aesBlock (ks : List (List Nat)) (x : List Nat) : List Nat :=
  let s := xorL x (ks.getD 0 [])
  let s := (List.range 13).foldl (fun s r => xorL (mixCol 2 3 1 1 (shiftRows (s.map subByte))) (ks.getD (r + 1) [])) s
  xorL (shiftRows (s.map subByte)) (ks.getD 14 [])

/-- The inverse cipher. -/
def aesBlockInv (ks : List (List Nat)) (x : List Nat) : List Nat :=
  let s := xorL x (ks.getD 14 [])
  let s := (List.range 13).foldl (fun s r => mixCol 14 11 13 9 (xorL ((shiftRowsInv s).map subByteInv) (ks.getD (13 - r) []))) s
  xorL ((shiftRowsInv s).map subByteInv) (ks.getD 0 [])

/-- Bytes as numbers and back. -/
def toNats (l : List Byte) : List Nat := l.map (·.toNat)
def toBytes (l : List Nat) : List Byte := l.map (BitVec.ofNat 8 ·)

/-- A 256-bit key as bytes, most significant first. -/
def keyBytes (k : BitVec 256) : List Nat := toNats (beBytes 32 k.toNat)

def natsBe (l : List Nat) : Nat := l.foldl (fun a b => a * 256 + b) 0
def beNats (n v : Nat) : List Nat := toNats (beBytes n v)

/-! ### GCM -/

/-- Multiplication in GF(2^128) with GCM's bit order, on big-endian numbers. -/
def ghashMul (x y : Nat) : Nat :=
  ((List.range 128).foldl (fun (a : Nat × Nat) i =>
    (if x.testBit (127 - i) then a.1 ^^^ a.2 else a.1,
     if a.2.testBit 0 then (a.2 >>> 1) ^^^ (0xE1 <<< 120) else a.2 >>> 1)) (0, y)).1

/-- Blocks of 16, the last padded with zeros. -/
def blocks16 (l : List Nat) : List (List Nat) := (List.range (cdiv l.length 16)).map fun i =>
  let b := (l.drop (16 * i)).take 16
  b ++ List.replicate (16 - b.length) 0

def ghash (h : Nat) (bs : List (List Nat)) : Nat := bs.foldl (fun a b => ghashMul (a ^^^ natsBe b) h) 0

/-- Counter mode from a 12-byte nonce and a first counter. -/
def gcmCtr (ks : List (List Nat)) (nonce : List Nat) (l : List Nat) : List Nat :=
  ((blocks16 l).zipIdx.map fun e => xorL e.1 (aesBlock ks (nonce ++ beNats 4 (e.2 + 2)))).flatten.take l.length

/-- The GCM tag over associated data and ciphertext. -/
def gcmTag (ks : List (List Nat)) (nonce aad ct : List Nat) : List Nat :=
  let h := natsBe (aesBlock ks (List.replicate 16 0))
  let s := ghash h (blocks16 aad ++ blocks16 ct ++ [beNats 8 (8 * aad.length) ++ beNats 8 (8 * ct.length)])
  xorL (beNats 16 s) (aesBlock ks (nonce ++ [0, 0, 0, 1]))

/-- AES-256-GCM: ciphertext and tag. -/
def gcmSeal (key : BitVec 256) (nonce aad pt : List Byte) : List Byte × List Byte :=
  let ks := aesKeys (keyBytes key)
  let ct := gcmCtr ks (toNats nonce) (toNats pt)
  (toBytes ct, toBytes (gcmTag ks (toNats nonce) (toNats aad) ct))

/-- AES-256-GCM opening: the plaintext when the tag verifies. -/
def gcmOpen (key : BitVec 256) (nonce aad ct tag : List Byte) : Option (List Byte) :=
  let ks := aesKeys (keyBytes key)
  if toBytes (gcmTag ks (toNats nonce) (toNats aad) (toNats ct)) = tag then some (toBytes (gcmCtr ks (toNats nonce) (toNats ct))) else none

/-! ### CMAC, KDF -/

def cmacDbl (x : Nat) : Nat := if x.testBit 127 then ((2 * x) % 2 ^ 128) ^^^ 0x87 else 2 * x

/-- AES-256-CMAC. -/
def cmac (key : BitVec 256) (msg : List Byte) : List Byte :=
  let ks := aesKeys (keyBytes key)
  let k1 := cmacDbl (natsBe (aesBlock ks (List.replicate 16 0)))
  let m := toNats msg
  let n := if m.length = 0 then 1 else cdiv m.length 16
  let last := m.drop (16 * (n - 1))
  let lastB := if last.length = 16 then natsBe last ^^^ k1
    else natsBe (last ++ [0x80] ++ List.replicate (15 - last.length) 0) ^^^ cmacDbl k1
  let c := (List.range (n - 1)).foldl (fun a i => natsBe (aesBlock ks (beNats 16 (a ^^^ natsBe ((m.drop (16 * i)).take 16))))) 0
  toBytes (aesBlock ks (beNats 16 (c ^^^ lastB)))

/-! ### Key wrap (RFC 3394), n blocks of 8 bytes -/

def kwIv : Nat := 0xA6A6A6A6A6A6A6A6

/-- Wrap. -/
def keyWrap (key : BitVec 256) (pt : List Byte) : List Byte :=
  let ks := aesKeys (keyBytes key)
  let n := pt.length / 8
  let r := (List.range n).map fun i => natsBe ((toNats pt).drop (8 * i) |>.take 8)
  let f := (List.range (6 * n)).foldl (fun (a : Nat × List Nat) j =>
    let i := j % n
    let b := natsBe (aesBlock ks (beNats 16 (a.1 * 2 ^ 64 + a.2.getD i 0)))
    ((b / 2 ^ 64) ^^^ (j + 1), a.2.set i (b % 2 ^ 64))) (kwIv, r)
  toBytes (beNats 8 f.1 ++ (f.2.map fun v => beNats 8 v).flatten)

/-- Unwrap: the plaintext when the integrity value is right. -/
def keyUnwrap (key : BitVec 256) (ct : List Byte) : Option (List Byte) :=
  let ks := aesKeys (keyBytes key)
  let n := ct.length / 8 - 1
  let c := toNats ct
  let r := (List.range n).map fun i => natsBe ((c.drop (8 * (i + 1))).take 8)
  let f := (List.range (6 * n)).foldl (fun (a : Nat × List Nat) j =>
    let jj := 6 * n - 1 - j
    let i := jj % n
    let b := natsBe (aesBlockInv ks (beNats 16 ((a.1 ^^^ (jj + 1)) * 2 ^ 64 + a.2.getD i 0)))
    (b / 2 ^ 64, a.2.set i (b % 2 ^ 64))) (natsBe (c.take 8), r)
  if f.1 = kwIv then some (toBytes ((f.2.map fun v => beNats 8 v).flatten)) else none

/-! ### SHA-384 -/

def rotr64 (x n : Nat) : Nat := ((x >>> n) ||| (x <<< (64 - n))) % 2 ^ 64

def shaK : List Nat := [
  0x428A2F98D728AE22, 0x7137449123EF65CD, 0xB5C0FBCFEC4D3B2F, 0xE9B5DBA58189DBBC,
  0x3956C25BF348B538, 0x59F111F1B605D019, 0x923F82A4AF194F9B, 0xAB1C5ED5DA6D8118,
  0xD807AA98A3030242, 0x12835B0145706FBE, 0x243185BE4EE4B28C, 0x550C7DC3D5FFB4E2,
  0x72BE5D74F27B896F, 0x80DEB1FE3B1696B1, 0x9BDC06A725C71235, 0xC19BF174CF692694,
  0xE49B69C19EF14AD2, 0xEFBE4786384F25E3, 0x0FC19DC68B8CD5B5, 0x240CA1CC77AC9C65,
  0x2DE92C6F592B0275, 0x4A7484AA6EA6E483, 0x5CB0A9DCBD41FBD4, 0x76F988DA831153B5,
  0x983E5152EE66DFAB, 0xA831C66D2DB43210, 0xB00327C898FB213F, 0xBF597FC7BEEF0EE4,
  0xC6E00BF33DA88FC2, 0xD5A79147930AA725, 0x06CA6351E003826F, 0x142929670A0E6E70,
  0x27B70A8546D22FFC, 0x2E1B21385C26C926, 0x4D2C6DFC5AC42AED, 0x53380D139D95B3DF,
  0x650A73548BAF63DE, 0x766A0ABB3C77B2A8, 0x81C2C92E47EDAEE6, 0x92722C851482353B,
  0xA2BFE8A14CF10364, 0xA81A664BBC423001, 0xC24B8B70D0F89791, 0xC76C51A30654BE30,
  0xD192E819D6EF5218, 0xD69906245565A910, 0xF40E35855771202A, 0x106AA07032BBD1B8,
  0x19A4C116B8D2D0C8, 0x1E376C085141AB53, 0x2748774CDF8EEB99, 0x34B0BCB5E19B48A8,
  0x391C0CB3C5C95A63, 0x4ED8AA4AE3418ACB, 0x5B9CCA4F7763E373, 0x682E6FF3D6B2B8A3,
  0x748F82EE5DEFB2FC, 0x78A5636F43172F60, 0x84C87814A1F0AB72, 0x8CC702081A6439EC,
  0x90BEFFFA23631E28, 0xA4506CEBDE82BDE9, 0xBEF9A3F7B2C67915, 0xC67178F2E372532B,
  0xCA273ECEEA26619C, 0xD186B8C721C0C207, 0xEADA7DD6CDE0EB1E, 0xF57D4F7FEE6ED178,
  0x06F067AA72176FBA, 0x0A637DC5A2C898A6, 0x113F9804BEF90DAE, 0x1B710B35131C471B,
  0x28DB77F523047D84, 0x32CAAB7B40C72493, 0x3C9EBE0A15C9BEBC, 0x431D67C49C100D4C,
  0x4CC5D4BECB3E42B6, 0x597F299CFC657E2A, 0x5FCB6FAB3AD6FAEC, 0x6C44198C4A475817]

/-- One compression. w: the message schedule, built as it goes. -/
def shaBlock (h : List Nat) (blk : List Nat) : List Nat :=
  let w := (List.range 64).foldl (fun (w : List Nat) i =>
    let g := fun k => w.getD (i + 16 - k) 0
    let s0 := rotr64 (g 15) 1 ^^^ rotr64 (g 15) 8 ^^^ (g 15 >>> 7)
    let s1 := rotr64 (g 2) 19 ^^^ rotr64 (g 2) 61 ^^^ (g 2 >>> 6)
    w ++ [(g 16 + s0 + g 7 + s1) % 2 ^ 64]) ((List.range 16).map fun i => natsBe ((blk.drop (8 * i)).take 8))
  let o := (List.zip shaK w).foldl (fun (s : List Nat) kw =>
    let a := s.getD 0 0
    let b := s.getD 1 0
    let c := s.getD 2 0
    let e := s.getD 4 0
    let f := s.getD 5 0
    let g := s.getD 6 0
    let t1 := s.getD 7 0 + (rotr64 e 14 ^^^ rotr64 e 18 ^^^ rotr64 e 41) + ((e &&& f) ^^^ ((2 ^ 64 - 1 - e) &&& g)) + kw.1 + kw.2
    let t2 := (rotr64 a 28 ^^^ rotr64 a 34 ^^^ rotr64 a 39) + ((a &&& b) ^^^ (a &&& c) ^^^ (b &&& c))
    [(t1 + t2) % 2 ^ 64, a, b, c, (s.getD 3 0 + t1) % 2 ^ 64, e, f, g]) h
  List.zipWith (fun x y => (x + y) % 2 ^ 64) h o

/-- SHA-384: 48 bytes. -/
def sha384 (msg : List Byte) : List Byte :=
  let m := toNats msg
  let z := (240 - (m.length + 1 + 16) % 128 + 16) % 128
  let p := m ++ [0x80] ++ List.replicate z 0 ++ beNats 16 (8 * m.length)
  let h0 : List Nat := [0xCBBB9D5DC1059ED8, 0x629A292A367CD507, 0x9159015A3070DD17, 0x152FECD8F70E5939, 0x67332667FFC00B31, 0x8EB44A8768581511, 0xDB0C2E0D64F98FA7, 0x47B5481DBEFA4FA4]
  let h := (List.range (p.length / 128)).foldl (fun h i => shaBlock h ((p.drop (128 * i)).take 128)) h0
  toBytes (((h.take 6).map fun v => beNats 8 v).flatten)

/-! ### CRCs -/

/-- CRC-32C, reflected (R375). -/
def crc32c (l : List Byte) : Nat :=
  (l.foldl (fun c b => (List.range 8).foldl (fun c _ => if c % 2 = 1 then (c / 2) ^^^ 0x82F63B78 else c / 2) (c ^^^ b.toNat)) 0xFFFFFFFF) ^^^ 0xFFFFFFFF

/-- CRC-16, polynomial 0x1021, initial value 0xFFFF (R337). -/
def crc16 (l : List Byte) : Nat :=
  l.foldl (fun c b => (List.range 8).foldl (fun c _ => if 0x8000 ≤ c then ((2 * c) % 0x10000) ^^^ 0x1021 else 2 * c) (c ^^^ (b.toNat * 256))) 0xFFFF

/-- KDF (SP 800-108, counter mode, AES-256-CMAC, 32-bit big-endian counter and length): label, a zero byte, context, length in bits. -/
def kdf (key : BitVec 256) (label : List Byte) (ctx : List Byte) (bits : Nat) : List Byte :=
  ((List.range (cdiv bits 128)).flatMap fun i => cmac key (beBytes 4 (i + 1) ++ label ++ [0] ++ ctx ++ beBytes 4 bits)).take (bits / 8)

/-- The bytes of an ASCII string. -/
def ascii (s : String) : List Byte := s.toList.map fun c => BitVec.ofNat 8 c.toNat

end Sys2Proof.Machine
end

