-- ==== Sys2Proof/Machine/Ecdsa.lean ====
section
/-!
DEFINITION. The P-384 curve and ECDSA verification, named by spec/12_security.md R412, R432, R435 and spec/15_sillage_and_debug.md R509. The constants and formulas come
from the standards that the spec names (PRESUMED, notes/assumptions/12.md).
-/

namespace Sys2Proof.Machine

/-- The field prime, the group order, the coefficient b and the base point. -/
def ecP : Nat := 2 ^ 384 - 2 ^ 128 - 2 ^ 96 + 2 ^ 32 - 1
def ecN : Nat := 0xffffffffffffffffffffffffffffffffffffffffffffffffc7634d81f4372ddf581a0db248b0a77aecec196accc52973
def ecB : Nat := 0xb3312fa7e23ee7e4988e056be3f82d19181d9c6efe8141120314088f5013875ac656398d8a2ed19d2a85c8edd3ec2aef
def ecGx : Nat := 0xaa87ca22be8b05378eb1c71ef320ad746e1d3b628ba79b9859f741e082542a385502f25dbf55296c3a545e3872760ab7
def ecGy : Nat := 0x3617de4a96262c6f5d9e98bf9292dc29f8f41dbd289a147ce9da3113b5f0b8c00a60b1ce1d7e819d7a431d7c90ea0e5f

/-- Difference in the field. -/
def ecSub (a b : Nat) : Nat := (a + ecP - b % ecP) % ecP

/-- A power modulo m, exponent below 2^384. -/
def powMod (m b e : Nat) : Nat := (List.range 384).foldl (fun r i => let q := r * r % m; if e.testBit (383 - i) then q * b % m else q) (1 % m)

/-- Is an affine point on the curve? -/
def onCurve (x y : Nat) : Bool := decide (x < ecP) && decide (y < ecP) && decide (y * y % ecP = ecSub (x * x % ecP * x + ecB) (3 * x))

/-- A point in Jacobian coordinates; z = 0 is the point at infinity. -/
structure EcPoint where
  x : Nat
  y : Nat
  z : Nat
  deriving DecidableEq, Repr

def ecDouble (a : EcPoint) : EcPoint :=
  let d := a.z * a.z % ecP
  let g := a.y * a.y % ecP
  let b := a.x * g % ecP
  let al := 3 * (ecSub a.x d * ((a.x + d) % ecP)) % ecP
  let x := ecSub (al * al) (8 * b)
  { x := x, y := ecSub (al * ecSub (4 * b) x) (8 * (g * g)), z := ecSub ((a.y + a.z) * (a.y + a.z)) (g + d) }

def ecAdd (a b : EcPoint) : EcPoint :=
  if a.z = 0 then b else if b.z = 0 then a else
  let za := a.z * a.z % ecP
  let zb := b.z * b.z % ecP
  let u1 := a.x * zb % ecP
  let s1 := a.y * b.z % ecP * zb % ecP
  let h := ecSub (b.x * za) u1
  let r := ecSub (b.y * a.z % ecP * za) s1
  if h = 0 then (if r = 0 then ecDouble a else { x := 1, y := 1, z := 0 }) else
  let hh := h * h % ecP
  let hhh := hh * h % ecP
  let v := u1 * hh % ecP
  let x := ecSub (r * r) (hhh + 2 * v)
  { x := x, y := ecSub (r * ecSub v x) (s1 * hhh), z := h * (a.z * b.z % ecP) % ecP }

/-- A scalar below 2^384 times a point. -/
def ecMul (k : Nat) (a : EcPoint) : EcPoint :=
  (List.range 384).foldl (fun r i => let q := ecDouble r; if k.testBit (383 - i) then ecAdd q a else q) { x := 1, y := 1, z := 0 }

/-- Is a 96-byte big-endian point x, y on the curve? -/
def keyOnCurve (k : BitVec 768) : Bool := onCurve (k.toNat / 2 ^ 384) (k.toNat % 2 ^ 384)

/-- ECDSA P-384 over the SHA-384 of a message; sig is r, s, 48 bytes each, big-endian. -/
def ecdsaOk (key sig : BitVec 768) (msg : List Byte) : Bool :=
  let r := sig.toNat / 2 ^ 384
  let s := sig.toNat % 2 ^ 384
  if !keyOnCurve key || decide (r = 0) || decide (ecN ≤ r) || decide (s = 0) || decide (ecN ≤ s) then false else
  let e := beNat (sha384 msg)
  let w := powMod ecN s (ecN - 2)
  let p := ecAdd (ecMul (e * w % ecN) { x := ecGx, y := ecGy, z := 1 }) (ecMul (r * w % ecN) { x := key.toNat / 2 ^ 384, y := key.toNat % 2 ^ 384, z := 1 })
  if p.z = 0 then false else
  let zi := powMod ecP p.z (ecP - 2)
  decide (p.x * (zi * zi % ecP) % ecP % ecN = r)

end Sys2Proof.Machine
end

