-- ==== Sys2Proof/Config.lean ====
section
/-!
DEFINITION. What one implementation fixes and the spec does not print, and the free values. Every constant here is
opaque: nothing in Lean can compute it, so a statement about it holds whatever it is (notes/assumptions/6.md, 7.md).
-/

namespace Sys2Proof.Config

/-- The n-th number drawn from the random number generator (spec/12_security.md R422): salts, initial sequence numbers, nonces,
generated keys. Which draw comes next is State's draw counter (notes/assumptions/7.md). -/
opaque random : Nat → BitVec 512

/-- The device secret in fuses (spec/12_security.md R409); its value is never printed. -/
opaque deviceSecret : BitVec 256

/-- SEC_DEVID, the device's fused identity (spec/12_security.md R432). -/
opaque deviceId : BitVec 64

/-- SEC_DEVPUB, the device identity public key, x then y (spec/12_security.md R410). -/
opaque devicePub : BitVec 768

/-- MGT_IANA, Treiviat's IANA enterprise number (spec/15_sillage_and_debug.md R513). -/
opaque ianaNumber : BitVec 32

/-- Treiviat's PCI-SIG vendor identifier, the revision, and the subsystem vendor and subsystem in configuration space (spec/05_pcie_ports.md R168; notes/assumptions/65.md). -/
opaque pcxVendor : BitVec 16
opaque pcxRevision : BitVec 8
opaque pcxSubsystem : BitVec 32

/-- The rounding of a power of two that is not exact (R251, R493), as a function of the exponent's numerator. -/
opaque pow2Frac : Nat → Nat

/-- The key-encryption keys of an owner's key-agreement key and an epoch, for plots (0) or connections (1) (spec/12_security.md R413). The private scalar of DIK
comes from the device secret, and the spec does not say how AES-256-CMAC takes the 48-byte z as its key (notes/assumptions/14.md). -/
opaque kekOf (ka : BitVec 768) (epoch purpose : Nat) : BitVec 256

/-- Treiviat's public verification key for the signed image (spec/12_security.md R436). -/
opaque imageKey : BitVec 768

/-- The NAND identity bytes of a qualification entry (spec/07_media_management.md R219, R220), which the spec does not print (notes/assumptions/13.md). -/
opaque nandIdentity : Nat → BitVec 64

/-- The retry offsets of a profile's table and offset set, as 15 bytes (spec/11_integrity_and_memory.md R390); the qualification entries hold them and the spec does not
print them. The last argument is the sense: 0 the set, 1 and 2 one soft step either way. -/
opaque retryOfs : Nat → Nat → Nat → Nat → BitVec 120

/-- The raw page bytes of a plane that holds the given payloads: encrypted under the plot's key and encoded (R386; notes/assumptions/15.md). Arguments: the key's seed, die,
bed, page, plane, the four payloads. -/
opaque rawPage : BitVec 256 → Nat → Nat → Nat → Nat → List (BitVec 33280) → List (BitVec 8)

/-- The RC oscillator's trim codes at the factory table's 16 points from -40 to 125 degrees C (spec/13_power_and_clocks.md R471), which the spec does not print
(notes/assumptions/26.md). -/
opaque rcTrimPoint : Fin 16 → BitVec 8

/-- The factory offset of each ageing sentinel, 0.001 % units, held in fuses (spec/14_thermal_and_health.md R491). -/
opaque ageOffset : Nat → BitVec 32

/-- The time (ns) that a condition outside a command contributed to its service, by command number and CB_REASON (spec/06_placement_and_almanac.md R208, R216): how the time of a lower
level, of a level 2 program or of rebuild slots is measured is not stated (notes/assumptions/63.md). -/
opaque causeNs : Nat → Nat → BitVec 32

/-- How a record shows a projected time to trip without a bound (spec/14_thermal_and_health.md R481, R505; notes/assumptions/27.md). -/
opaque unboundedMs : BitVec 32

/-- The RSEQ that EV_CLEAR shows of the last record erased where the ring held none (spec/15_sillage_and_debug.md R505, R509; notes/assumptions/29.md). -/
opaque noRseq : BitVec 32

/-- The temperature byte the telemetry slot shows of a link group both of whose sensors have failed (spec/03_command_rings.md R119, R476): only that it counts as the hottest is
said (notes/assumptions/31.md). -/
opaque failedZone : Nat → BitVec 8

/-- What the endpoint answers of the versions it supports and the commands it serves, where the spec names only the standards (spec/15_sillage_and_debug.md R513;
notes/assumptions/32.md): MCTP versions by message type, the vendor command set, PLDM versions and command masks by type. -/
opaque mctpVersion : Nat → BitVec 32
opaque vendorSet : BitVec 16
opaque pldmVersion : Nat → BitVec 32
opaque pldmCommands : Nat → BitVec 256

/-- Treiviat's JEDEC manufacturer identity in the IDCODEs (spec/15_sillage_and_debug.md R520). -/
opaque jedecId : BitVec 11

/-- Where the n-th choice of an entry to evict from a full cache begins to look (spec/07_media_management.md R232, spec/12_security.md R411): how a cache chooses is not stated
(notes/assumptions/71.md). -/
opaque victim : Nat → Nat

/-- How many IDLE blocks a Herarn sender placed before its n-th run of other blocks on a link (spec/10_herarn_links.md R333, R336): a matter of time, which the model does not
count (notes/assumptions/69.md). -/
opaque idleBlocks : Nat → Nat → Nat

end Sys2Proof.Config
end

