-- ==== Sys2Proof/Machine/Layouts.lean ====
section
/-!
DEFINITION. The bytes of what the device keeps in HBM, in the journal and in the key region of the boot flash: bed, zone and row entries (spec/07_media_management.md R227, R229, R230), map entries of
a region (R231), journal records and pages (spec/09_power_loss_and_startup.md R313, R314, R316), key-store entries and wrapped keys (spec/12_security.md R410, R411, R416). The state holds each of
these once, as named fields; these are their layouts.
-/

namespace Sys2Proof.Machine

/-- A list filled with zeros, or cut, to n bytes. -/
def fitTo (n : Nat) (l : List Byte) : List Byte := (l ++ List.replicate (n - l.length) 0#8).take n

/-! ### Map entries -/

/-- Bed states (R225). -/
def BState.code : BState → Nat
  | .erased => 1 | .released => 2 | .isOpen => 3 | .isSealed => 4 | .suspect => 5 | .retired => 6 | .system => 7

/-- Row states (R230); 0 is a free row id, which has no entry here. -/
def RState.code : RState → Nat
  | .building => 1 | .isOpen => 2 | .isSealed => 3 | .weeding => 4

/-- A position field: die, then bed index (R230). -/
def posField (p : Nat × Nat) : Nat := p.1 % 4096 + 4096 * (p.2 % 4096)

/-- A bed entry (R227). worn: the die is worn out (R257). -/
def bedBytes (worn : Bool) (b : Bed) : List Byte :=
  fitTo 32 (leBytes 1 (b.st.code + 16 * b2n b.factory + 32 * b2n b.slc + 64 * b2n b.xpl + 128 * b2n worn) ++ leBytes 2 b.pe ++ leBytes 3 b.row ++
    leBytes 1 (b.pos % 32 + 32 * (b.skips.length % 4)) ++ leBytes 1 (b.heat % 4 + 4 * (b.life % 8)) ++ leBytes 4 (min b.senses (2 ^ 32 - 1)) ++ leBytes 4 b.stamp ++ leBytes 2 b.ew ++
    leBytes 2 (b.skips.getD 0 0) ++ leBytes 2 (b.skips.getD 1 0) ++ leBytes 2 b.mean)

/-- A zone-map entry (R229). The row id of a zone that holds no row share reads 0 (DESIGN CHOICE, notes/assumptions/70.md). -/
def zoneBytes (z : Zone) : List Byte :=
  fitTo 16 (leBytes 1 (z.st.code + 16 * b2n z.lost) ++ leBytes 3 (z.row.getD 0) ++ leBytes 1 (z.slot % 8) ++ [0, 0, 0] ++ leBytes 4 z.wp ++ leBytes 4 z.commit)

/-- The pages of 4,096 zones that the zone map has allocated: those in which some zone is not Empty (R229). -/
def zonePages (m : Maps) : List (Nat × Nat) := (m.zones.map fun e => (e.1 / 2 ^ 32, e.1 % 2 ^ 32 / 4096)).eraseDups

/-- A row-table entry (R230). -/
def rowBytes (r : Row) : List Byte :=
  fitTo 32 (leBytes 1 (r.st.code + 8 * b2n r.durable + 16 * (r.kind % 4)) ++ leBytes 1 (r.k % 32) ++ leBytes 1 (r.mc % 4 + 4 * (r.life % 8) + 32 * b2n r.slc) ++ leBytes 1 r.profile ++
    leBytes 2 (r.plot % 16384) ++ leBytes 2 (match r.bset with | some b => b % 2048 + 2 ^ 15 | none => 0) ++ leBytes 4 r.valid ++ leBytes 1 r.claimed ++ [0, 0, 0] ++
    leBytes 4 r.sealHour ++ leBytes 4 r.colo ++ leBytes 2 r.stream) ++
  fitTo 96 (r.pos.flatMap fun p => leBytes 3 (posField p))

/-- An entry of the conventional page map, 36 bits: region-row slot and offset; all ones where nothing was written (R231). -/
def cmapField (e : Option Nat) : Nat := match e with | some e => e % 2 ^ 36 | none => 2 ^ 36 - 1
/-- Eight entries packed into 36 bytes, the first lowest (R231). -/
def cmapGroup (es : List (Option Nat)) : List Byte := leBytes 36 ((es.zipIdx.map fun e => cmapField e.1 * 2 ^ (36 * e.2)).sum)

/-- A grant block (R91). -/
def grantBytes (g : Grants) : List Byte :=
  fitTo 32 (leBytes 4 g.quota ++ leBytes 2 g.plots ++ leBytes 2 g.openZones ++ leBytes 4 g.sqs ++ leBytes 4 g.cqs ++ leBytes 4 g.conns ++ leBytes 4 g.active ++ leBytes 2 g.region)

/-! ### Journal records (R313, R314) -/

/-- A record of 32 bytes: SEQ, TYPE, GROUP (part, last part), PAYLOAD, CRC (R313). -/
def recBlock (seq ty part last : Nat) (pay : List Byte) : List Byte :=
  let b := leBytes 6 seq ++ leBytes 1 ty ++ leBytes 1 (part + 16 * last) ++ fitTo 20 pay
  b ++ leBytes 4 (crc32c b)

/-- The parts of a payload that follows a common head, n bytes to a part. -/
def partsOf (head : List Byte) (ps : List (List Byte)) : List (List Byte) := ps.map fun p => head ++ p

/-- A bitmap of lost blocks, from bit a on, n bytes (R314). -/
def lostBits (bs : List Nat) (a n : Nat) : List Byte := leBytes n ((bs.filter fun b => decide (a ≤ b) && decide (b < a + 8 * n)).map fun b => 2 ^ (b - a)).sum

/-- TYPE of a record (R314). -/
def JRec.code : JRec → Nat
  | .zone _ _ => 0x01 | .stripe _ _ _ _ => 0x02 | .cmap _ _ => 0x03 | .row _ _ => 0x04 | .pos _ _ _ _ _ => 0x05 | .bed _ _ => 0x06 | .move _ _ _ _ _ _ => 0x07
  | .lost _ _ => 0x08 | .fix _ _ => 0x09 | .plot _ _ _ => 0x0A | .tenant _ _ _ => 0x0B | .graft _ _ _ => 0x0C | .ckpt _ _ _ => 0x0D | .spill _ _ _ => 0x0E
  | .key _ _ => 0x0F | .mark _ _ _ => 0x10 | .rslot _ _ => 0x11 | .dieState _ _ => 0x12

/-- PAYLOAD of each part of a record (R314). worn: which dies are worn out, for bed entries. -/
def JRec.pays (worn : Nat → Bool) : JRec → List (List Byte)
  | .zone k z => [leBytes 2 (k / 2 ^ 32) ++ leBytes 4 k ++ (match z with
      | some z => leBytes 1 z.st.code ++ leBytes 1 z.slot ++ leBytes 3 (z.row.getD 0) ++ [0] ++ leBytes 4 z.wp
      | none => leBytes 1 ZState.empty.code)]
  | .stripe rid slot s rank => [leBytes 3 rid ++ leBytes 1 slot ++ leBytes 4 s ++ leBytes 4 rank]
  | .cmap k e => [leBytes 2 (k / 2 ^ 48) ++ leBytes 6 k ++ leBytes 2 0 ++ leBytes 5 (cmapField e)]
  | .row i r => let b := r.elim [] rowBytes
      partsOf (leBytes 3 i ++ [0]) [fitTo 16 b, fitTo 16 (b.drop 16)]
  | .pos rid i die bd old => [leBytes 3 rid ++ leBytes 1 i ++ leBytes 3 (posField (die, bd)) ++ [0] ++ leBytes 3 (posField old)]
  | .bed k b => let e := bedBytes (worn (k / 4096)) b
      [leBytes 2 (k / 4096) ++ leBytes 2 (k % 4096) ++ slice e 0 7 ++ slice e 18 4 ++ slice e 12 4]
  | .move pl zn rid slot old kind => [leBytes 2 pl ++ leBytes 4 zn ++ leBytes 3 rid ++ leBytes 1 slot ++ leBytes 3 old ++ leBytes 1 kind]
  | .lost k bs => partsOf (leBytes 3 (k / 65536) ++ [0]) [leBytes 4 (k % 65536) ++ lostBits bs 0 12, lostBits bs 96 16, lostBits bs 224 16, lostBits bs 352 16]
  | .fix k cws => [leBytes 2 (k / 4096) ++ leBytes 2 (k % 4096) ++ (match cws.getLast? with
      | some c => leBytes 4 (c / 16) ++ leBytes 1 (c % 16)
      | none => [0, 0, 0, 0, 0, 1])]
  | .plot i p op => [leBytes 2 i ++ (match p with
      | some p => leBytes 2 p.tenant ++ leBytes 1 op ++ (if op = 3 then [0] ++ leBytes 8 p.hints.toNat
          else leBytes 1 (b2n p.durable) ++ leBytes 1 p.k ++ leBytes 1 p.mc ++ leBytes 1 p.profile ++ leBytes 1 (b2n p.region) ++ leBytes 4 p.count)
      | none => leBytes 2 0 ++ leBytes 1 op)]
  | .tenant i t op => match t with
      | some t => if op ≤ 1 then partsOf (leBytes 2 i ++ leBytes 1 op ++ [0]) [(grantBytes t.grants).take 16, (grantBytes t.grants).drop 16]
          else [leBytes 2 i ++ leBytes 1 op ++ [0] ++ (match t.accord with
            | some a => leBytes 4 (a.lat % 8 + 8 * b2n a.durable + 2 ^ 16 * a.share) ++ leBytes 4 a.bw
            | none => leBytes 4 (2 ^ 31))]
      | none => [leBytes 2 i ++ leBytes 1 op]
  | .graft p g st => [leBytes 2 p ++ leBytes 1 st ++ (match g with | some g => leBytes 1 (b2n g.durable) ++ leBytes 1 g.k ++ leBytes 1 g.mc | none => [])]
  | .ckpt set num e => [leBytes 1 set ++ leBytes 1 (b2n e) ++ leBytes 6 num]
  | .spill k r s => [leBytes 3 (k / 65536) ++ leBytes 1 (b2n r.isNone) ++ leBytes 4 (k % 65536) ++ leBytes 2 (r.getD 0) ++ leBytes 4 s]
  | .key pl inst => [leBytes 2 pl ++ leBytes 1 (b2n (!inst))]
  | .mark kind cycle image => [leBytes 1 kind ++ leBytes 3 cycle ++ leBytes 1 image]
  | .rslot k r => [leBytes 2 (k / 16384) ++ leBytes 2 (k % 16384) ++ leBytes 3 (r.getD 0) ++ leBytes 1 (b2n r.isNone)]
  | .dieState die st => [leBytes 2 die ++ leBytes 1 st]

/-- The 32-byte records of a record formed with a sequence number: one for each part, with consecutive numbers (R313-R315). -/
def JRec.bytes (worn : Nat → Bool) (seq : Nat) (r : JRec) : List (List Byte) :=
  let ps := r.pays worn
  ps.zipIdx.map fun e => recBlock (seq + e.2) r.code e.2 (ps.length - 1) e.1

/-- Records in order, as bytes. -/
def recsBytes (worn : Nat → Bool) (l : List (Nat × JRec)) : List Byte := (l.flatMap fun e => e.2.bytes worn e.1).flatten

/-- A JR_PAD record. Its sequence number is not stated: 0 (DESIGN CHOICE, notes/assumptions/70.md). -/
def padRec : List Byte := recBlock 0 0x00 0 0 []

/-- The 16 KiB pages that hold some records: 512 to a page, the last padded with JR_PAD (R316). -/
def jnlPages (worn : Nat → Bool) (l : List (Nat × JRec)) : List (List (List Byte)) :=
  let rs := l.flatMap fun e => e.2.bytes worn e.1
  (List.range (cdiv rs.length 512)).map fun i => let p := (rs.drop (512 * i)).take 512; p ++ List.replicate (512 - p.length) padRec

/-! ### Keys (R410, R411, R416) -/

/-- The bytes of a 256-bit key, first most significant; the key of a list of bytes. -/
def keyOfBytes (l : List Byte) : BitVec 256 := BitVec.ofNat 256 (beNat l)

/-- The device storage key (R410). -/
def dsk (s : Sec) : BitVec 256 := keyOfBytes (kdf Config.deviceSecret (ascii "Z9 DSK") (leBytes 1 s.epoch) 256)
/-- The system key, for the XTS of journal, checkpoint and rescue system data (R410). -/
def kSys (s : Sec) : List Byte := kdf (dsk s) (ascii "Z9 SYS XTS") [] 512
/-- The session key (R410). -/
def ssk (s : Sec) : BitVec 256 := keyOfBytes (kdf (dsk s) (ascii "Z9 SSK") (leBytes 6 s.sskSeq) 256)

/-- A key as HBM and SRAM hold it: wrapped under SSK (R411). -/
def sskWrapped (s : Sec) (k : BitVec 256) : List Byte := keyWrap (ssk s) (beBytes 32 k.toNat)

/-- A key-store entry of the boot flash, the same in both copies: valid, destroyed, or empty (R416, R417). -/
def storeEntry (s : Sec) (plot : Nat) : List Byte := match tget s.store plot with
  | some seed =>
    let b := leBytes 2 plot ++ [0x5A] ++ leBytes 1 s.epoch ++ keyWrap (dsk s) (beBytes 32 seed.toNat) ++ List.replicate 80 0xFF#8
    b ++ leBytes 4 (crc32c b)
  | none => List.replicate 128 (if s.wiped.contains plot then 0x00#8 else 0xFF#8)

end Sys2Proof.Machine
end

