-- ==== Sys2Proof/Machine/Regs.lean ====
section
/-!
DEFINITION. The registers that hold what software writes: where each lies, which bits are writable, which only until the setup lock, and
what each holds at reset (spec/16_register_map.md, R14, R15, R530, R533). A register not listed holds nothing written: the meanings compute it.
-/

namespace Sys2Proof.Machine

/-- A stored register, or n of them a stride apart: writable bits, bits writable until the lock, reset value. -/
structure RegSpec where
  base : Nat
  n : Nat
  stride : Nat
  rw : Nat
  rwl : Nat
  reset : Nat
  deriving DecidableEq, Repr

/-- One register that stands alone. -/
def reg1 (base rw rwl reset : Nat) : RegSpec := ⟨base, 1, 4, rw, rwl, reset⟩

/-- QM and SMT. -/
def regSpecsA : List RegSpec := [
  reg1 0x1000 0 0xFFFFF000 0, reg1 0x1004 0 0xFFFFFFFF 0, reg1 0x1008 0 0xFFFFF000 0, reg1 0x100C 0 0xFFFFFFFF 0,
  reg1 0x1010 0 0xF0F 0x404, reg1 0x1014 0 0x07FF0001 0, reg1 0x1020 0 0x3FFF 0x400, reg1 0x1030 0x3FFF 0 0x64,
  reg1 0x20000 0 0xFFFF 0x1C16, reg1 0x20004 0 0xFF1FF3FF 0x0A10C010, reg1 0x20008 0 0x00FF03FF 0x00320040,
  reg1 0x2000C 0 0x00FFFFFF 0x000A03E8, ⟨0x20020, 8, 4, 0, 0x13, 0x10⟩, reg1 0x20120 0x3FFFF 0 0,
  ⟨0x21000, 64, 0x40, 0, 0xFFFFFFFF, 0⟩, ⟨0x21004, 64, 0x40, 0, 0xFFFF, 0⟩, ⟨0x21008, 64, 0x40, 0, 0xFFFFFFFF, 0⟩,
  ⟨0x21010, 64, 0x40, 0, 0xFFFFFFFF, 0⟩, ⟨0x21014, 64, 0x40, 0, 0xFFFFFFFF, 0⟩, ⟨0x21018, 64, 0x40, 0, 0xFFFFFFFF, 0⟩,
  ⟨0x2101C, 64, 0x40, 0, 0xFFFFFFFF, 0⟩, ⟨0x21020, 64, 0x40, 0, 0x3FFFFFFF, 0x05DC0000⟩]

/-- TRL, ALM, MED, ROW, JNL, HL, HBM, ECC, LDC. -/
def regSpecsB : List RegSpec := [
  reg1 0x30000 0 0xFFFFF 0x24244, reg1 0x30004 0 0xFF 0x5F, reg1 0x30008 0 0xFFFF 0x64, reg1 0x30100 0 0x000F03FF 0x000600FA,
  reg1 0x30104 0 0x1FF 0x114, reg1 0x30108 0 0x7F07 0x1901, reg1 0x3010C 0 0x7 2, reg1 0x30118 0xFF 0 0,
  reg1 0x40000 0xFF 0 0, reg1 0x40040 0 0xFF 0x20, reg1 0x40044 0 0xFF 0x20, reg1 0x4004C 0 0x7F7F03FF 0x3C550304,
  reg1 0x40050 0 0xFF 0xA, reg1 0x40200 0 0x3F3F 0xA10, reg1 0x40204 0 0x17F 0x107, reg1 0x40208 0 0x007FFFFF 0x004B03E8,
  reg1 0x40240 0x3FFF 0 0, reg1 0x40400 0 0x003F000F 0x00050002, reg1 0x58000 0 0xFFFFFFFF 0x3C100032,
  reg1 0x58004 0 0x1FFFF 0x100C8, reg1 0x60004 0x7FFF 0 0x1000, reg1 0x61040 0xFF07 0 0, reg1 0x61044 0xFFFFFFFF 0 0,
  reg1 0x62000 0 0x00FF011F 0x00320108]

/-- SEC, PWR, THM, AGE, CLO and the power-die window. -/
def regSpecsC : List RegSpec := [
  ⟨0x80100, 24, 4, 0xFFFFFFFF, 0, 0⟩, ⟨0x80180, 24, 4, 0xFFFFFFFF, 0, 0⟩, ⟨0x80220, 24, 4, 0xFFFFFFFF, 0, 0⟩,
  reg1 0x90004 7 0 7, reg1 0x90008 3 0 0, reg1 0x9000C 0 0x1FFF 0x1064, reg1 0x90010 0 0xFFFFFF 0x323232,
  reg1 0x90014 0 0x3FF 0, reg1 0xA0004 0x3F 0 0, reg1 0xA0010 0 0xFFFF 0x7369645F, reg1 0xA0014 0 0xFFFFFFFF 0x191E0A0F,
  reg1 0xA0020 0 0xFF01 0x201, reg1 0xA002C 0 0xFFFF 0x33C, reg1 0xA1004 0x1F 0 0, reg1 0xA100C 0xF7 0 0,
  reg1 0xA1024 0 0x7F 0x50, reg1 0xB0000 1 0 0, ⟨0xB0010, 16, 4, 0x10FFF, 0, 0⟩, reg1 0xC0000 0 0xFFF 0,
  reg1 0xC0004 0 0xFFFFF 0, reg1 0xC0008 0 0xFFFFFFFF 0,
  reg1 0x100004 0 0xFFFFFF 0x142328, reg1 0x10000C 0 0xFFFF 0x3E8, reg1 0x101000 0 0xFFFFFFFF 0x18140000,
  reg1 0x102000 0xF 0 0, ⟨0x103040, 24, 4, 0xFFFFFFFF, 0, 0⟩, ⟨0x104080, 4, 4, 0x10FFF, 0, 0⟩]

/-- Every stored register. -/
def regSpecs : List RegSpec := regSpecsA ++ regSpecsB ++ regSpecsC

/-- Does an offset name one of a group's registers? -/
def RegSpec.covers (r : RegSpec) (off : Nat) : Bool :=
  decide (r.base ≤ off) && decide ((off - r.base) % r.stride = 0) && decide ((off - r.base) / r.stride < r.n)

/-- The stored register at an offset. -/
def specAt (off : Nat) : Option RegSpec := regSpecs.find? fun r => r.covers off

/-- The value at reset of the register at an offset. -/
def resetAt (off : Nat) : Word := match specAt off with
  | some r => BitVec.ofNat 32 r.reset
  | none => 0

/-- What a stored register holds. -/
def rd (d : Dev) (off : Nat) : Nat := (tgetD d.rf.regs off (resetAt off)).toNat

/-- Store a register whole. -/
def wr (off v : Nat) (d : Dev) : Dev :=
  { d with rf := { d.rf with regs := tsetD d.rf.regs off (BitVec.ofNat 32 v) (resetAt off) } }

/-- The bits of a register software may write now: RWL bits only until the lock (R15, R530). -/
def wmask (d : Dev) (off : Nat) : Nat := match specAt off with
  | some r => if d.rf.lock then r.rw else r.rw ||| r.rwl
  | none => 0

/-- A software write: the writable bits take the value written, the others keep theirs (R15, R530). -/
def wrMasked (off v : Nat) (d : Dev) : Dev :=
  wr off (((rd d off) &&& (0xFFFFFFFF ^^^ wmask d off)) ||| (v &&& wmask d off)) d

/-! ### Which units there are (R2, R7, R533) -/

/-- CAP_UNITS and CAP_LIMITS (R7). -/
def capUnits (d : Dev) : Nat := match d.id.variant with
  | .z9A => 0x00001FFF | .z9E => 0x00011CFF | .z9P => 0x00021B00 | .z9H => 0x0003070F
def capLimits (d : Dev) : Nat := match d.id.variant with
  | .z9A => 0x0250EC40 | .z9E => 0x0250EC40 | .z9P => 0x0010EC40 | .z9H => 0x0250EC20

/-- Presence of the units named by CAP_UNITS. -/
def hasEth (d : Dev) (p : Nat) : Bool := decide (p < 8) && bit (capUnits d) p
def hasPcx (d : Dev) (p : Nat) : Bool := decide (p < 2) && bit (capUnits d) (8 + p)
def hasSmt (d : Dev) : Bool := bit (capUnits d) 10
def hasQ (d : Dev) : Bool := bit (capUnits d) 11
def linkGroups (d : Dev) : Nat := fld (capLimits d) 0 8
def connLimit (d : Dev) : Nat := if fld (capLimits d) 21 5 = 0 then 0 else 2 ^ fld (capLimits d) 21 5

/-- The owner: the management endpoint by strap, and always in Z9-E (R13, R35). -/
def ownerMgt (d : Dev) : Bool := d.id.ownerMgt || decide (d.id.variant = .z9E)

/-- Does an interface exist: its port present, its sub-port within the split (R8)? -/
def ifPresent (d : Dev) (i : Nat) : Bool := decide (i < 64) && hasEth d (i / 8) && decide (i % 8 < 2 ^ fld (rd d (0x20020 + 4 * (i / 8))) 0 2)

/-- Does an offset belong to an absent unit (R8, R533): SMT without its engine, the mode of a port and the block of an interface that do not exist, and what Z9-H lacks? -/
def absentAt (d : Dev) (off : Nat) : Bool :=
  (decide (0x20000 ≤ off) && decide (off < 0x22000) && !hasSmt d) ||
  (decide (0x20020 ≤ off) && decide (off < 0x20040) && !hasEth d ((off - 0x20020) / 4)) ||
  (decide (0x21000 ≤ off) && decide (off < 0x22000) && !ifPresent d ((off - 0x21000) / 64)) ||
  (decide (d.id.variant = .z9H) &&
    ((decide (0x20030 ≤ off) && decide (off < 0x20040)) || (decide (0x21800 ≤ off) && decide (off < 0x22000)) ||
     (decide (0x54000 ≤ off) && decide (off < 0x58000)) || (decide (0x58060 ≤ off) && decide (off < 0x58080)) ||
     decide (off = 0x40214) || decide (off = 0x90044)))

/-- Bits of PWR_PORT_HOLD that belong to absent ports read 0 and ignore writes (R533). -/
def portHoldMask (d : Dev) : Nat := match d.id.variant with
  | .z9A => 0x3FF | .z9E => 0x0FF | .z9P => 0x300 | .z9H => 0x30F

/-- Ports held off (R450): the hold bits of ports that are present; PCIe port 0 cannot be held while the owner is on PCIe. -/
def heldPorts (d : Dev) : Nat :=
  let v := rd d 0x90014 &&& portHoldMask d
  if ownerMgt d then v else v &&& (0x3FF ^^^ 0x100)
def ethHeld (d : Dev) (n : Nat) : Bool := bit (heldPorts d) n
def pcxHeld (d : Dev) (n : Nat) : Bool := bit (heldPorts d) (8 + n)

/-- Is a PCIe port there and on: what it holds reads 0 and ignores writes otherwise (R8, R23)? -/
def pcxOn (d : Dev) (port : Nat) : Bool := hasPcx d port && !pcxHeld d port

/-- Does an offset lie in the power-die window? -/
def inPowerDie (off : Nat) : Bool := decide (0x100000 ≤ off) && decide (off < 0x110000)

/-- The service cipher unit's registers and buffer: what the spec gives firmware to reach as agents 1 and 2 (R425). -/
def inScu (off : Nat) : Bool := (decide (0x81000 ≤ off) && decide (off < 0x82000)) || (decide (0x84000 ≤ off) && decide (off < 0x88000))

/-- Which path may write which register: BAR0 of the owner function the whole map, any other physical function nothing (R172); the management
endpoint the power-die window, and main-die offsets when it is the owner (R514); firmware, of what the model gives it, the service cipher unit. -/
def mayReach (d : Dev) (p : Path) (off : Nat) : Bool := match p with
  | .otherPf | .cfg _ | .bar2 _ | .bar4 _ | .sriov _ => false
  | .bar0 => !ownerMgt d
  | .mgmt => inPowerDie off || ownerMgt d
  | .core _ => inScu off

/-- Can a register be reached now: the power die runs, and for a main-die offset the always-on domain is released and the BAR0 path or the
keeper link reaches it, or firmware beside it (R23, R425, R527, R529). BAR0 needs PCIe port 0, and reaches the power-die window over the keeper link (R442). -/
def reachable (d : Dev) (p : Path) (off : Nat) : Bool :=
  d.kpr.running && !absentAt d off && mayReach d p off &&
  (if inPowerDie off then decide (p = .mgmt) || (d.pwr.aon && d.pwr.klinkUp)
   else d.pwr.aon && (decide (p = .bar0) || p.isCore || d.pwr.klinkUp)) && (decide (p ≠ .bar0) || pcxOn d 0)

end Sys2Proof.Machine
end

