-- ==== Sys2Proof/Machine/Profiles.lean ====
section
/-!
DEFINITION. The media profiles (spec/07_media_management.md R219, R224), the figures of a row that follow from them (R42, R43, R260), and the dirty bytes (R290, R291).
-/

namespace Sys2Proof.Machine

/-! ### Media profiles (R219, R224) -/

/-- A media profile: the fields of R219 that a rule uses; its read-retry tables are Config.retryOfs at its index. -/
structure Profile where
  ident : BitVec 64
  bpc : Nat
  pageKib : Nat
  planes : Nat
  pages : Nat
  spare : Nat
  beds : Nat
  capMib : Nat
  slcMib : Nat
  nominalGib : Nat
  trTyp : Nat
  trMax : Nat
  prog : Nat
  slcProg : Nat
  erase : Nat
  sus : Nat
  mrt : Nat
  code : Nat
  ew : Nat
  reads : Nat
  retain : Nat
  pe : Nat
  retire : Nat
  bound : Nat
  pageInc : Nat
  deriving DecidableEq, Repr

/-- The qualification entries of the image: the two reference profiles (R224, notes/assumptions/13.md). -/
def profileOf : Nat → Option Profile
  | 1 => some {
      ident := Config.nandIdentity 1
      bpc := 3, pageKib := 16, planes := 4, pages := 6144, spare := 2, beds := 680, capMib := 384, slcMib := 128, nominalGib := 256, trTyp := 55,
      trMax := 90, prog := 1800, slcProg := 180, erase := 5000, sus := 40, mrt := 100, code := 1, ew := 60, reads := 100000, retain := 8760, pe := 3000,
      retire := 20, bound := 320, pageInc := 102 }
  | 2 => some {
      ident := Config.nandIdentity 2
      bpc := 4, pageKib := 16, planes := 4, pages := 12288, spare := 2, beds := 340, capMib := 768, slcMib := 192, nominalGib := 256, trTyp := 120,
      trMax := 190, prog := 4300, slcProg := 200, erase := 12000, sus := 78, mrt := 150, code := 2, ew := 80, reads := 30000, retain := 4380, pe := 1000,
      retire := 10, bound := 560, pageInc := 202 }
  | _ => none

/-- Blocks of a page, of a member's share of a stripe, and of a bed. -/
def Profile.w (p : Profile) : Nat := p.pageKib / 4
def Profile.share (p : Profile) : Nat := p.planes * p.w
def Profile.bedBlocks (p : Profile) : Nat := p.pages * p.share

/-- Zones per row: 1, 2, 4 or 8 (R42). -/
def slotsOf (mc : Nat) : Nat := 2 ^ (mc % 4)

/-- Zone capacity in blocks (R43). -/
def zoneCap (p : Profile) (k mc : Nat) : Nat := k * p.bedBlocks / slotsOf mc

/-- The least power of two at or above a number (R43). -/
def pow2Up (n : Nat) : Nat := if n ≤ 1 then 1 else 2 ^ (Nat.log2 (n - 1) + 1)

/-- Members of a row (R260). -/
def rowSize (durable : Bool) (k : Nat) : Nat := k + (if durable then 2 else 1)

/-- Blocks of a GiB. -/
def gibBlocks : Nat := 262144

/-- A profile that no qualification entry gives. -/
def noProfile : Profile := {
  ident := 0
  bpc := 1, pageKib := 0, planes := 0, pages := 0, spare := 0, beds := 0, capMib := 0, slcMib := 0, nominalGib := 0, trTyp := 0, trMax := 0, prog := 0,
  slcProg := 0, erase := 0, sus := 0, mrt := 0, code := 1, ew := 0, reads := 0, retain := 0, pe := 1, retire := 0, bound := 0, pageInc := 0 }
def theProfile (i : Nat) : Profile := (profileOf i).getD noProfile

def rowAt (d : Dev) (row : Nat) : Option Row := tget d.maps.rows row

/-! ### Dirty bytes (R290, R291) -/

/-- Bytes of the running parity of incomplete stripes: P, and Q of a Durable row, of every column (R269, R290; notes/assumptions/8.md). -/
def parityBytes (d : Dev) : Nat := sumL ((d.med.stripes.filter fun e => !e.2.spilled).map fun e => match rowAt d (e.1 / 65536) with
  | some r => (theProfile r.profile).share * (if r.durable then 2 else 1) * 4160
  | none => 0)
/-- Bytes of blocks neither programmed nor spilled, up to a budget position. -/
def blockBytes (d : Dev) (upto : Nat) : Nat := 4160 * tcount d.clo.buf fun i b => decide (i < upto) && !b.spilled
def dirtyBytes (d : Dev) : Nat := blockBytes d d.clo.nextPos + parityBytes d

end Sys2Proof.Machine
end

