-- ==== Sys2Proof/Machine/Ops.lean ====
section
/-!
DEFINITION. The named operations that more than one meaning uses: time, outputs, event records, random and free values, the journal, commands
and their ends, range locks.
-/

namespace Sys2Proof.Machine

/-- Apply an effect to the part; the queue stays. -/
def State.on (f : Dev → Dev) (s : State) : Host.Outcome State Fault Refusal := .next { s with dev := f s.dev }

/-- Apply an effect when the event occurs; a command that names nothing has no effect (notes/assumptions/4.md). -/
def onlyIf (c : Bool) (f : Dev → Dev) (d : Dev) : Dev := if c then f d else d

/-- Apply an effect with what was found; nothing where nothing was found. -/
def withSome {α : Type} (o : Option α) (f : α → Dev → Dev) (d : Dev) : Dev := match o with
  | some a => f a d
  | none => d

/-- Apply an effect for each element of a list, in order. -/
def forAll {α : Type} (l : List α) (f : α → Dev → Dev) (d : Dev) : Dev := l.foldl (fun d a => f a d) d

/-! ### Time, outputs, records -/

/-- Is nothing dirty (R290)? -/
def noDirty (d : Dev) : Bool := (d.clo.buf.all fun e => e.2.spilled) && d.med.stripes.all fun e => e.2.spilled

/-- Is the device idle (R461): no command outstanding or waiting to be fetched, no die operation, no background work due, nothing dirty? Until ready it is not. -/
def idle (d : Dev) : Bool :=
  d.clo.ready && decide (d.qm.cmds = []) && !(d.qm.sqs.any fun e => decide (e.2.head ≠ e.2.tail) && !e.2.halted && !e.2.fault) &&
  decide (d.alm.ops = []) && decide (d.alm.jobs = []) && noDirty d && d.med.weedRow.isNone && decide (d.med.copies = []) && decide (d.med.xpls = []) &&
  (d.med.rebuilds.all fun e => d.med.noGroup.contains (e.1 / 32)) && d.jnl.writing.isNone && !d.thm.stopping && !d.sec.lowering

/-- The ceiling (R456): the lowest of PWR_PL_MAX, the thermal ceiling and the electrical ceiling. -/
def plMax (d : Dev) : Nat := fld (rd d 0x90004) 0 3
def ceilNow (d : Dev) : Nat := min (plMax d) (min d.thm.ceil d.thm.elec)

/-- Does the condition of a CB_REASON outside the command stand (R99, R208, R216): 1 a ceiling below PL6 at 1.6 GHz or a thermal step-down, 2 an electrical or sprint ceiling, 3 level 2
programs (more dirty than the ceiling) or an orderly stop, 4 rebuild or transplant slots? -/
def causeStands (d : Dev) : Nat → Bool
  | 1 => decide (d.thm.ceil < 7) || decide (ceilNow d < 6) || (decide (ceilNow d = 6) && !d.pwr.pl6Fast)
  | 2 => decide (d.thm.elec < 7)
  | 3 => decide (d.clo.ceil < dirtyBytes d) || d.thm.stopping
  | _ => (d.med.rebuilds.any fun e => e.2.running) || d.med.xpls.any fun e => e.2.running && e.2.hard

/-- The latest time told (notes/assumptions/2.md), when the part was last not idle, and the conditions that stood until now. -/
def tick (t : Nat) (d : Dev) : Dev :=
  { d with
    io := { d.io with now := max d.io.now t, stood := ([1, 2, 3, 4].filter (causeStands d)).foldl (fun m r => tset m r (max d.io.now t)) d.io.stood }
    pwr := { d.pwr with activeAt := if idle d then d.pwr.activeAt else max d.io.now t } }

/-- Operating hours, and the seconds within the hour, now (R499). -/
def opHours (d : Dev) : Nat := d.sil.hourBase + (d.io.now - d.sil.hourFrom) / 3600000000000
def opSecs (d : Dev) : Nat := (d.io.now - d.sil.hourFrom) / 1000000000 % 3600

/-- Send something out (notes/assumptions/5.md). -/
def send (o : Out) (d : Dev) : Dev := { d with io := { d.io with out := d.io.out ++ [o] } }

/-- Raise an event record on the main die (R500). -/
def raise (ty : EvType) (ps : List Nat) (d : Dev) : Dev :=
  { d with sil := { d.sil with inboxMain := d.sil.inboxMain ++ [⟨ty, ps⟩] } }

/-- Raise an event record on the power die (R501). -/
def raiseP (ty : EvType) (ps : List Nat) (d : Dev) : Dev :=
  { d with sil := { d.sil with inbox := d.sil.inbox ++ [(⟨ty, ps⟩, false)] } }

/-- The next random number and the part after the draw (notes/assumptions/7.md). -/
def drawn (d : Dev) (i : Nat) : BitVec 512 := Config.random (d.io.draws + i)
def draw (n : Nat) (d : Dev) : Dev := { d with io := { d.io with draws := d.io.draws + n } }

/-! ### State of the whole part -/

/-- Does the main die run: always-on released, rails up or a flush still running (KPR_STATE 2 or 3). -/
def mainUp (d : Dev) : Bool := d.pwr.aon && (decide (d.kpr.state = 2) || decide (d.kpr.state = 3))

/-- Has ingress stopped: power-fail or a flush (R101, R305), or a clean shutdown that fetches nothing more (R320). -/
def stopped (d : Dev) : Bool := d.kpr.pf || d.kpr.flush.isSome || d.kpr.shutdown || d.sec.lowering

/-- Is firmware serving commands (R325)? -/
def serving (d : Dev) : Bool := mainUp d && d.clo.ready && !stopped d

/-! ### The journal (R312) -/

/-- What a record does to the maps: it carries absolute values (R312). -/
def applyRec (r : JRec) (m : Maps) : Maps := match r with
  | .zone k z => { m with zones := match z with | some z => tset m.zones k z | none => tdel m.zones k }
  | .stripe row slot stripe rank => { m with rows := tmod m.rows row fun r =>
      { r with assigned := r.assigned.set slot (((r.assigned.getD slot []).take rank) ++ [stripe]) } }
  | .cmap k e => { m with cmap := match e with | some e => tset m.cmap k e | none => tdel m.cmap k }
  | .row i r => { m with rows := match r with | some r => tset m.rows i r | none => tdel m.rows i }
  | .pos row i die bed _ => { m with rows := tmod m.rows row fun r => { r with pos := r.pos.set i (die, bed) } }
  | .bed k b => { m with beds := tset m.beds k b }
  | .move plot zone row slot _ _ => { m with zones := tmod m.zones (zkey plot zone) fun z => { z with row := some row, slot := slot } }
  | .lost k bs => { m with lost := if bs = [] then tdel m.lost k else tset m.lost k bs }
  | .fix k cws => { m with fixes := if cws = [] then tdel m.fixes k else tset m.fixes k cws }
  | .plot i p _ => { m with plots := match p with | some p => tset m.plots i p | none => tdel m.plots i }
  | .tenant i t _ => { m with tenants := match t with | some t => tset m.tenants i t | none => tdel m.tenants i }
  | .graft p g _ => { m with grafts := match g with | some g => tset m.grafts p g | none => tdel m.grafts p }
  | .spill k r _ => { m with spills := match r with | some r => tset m.spills k r | none => tdel m.spills k }
  | .rslot k r => { m with rslots := match r with | some r => tset m.rslots k r | none => tdel m.rslots k }
  | .dieState die st => { m with dieSvc := tsetD m.dieSvc die st 0 }
  | .ckpt _ _ _ => m
  | .key _ _ => m
  | .mark _ _ _ => m

/-- Parts of a record: the 32-byte records it takes (R314). -/
def JRec.parts : JRec → Nat
  | .row _ _ => 2 | .lost _ _ => 4
  | .tenant _ (some _) op => if op ≤ 1 then 2 else 1
  | _ => 1

/-- Change the maps with a journal record, formed at the moment of the change (R312, R316). -/
def record (r : JRec) (d : Dev) : Dev :=
  { d with
    maps := applyRec r d.maps
    jnl := { d.jnl with
      seq := d.jnl.seq + r.parts
      tail := d.jnl.tail ++ [(d.jnl.seq, r)]
      tailAt := match d.jnl.tailAt with | some t => some t | none => some d.io.now } }

/-- A change of the maps that has no record of its own (write pointers, R307 step 2; counts that R227 keeps without one). -/
def onMaps (f : Maps → Maps) (d : Dev) : Dev := { d with maps := f d.maps }

/-! ### Caches (R232, R411) -/

/-- Load an entry that a cache of n entries lacks. A full cache gives up the entry that a free value picks; one in use in the same cycle is kept, and the next candidate goes
(R232, R411). -/
def cacheLoad {α : Type} [DecidableEq α] (n pick : Nat) (used c : List α) (k : α) : List α :=
  if c.length < n then c ++ [k] else
    match (c.drop (pick % c.length) ++ c.take (pick % c.length)).find? fun x => !used.contains x with
    | some x => c.erase x ++ [k]
    | none => c

/-- The next choice of an entry to evict, and the part after it. -/
def pickOf (d : Dev) : Nat := Config.victim d.io.picks
def picked (d : Dev) : Dev := { d with io := { d.io with picks := d.io.picks + 1 } }

/-- Look up map lines of 64 B: the map cache holds 262,144, and each miss is counted (R232). -/
def mapLookup (ls : List (Nat × Nat)) (d : Dev) : Dev :=
  ls.foldl (fun d k =>
    if d.med.mapLines.contains k then d
    else picked { d with med := { d.med with mapLines := cacheLoad 262144 (pickOf d) ls d.med.mapLines k, mapc := satInc 32 d.med.mapc } }) d

/-- Load a plot's key into the XTS key cache of 2,048 (R411). -/
def loadXts (plot : Nat) (d : Dev) : Dev :=
  if d.sec.xts.contains plot || !thas d.sec.store plot then d
  else picked { d with sec := { d.sec with xts := cacheLoad 2048 (pickOf d) [plot] d.sec.xts plot } }

/-- Load a connection's key into the key cache of 64 of a port's GCM engine (R411). -/
def loadGcm (port i : Nat) (d : Dev) : Dev :=
  let c := tgetD d.smt.gcm port []
  if c.contains i then d
  else picked { d with smt := { d.smt with gcm := tset d.smt.gcm port (cacheLoad 64 (pickOf d) [i] c i) } }

/-! ### Commands -/

def onCmd (id : Nat) (f : Cmd → Cmd) (d : Dev) : Dev := { d with qm := { d.qm with cmds := tmod d.qm.cmds id f } }

/-- The command has its status, result and faulty field; its completion waits to be posted (R95). -/
def finish (id : Nat) (st : Status) (result : Nat) (field : Nat) (d : Dev) : Dev :=
  onCmd id (fun c => { c with stage := .done, status := st, result := BitVec.ofNat 64 result, field := field }) d

/-- Success with a result. -/
def finishOk (id result : Nat) (d : Dev) : Dev := finish id .ok result 0xFF d

/-- Failure with a status. -/
def finishErr (id : Nat) (st : Status) (d : Dev) : Dev := finish id st 0 0xFF d

/-- Failure ST_INVALID_FIELD with XSTAT.FIELD (R99). -/
def finishField (id field : Nat) (d : Dev) : Dev := finish id .invalidField 0 field d

/-- Time that a cause of a miss contributed to a command (R216). -/
def blame (id reason ns : Nat) (d : Dev) : Dev := onCmd id (fun c => { c with causes := c.causes ++ [(reason, ns)] }) d

/-- From power-fail on, and in the flush, nothing not yet committed goes further (R101, R305). -/
def halting (d : Dev) : Bool := d.kpr.pf || d.kpr.flush.isSome

/-- Is the 64 MiB buffer of the journal tail full (R316)? And does the operation of an opcode change a map, so that it waits until the buffer drains? -/
def journalFull (d : Dev) : Bool := decide (2097152 ≤ sumL (d.jnl.tail.map fun e => e.2.parts))
def changesMap (opc : Nat) : Bool :=
  decide (opc = 4) || (decide (0x80 ≤ opc) && decide (opc ≤ 0x82)) || (decide (0x85 ≤ opc) && decide (opc ≤ 0x89)) || (decide (0x8D ≤ opc) && decide (opc ≤ 0x8F))

/-- Does a command of an I/O ring read remote memory: write data, or a scatter list (R144-R146)? -/
def needsBytes (desc : BitVec 512) : Bool :=
  [0x02, 0x03, 0x05].contains (dOpc desc) || ([0x01, 0x06].contains (dOpc desc) && dList desc)

/-- On a ring bound to a Smiast connection, the reads that commands need are asked for in descriptor order (R147): no earlier command of the ring still has its own to ask. -/
def askTurn (d : Dev) (id : Nat) (c : Cmd) : Bool := match tget d.qm.sqs c.sq with
  | some r => (match r.bind with
    | .conn _ => !(d.qm.cmds.any fun e => decide (e.1 < id) && decide (e.2.sq = c.sq) && needsBytes e.2.desc && !e.2.asked && decide (e.2.stage ≠ .done)) || !needsBytes c.desc
    | _ => true)
  | none => true

/-- The outstanding command that a row of the table takes up: fetched, not yet checked, of the given opcode, in its turn to ask; the part is in S0, power has not failed, and the journal has room
for what it changes. -/
def fresh (d : Dev) (id opc : Nat) : Option Cmd := match tget d.qm.cmds id with
  | some c => if c.stage = .fetched ∧ dOpc c.desc = opc ∧ d.pwr.sleep = .s0 ∧ halting d = false ∧ (changesMap opc && journalFull d) = false ∧ askTurn d id c = true then some c else none
  | none => none

/-- The submission ring of a command. -/
def ringOf (d : Dev) (c : Cmd) : Option SubRing := tget d.qm.sqs c.sq

/-- The tenant a command acts for; none: the owner (R36). -/
def tenantOf (d : Dev) (c : Cmd) : Option Nat := match ringOf d c with
  | some r => r.tenant
  | none => none

/-- Is a command on the owner admin ring? -/
def onOwnerRing (c : Cmd) : Bool := decide (c.sq = 0)

/-- Is an admin command's turn: no earlier admin command of its ring is outstanding (R89)? -/
def adminTurn (d : Dev) (id : Nat) (c : Cmd) : Bool :=
  !(d.qm.cmds.any fun e => decide (e.1 < id) && decide (e.2.sq = c.sq) && decide (0x80 ≤ dOpc e.2.desc))

/-- The tenant that an admin command's plot checks use: on the owner admin ring the one it names (R90). -/
def actingTenant (d : Dev) (c : Cmd) (named : Nat) : Option Nat :=
  if onOwnerRing c then (if thas d.maps.tenants named then some named else none) else tenantOf d c

/-! ### Buffers that come back (R116) -/

/-- Why a returned pointer is refused: KIND of BPM_BAD (R116). -/
def badReturn (p : Pool) (ptr : Nat) : Option Nat :=
  if ptr < p.base ∨ p.base + p.size * p.total ≤ ptr then some 0
  else if (ptr - p.base) % p.size ≠ 0 then some 1
  else if p.free.contains ptr then some 2 else none

/-- A buffer comes back (R116): a pointer that fails is refused, counted and recorded, and its buffer stays out of use. -/
def returnBuffer (pool ptr : Nat) (d : Dev) : Dev := match d.bpm.pools[pool]? with
  | none => d
  | some p => match badReturn p ptr with
    | some kind => raise .bpmBadReturn [pool, kind] { d with bpm := {
        d.bpm with
        bad := satInc 16 d.bpm.bad, badPool := pool, badKind := kind
        pools := d.bpm.pools.set pool { p with lost := p.lost + 1, free := p.free.filter fun x => decide (x ≠ ptr) } } }
    | none => { d with bpm := { d.bpm with
        pools := d.bpm.pools.set pool { p with free := p.free ++ [ptr] }
        granted := d.bpm.granted.filter fun g => !(decide (g.2 = (pool, ptr))) } }

/-- Return every buffer a user holds. -/
def freeBuffers (p : BufUser → Bool) (d : Dev) : Dev :=
  forAll (d.bpm.granted.filter fun g => p g.1) (fun g => returnBuffer g.2.1 g.2.2)
    { d with bpm := { d.bpm with waiting := d.bpm.waiting.filter fun w => !p w.2 } }

/-! ### Waking for a command (R461, R462, R465-R468) -/

def onPwr (f : Pwr → Pwr) (d : Dev) : Dev := { d with pwr := f d.pwr }

/-- A command during the entry to a state that is left by `out`: the full configurations, and Z9-H from the commit point on, complete the entry and exit at once; Z9-H before it
unwinds the entry (R467, R468). -/
def wakeEntering (commit : Nat) (out : Sleep) (t : Nat) (d : Dev) : Dev :=
  if d.id.variant = .z9H ∧ t < d.pwr.sleepAt + commit then onPwr (fun p => { p with sleep := out, sleepAt := t, unwinding := true, cancelled := p.cancelled || decide (out = .leaving) }) d
  else onPwr (fun p => { p with exitAfter := true }) d

/-- What wakes the part from S1 or S2, or finds it on the way there. -/
def wakeForCommand (t : Nat) (d : Dev) : Dev := match d.pwr.sleep with
  | .s0 | .s1Leaving | .leaving => d
  | .s1 => onPwr (fun p => { p with sleep := .s1Leaving, sleepAt := t }) d
  | .s2 => onPwr (fun p => { p with sleep := .leaving, sleepAt := t }) d
  | .s1Entering => wakeEntering 300 .s1Leaving t d
  | .entering => wakeEntering 300000 .leaving t d

/-- What ends S2 or its entry, beside a command (R462). -/
def wakeS2 (t : Nat) (d : Dev) : Dev := if d.pwr.sleep = .s2 ∨ d.pwr.sleep = .entering then wakeForCommand t d else d

/-- Is the part awake: S0? Commands are dispatched then only. -/
def awake (d : Dev) : Bool := decide (d.pwr.sleep = .s0)

/-- The run of a unit between its states. -/
def parkRun (d : Dev) (u : ParkUnit) : Option ParkRun := d.pwr.parking.find? fun r => decide (r.unit = u)

/-- The commit point of a unit's entry, ns (R466). -/
def parkCommit : ParkUnit → Nat
  | .lg _ => 2000
  | _ => 500

/-- A command for a unit that is on its way into its park (R467, R468). -/
def wakeRun (t : Nat) (z9H : Bool) (r : ParkRun) : ParkRun :=
  if r.leaving then r
  else if z9H ∧ t < r.since + parkCommit r.unit then { r with leaving := true, since := t, unwinding := true }
  else { r with exitAfter := true }

/-- A frame, TLP or request for a port: its idle time starts again, and a parked port exits (R465). -/
def touchPort (u : ParkUnit) (t : Nat) (d : Dev) : Dev :=
  let parked := match u with | .eth n => d.pwr.ethParked.contains n | .pcx n => d.pwr.pcxParked.contains n | _ => false
  onPwr (fun p => { p with
    ethLast := match u with | .eth n => tset p.ethLast n t | _ => p.ethLast
    pcxLast := match u with | .pcx n => tset p.pcxLast n t | _ => p.pcxLast
    ethParked := match u with | .eth n => p.ethParked.filter fun x => decide (x ≠ n) | _ => p.ethParked
    pcxParked := match u with | .pcx n => p.pcxParked.filter fun x => decide (x ≠ n) | _ => p.pcxParked
    parking := if parked then p.parking ++ [⟨u, true, t, false, false⟩] else p.parking.map fun r => if r.unit = u then wakeRun t (decide (d.id.variant = .z9H)) r else r }) d

/-- A register access by a path at the latest time told: through BAR0 it comes over PCIe port 0 (R465). -/
def touchPath (p : Path) (d : Dev) : Dev := match p with
  | .bar0 => if mainUp d ∧ hasPcx d 0 then touchPort (.pcx 0) d.io.now d else d
  | .otherPf | .mgmt | .core _ => d
  | .cfg f | .bar2 f | .bar4 f => if mainUp d ∧ hasPcx d (f / 1024) then touchPort (.pcx (f / 1024)) d.io.now d else d
  | .sriov l => if mainUp d ∧ hasPcx d (l / 4) then touchPort (.pcx (l / 4)) d.io.now d else d

/-- Apply the effect of a register access by a path. -/
def State.onReg (s : State) (p : Path) (f : Dev → Dev) : Host.Outcome State Fault Refusal := s.on fun d => touchPath p (f d)

/-- The port that a binding's traffic goes through. -/
def portOf (d : Dev) : Bind → Option ParkUnit
  | .fn f => some (.pcx (f / 1024))
  | .conn c => (tget d.smt.conns (c % 2 ^ 18)).map fun x => .eth (x.iface / 8)
  | .mailbox => none

/-- Is a command that arrives now held up by an entry in progress, or by the unwinding of one (R467, R468)? -/
def entryDelay (d : Dev) (b : Bind) : Bool :=
  decide (d.pwr.sleep = .s1Entering) || decide (d.pwr.sleep = .entering) || d.pwr.unwinding ||
  (match portOf d b with | some u => d.pwr.parking.any (fun r => decide (r.unit = u) && (!r.leaving || r.unwinding)) | none => false)

/-! ### Range locks (R112-R114) -/

/-- Do two entries conflict (R113)? -/
def lockConflict (a b : Lock) : Bool :=
  decide (a.plot = b.plot) && decide (a.first ≤ b.last) && decide (b.first ≤ a.last) && (a.excl || b.excl)

/-- The most entries a tenant may hold (R114). -/
def lockMax (d : Dev) : Nat := clampN 1 8192 (fld (rd d 0x1020) 0 14)

/-- Entries in the table. -/
def lockUsed (l : List Lock) : Nat := (l.filter fun e => e.entered).length
def lockUsedBy (l : List Lock) (t : Nat) : Nat := (l.filter fun e => e.entered && decide (e.tenant = t)).length

/-- Give free table entries to the oldest queued commands of tenants below their limit (R114). -/
def lockPromote (mx : Nat) (whole : List Lock) : List Lock → List Lock
  | [] => []
  | e :: t =>
    if !e.entered ∧ lockUsed whole < 8192 ∧ lockUsedBy whole e.tenant < mx then
      { e with entered := true } :: lockPromote mx ({ e with entered := true, held := false } :: whole) t
    else e :: lockPromote mx whole t

/-- May an entry be granted: it is in the table and no earlier entry conflicts with it (R113)? -/
def lockFree (l : List Lock) (id : Nat) : Bool :=
  match l.span fun e => decide (e.cmd ≠ id) with
  | (before, e :: _) => e.entered && !e.held && !(before.any fun b => lockConflict b e)
  | _ => false

/-- Is a command's entry granted? -/
def lockHeld (l : List Lock) (id : Nat) : Bool := l.any fun e => decide (e.cmd = id) && e.held

/-- Set the lock list, with the highest occupancy seen (R114). -/
def setLocks (l : List Lock) (d : Dev) : Dev :=
  { d with qm := { d.qm with locks := l, lockHigh := max d.qm.lockHigh (lockUsed l) } }

/-- Grant an entry that may be granted. -/
def lockGrant (id : Nat) (d : Dev) : Dev :=
  if lockFree d.qm.locks id then
    setLocks (d.qm.locks.map fun e => if e.cmd = id then { e with held := true } else e) d
  else d

/-- Arrive at the table (R112): take an entry or queue, and be granted at once where nothing conflicts. -/
def lockArrive (e : Lock) (d : Dev) : Dev :=
  let l := d.qm.locks ++ [e]
  lockGrant e.cmd (setLocks (lockPromote (lockMax d) l l) d)

/-- Release a command's entry. -/
def lockRelease (id : Nat) (d : Dev) : Dev :=
  let l := d.qm.locks.filter fun e => decide (e.cmd ≠ id)
  setLocks (lockPromote (lockMax d) l l) d

/-! ### Ends of commands and of rings -/

def onSq (i : Nat) (f : SubRing → SubRing) (d : Dev) : Dev := { d with qm := { d.qm with sqs := tmod d.qm.sqs i f } }
def onCq (i : Nat) (f : CompRing → CompRing) (d : Dev) : Dev := { d with qm := { d.qm with cqs := tmod d.qm.cqs i f } }

/-- A command ends with no effect: what it holds is given back. -/
def cancel (id : Nat) (d : Dev) : Dev :=
  let d := freeBuffers (fun u => decide (u = .copy id) || decide (u = .staging id) || decide (u = .block id)) (lockRelease id d)
  let mine := tfilter d.alm.jobs fun _ j => decide (j.cmd = id)
  { d with
    alm := { d.alm with jobs := tfilter d.alm.jobs fun _ j => decide (j.cmd ≠ id)
                        ops := tfilter d.alm.ops fun _ o => o.sent || !(decide (o.jobs ≠ []) && o.jobs.all fun k => thas mine k) }
    ecc := { d.ecc with softWait := d.ecc.softWait.filter fun k => !thas mine k } }

/-- Is a fetch of a ring's descriptors from client memory under way (R144)? -/
def fetchOut (d : Dev) (sq : Nat) : Bool :=
  let mine := fun (u : ReqUse) => match u with | .descs s _ _ => decide (s = sq) | _ => false
  d.smt.conns.any fun e => (e.2.reqs.any fun q => mine q.2.use) || e.2.reqQueue.any fun q => mine q.1

/-- A submission ring whose deletion waits ends with its last command and its last descriptor fetch, and the deletion completes (R76, R94, R179). -/
def endDeletion (sq : Nat) (d : Dev) : Dev := match tget d.qm.sqs sq with
  | some r => match r.deleting with
    | some id => if (d.qm.cmds.any fun e => decide (e.2.sq = sq)) || fetchOut d sq then d
        else finishOk id 0 { d with qm := { d.qm with sqs := tdel d.qm.sqs sq } }
    | none => d
  | none => d

end Sys2Proof.Machine
end

