-- ==== Sys2Proof/Machine/Levels.lean ====
section
/-!
DEFINITION. What the measurements give the rest of the part: the performance-level ceiling (R456), the Almanac's planned slots (R193), the temperature of a
link group (R476), and the media profiles (R219, R224).
-/

namespace Sys2Proof.Machine

/-! ### The planned slots -/

/-- Slots planned for accords per die and period (R193). -/
def slotsAt (ceil : Nat) (fast : Bool) : Nat := match ceil with
  | 0 => 2 | 1 => 3 | 2 => 4 | 3 => 5 | 4 => 6 | 5 => 7
  | 6 => if fast then 8 else 7
  | _ => 8
def plannedSlots (d : Dev) : Nat := slotsAt (ceilNow d) d.pwr.pl6Fast

/-- ALM_ADMIT.BG_RESERVE: 0 counts as 1, above 4 as 4. -/
def bgReserve (d : Dev) : Nat := clampN 1 4 (fld (rd d 0x30108) 0 3)
/-- ALM_ADMIT.RCA_PCT. -/
def rcaPct (d : Dev) : Nat := min 100 (fld (rd d 0x30108) 8 7)
/-- ALM_BG.REBUILD. -/
def bgRebuild (d : Dev) : Nat := min 4 (fld (rd d 0x3010C) 0 3)

/-! ### Temperatures -/

/-- The latest reading of a main-die sensor, unless it has failed (R474). -/
def sensorTemp (d : Dev) (i : Nat) : Option Int := if d.thm.failed.contains i then none else some (tgetD d.thm.temps i 0)

/-- The two sensors of a link group (R476). -/
def lgSensors (d : Dev) (g : Nat) : Nat × Nat := (g / 4, 16 + (if 64 ≤ linkGroups d then g / 4 else g / 2))

/-- The temperature of a link group in 0.1 degrees; none: both sensors failed, the hottest zone (R476, R29). -/
def lgTemp (d : Dev) (g : Nat) : Option Int := match sensorTemp d (lgSensors d g).1, sensorTemp d (lgSensors d g).2 with
  | some a, some b => some (max a b)
  | some a, none => some a
  | none, some b => some b
  | none, none => none

end Sys2Proof.Machine
end

