-- ==== Sys2Proof/Machine/Parity.lean ====
section
/-!
DEFINITION. Blocks with their metadata and guard (spec/11_integrity_and_memory.md R374-R376), the parity arithmetic of rows (spec/08_rows_and_parity.md
R262-R268), and the tail of a stripe: which member, plane and codeword a data offset falls on.
-/

namespace Sys2Proof.Machine

/-! ### Payloads (R267, R374-R376) -/

/-- Data and metadata of a payload. -/
def pData (p : Payload) : Block := p.extractLsb' 0 32768
def pMeta (p : Payload) : BitVec 512 := p.extractLsb' 32768 512
def pTag (p : Payload) : HostTag := (pMeta p).extractLsb' 0 128
def pPlot (p : Payload) : Nat := fld (pMeta p).toNat 128 14
def pLba (p : Payload) : Nat := fld (pMeta p).toNat 144 48
def pFlags (p : Payload) : Nat := fld (pMeta p).toNat 192 8
def pTagged (p : Payload) : Bool := bit (pFlags p) 0
def pFill (p : Payload) : Bool := bit (pFlags p) 1
def pLost (p : Payload) : Bool := bit (pFlags p) 2
def pBpos (p : Payload) : Nat := fld (pMeta p).toNat 208 48
def pGuard (p : Payload) : Nat := fld (pMeta p).toNat 480 32

/-- Metadata but for the guard. -/
def metaNat (tag : HostTag) (plot lba flags bpos pcc : Nat) : Nat :=
  tag.toNat + 2 ^ 128 * (plot % 2 ^ 14) + 2 ^ 144 * (lba % 2 ^ 48) + 2 ^ 192 * (flags % 256) + 2 ^ 208 * (bpos % 2 ^ 48) + 2 ^ 256 * (pcc % 2 ^ 24)

/-- The guard: CRC-32C over the data and metadata bytes 0-59 (R375). -/
def guardOf (data : Block) (m : Nat) : Nat := crc32c (leBytes 4096 data.toNat ++ leBytes 60 m)

/-- A payload with its guard. -/
def mkPayload (data : Block) (tag : HostTag) (plot lba flags bpos pcc : Nat) : Payload :=
  let m := metaNat tag plot lba flags bpos pcc
  BitVec.ofNat 33280 (data.toNat + 2 ^ 32768 * (m + 2 ^ 480 * guardOf data m))

/-- A filler block and a lost marker: zero data (R266, R281, R375). -/
def fillerBlock (plot lba : Nat) : Payload := mkPayload 0 0 plot lba 2 0 0
def lostMarker (plot lba : Nat) : Payload := mkPayload 0 0 plot lba 4 0 0

/-- The guard check (R376). -/
def guardOk (p : Payload) (plot lba : Nat) : Bool :=
  decide (pGuard p = guardOf (pData p) ((pMeta p).toNat % 2 ^ 480)) && decide (pPlot p = plot) && decide (pLba p = lba)

/-- The guard of a block whose metadata COPY sets anew (R378). -/
def reMeta (p : Payload) (plot lba bpos pcc : Nat) : Payload := mkPayload (pData p) (pTag p) plot lba (pFlags p) bpos pcc

/-! ### GF(2^8), polynomial 0x11D, generator 2 (R267) -/

/-- A byte pattern repeated over a payload. -/
def bytesOf (b : Nat) : Payload := BitVec.ofNat 33280 (b * ((2 ^ 33280 - 1) / 255))

/-- Every byte doubled. -/
def gfDouble (v : Payload) : Payload :=
  ((v &&& bytesOf 0x7F) <<< 1) ^^^ (BitVec.ofNat 33280 (((v &&& bytesOf 0x80) >>> 7).toNat * 0x1D))

/-- Every byte doubled n times: times g^n. -/
def gfShift : Nat → Payload → Payload
  | 0, v => v
  | n + 1, v => gfShift n (gfDouble v)

/-- Every byte times a constant: the sum of its bits' shifts. -/
def gfScale (c : Nat) (v : Payload) : Payload :=
  (List.range 8).foldl (fun a i => if c.testBit i then a ^^^ gfShift i v else a) 0

/-- One byte doubled, and the product of two bytes. -/
def gf2 (a : Nat) : Nat := if a < 128 then 2 * a else (2 * a) ^^^ 0x11D
def gfTimes : Nat → Nat → Nat → Nat
  | 0, _, _ => 0
  | n + 1, a, b => (if b % 2 = 1 then a else 0) ^^^ gfTimes n (gf2 a) (b / 2)
def gfMul (a b : Nat) : Nat := gfTimes 8 a b
/-- g^n. -/
def gfPow : Nat → Nat
  | 0 => 1
  | n + 1 => gf2 (gfPow n)
/-- a^n. -/
def gfExp (a : Nat) : Nat → Nat
  | 0 => 1
  | n + 1 => gfMul a (gfExp a n)
/-- 1 / a = a^254. -/
def gfInv (a : Nat) : Nat := gfExp a 254

/-! ### P, Q and rebuilding (R267, R268) -/

/-- P of the data members in order. -/
def parityP (ds : List Payload) : Payload := ds.foldl (· ^^^ ·) 0
/-- Q of the data members in order: Horner's rule from the last. -/
def parityQ : List Payload → Payload
  | [] => 0
  | d :: t => d ^^^ gfDouble (parityQ t)

/-- What data member j adds to P and Q. -/
def addP (p d : Payload) : Payload := p ^^^ d
def addQ (q : Payload) (j : Nat) (d : Payload) : Payload := q ^^^ gfShift j d

/-- Members of a column by role: data 0 to k - 1, P at k, Q at k + 1. -/
abbrev Column := Tbl Payload

/-- P xor the surviving data; Q xor the Q-sum of the surviving data. -/
def pxy (k : Nat) (col : Column) (p : Payload) : Payload :=
  (List.range k).foldl (fun a j => match tget col j with | some d => a ^^^ d | none => a) p
def qxy (k : Nat) (col : Column) (q : Payload) : Payload :=
  (List.range k).foldl (fun a j => match tget col j with | some d => a ^^^ gfShift j d | none => a) q

/-- The erased data members. -/
def erased (k : Nat) (col : Column) : List Nat := (List.range k).filter fun j => !thas col j

/-- Rebuild data member x of a column (R268); none: lost. -/
def rebuildData (k : Nat) (col : Column) (x : Nat) : Option Payload := match tget col x with
  | some d => some d
  | none => match erased k col, tget col k, tget col (k + 1) with
    | [_], some p, _ => some (pxy k col p)
    | [_], none, some q => some (gfScale (gfInv (gfPow x)) (qxy k col q))
    | [a, b], some p, some q =>
      let y := if a = x then b else a
      some (gfScale (gfInv (gfPow x ^^^ gfPow y)) (gfShift y (pxy k col p) ^^^ qxy k col q))
    | _, _, _ => none

/-- Every data member of a column, if all can be had. -/
def allData (k : Nat) (col : Column) : Option (List Payload) := (List.range k).mapM (rebuildData k col)

/-- Rebuild the member of a role: data, P or Q. -/
def rebuildRole (k : Nat) (col : Column) (role : Nat) : Option Payload :=
  if role < k then rebuildData k col role
  else (allData k col).map fun ds => if role = k then parityP ds else parityQ ds

/-! ### Where a block lies (R261-R264) -/

/-- The role of a position in a stripe: j < k data member j, k P, k + 1 Q (R262). -/
def roleAt (n i s : Nat) : Nat := (i + s) % n
/-- The position that has a role in a stripe. -/
def posOfRole (n j s : Nat) : Nat := (j + (n - s % n)) % n

/-- A block's place in its stripe: data member, plane, codeword (R263). -/
structure Spot where
  j : Nat
  q : Nat
  c : Nat
  deriving DecidableEq, Repr
def spotOf (p : Profile) (k b : Nat) : Spot := { j := (b / p.w) % k, q := b / p.w / k, c := b % p.w }

/-- Data blocks of a stripe. -/
def perStripe (p : Profile) (k : Nat) : Nat := k * p.share

/-- The page of a bed that holds page position s: each skipped word line at or before moves the rest one word line on (R255). -/
def physPage (bpc : Nat) (skips : List Nat) (s : Nat) : Nat :=
  (sortBy (fun a b => decide (a < b)) skips).foldl (fun a w => if w ≤ a / bpc then a + bpc else a) s

end Sys2Proof.Machine
end

