-- ==== Sys2Proof/Machine/Trellis.lean ====
section
/-!
DEFINITION. Space and placement: free rows and the weeding reserve (R237-R241), what tenants use (R39, R44), and Trellis, which chooses the dies of every row
(spec/06_placement_and_almanac.md R183-R191).
-/

namespace Sys2Proof.Machine

/-! ### Beds and dies -/

/-- A bed of an included die that no entry lists: found good, Released, never erased (R226). -/
def newBed : Bed := { st := .released, factory := false, slc := false, pe := 0, row := 0, pos := 0, skips := [], heat := 0, life := 0, senses := 0, stamp := 0, ew := 0, mean := 0 }
def bedOf (d : Dev) (die bed : Nat) : Bed := tgetD d.maps.beds (bkey die bed) newBed

/-- Change a bed, with its journal record (R312). -/
def putBed (die bed : Nat) (f : Bed → Bed) (d : Dev) : Dev := record (.bed (bkey die bed) (f (bedOf d die bed))) d

/-- A bed's P/E count after one more erase; the bed entry has 16 bits for it (R227). -/
def Bed.erasedOnce (b : Bed) : Bed := { b with pe := satInc 16 b.pe }

/-- Change what the bed table keeps of a bed without a state change: senses, early warnings (R227). -/
def noteBed (die bed : Nat) (f : Bed → Bed) (d : Dev) : Dev :=
  onMaps (fun m => { m with beds := tset m.beds (bkey die bed) (f (tgetD m.beds (bkey die bed) newBed)) }) d

/-- The listed beds of a die. -/
def listedBeds (d : Dev) (die : Nat) : List (Nat × Bed) :=
  (d.maps.beds.filter fun e => decide (e.1 / 4096 = die)).map fun e => (e.1 % 4096, e.2)

def Bed.isFree (b : Bed) : Bool := decide (b.st = .erased) || decide (b.st = .released)

def dieProfile (d : Dev) (die : Nat) : Nat := match tget d.alm.dies die with | some x => x.profile | none => 0

/-- Erased and Released beds of a die. -/
def freeBeds (d : Dev) (die : Nat) : Nat := match profileOf (dieProfile d die) with
  | some p => p.beds - ((listedBeds d die).filter fun e => !e.2.isFree).length
  | none => 0

/-- Retired beds of a die. -/
def retiredBeds (d : Dev) (die : Nat) : Nat := ((listedBeds d die).filter fun e => decide (e.2.st = .retired)).length

/-- Has a die failed, on its own or with its link or group (R272)? -/
def dieFailed (d : Dev) (die : Nat) : Bool := decide (tgetD d.maps.dieSvc die 0 ≠ 0) || d.med.failedLg.contains (lgOf die)

/-- A die that may hold beds: included and not failed (R210, R220). -/
def diePresent (d : Dev) (die : Nat) : Bool := match tget d.alm.dies die with
  | some x => x.included && !dieFailed d die
  | none => false

/-- A link group that is present and not failed. -/
def lgUsable (d : Dev) (g : Nat) : Bool := decide (g < linkGroups d) && !d.med.failedLg.contains g

/-- Eligible for a new bed but for the temperature (R184). prof none: any profile (journal, checkpoint and rescue rows). -/
def dieEligible (d : Dev) (prof : Option Nat) (die : Nat) : Bool := match tget d.alm.dies die with
  | some x => x.included && !dieFailed d die && lgUsable d (lgOf die) && x.wearValid && !x.worn && decide (1 ≤ freeBeds d die) &&
      (match prof with | some p => decide (x.profile = p) | none => true)
  | none => false

/-- TRL_THERM.HOT in 0.1 degrees. -/
def hotLimit (d : Dev) : Int := 10 * (clampN 60 105 (fld (rd d 0x30004) 0 8) : Nat)

/-- Is a link group too hot for new beds? -/
def lgHot (d : Dev) (g : Nat) : Bool := match lgTemp d g with
  | some t => decide (hotLimit d ≤ t)
  | none => true

/-! ### Space (R237-R241) -/

/-- Free beds of a profile in a link group. -/
def lgFree (d : Dev) (p g : Nat) : Nat :=
  sumL (((d.alm.dies.filter fun e => decide (lgOf e.1 = g) && e.2.included && decide (e.2.profile = p) && !dieFailed d e.1)).map fun e => freeBeds d e.1)

/-- The largest F with the sum of min(e_g, F) at least n x F: with the groups in falling order, the least of what the groups beyond the first j can give the
n - j beds left. -/
def freeRowsOf (n : Nat) (es : List Nat) : Nat :=
  let s := sortBy (fun a b => decide (b < a)) es
  let cands := (List.range n).map fun j => sumL (s.drop j) / (n - j)
  match cands with
  | [] => 0
  | c :: t => t.foldl min c

/-- F_p(n) (R237). -/
def freeRows (d : Dev) (p n : Nat) : Nat := freeRowsOf n (((List.range (linkGroups d)).filter (lgUsable d)).map (lgFree d p))

/-- Row sizes in use on a profile (R241). -/
def sizesInUse (d : Dev) (p : Nat) : List Nat :=
  let rows := (d.maps.rows.filter fun e => decide (e.2.profile = p)).map fun e => rowSize e.2.durable e.2.k
  let plots := (d.maps.plots.filter fun e => decide (e.2.profile = p)).map fun e => rowSize e.2.durable e.2.k
  let grafts := (d.maps.grafts.filter fun e => match tget d.maps.plots e.1 with | some q => decide (q.profile = p) | none => false).map
    fun e => rowSize e.2.durable e.2.k
  (rows ++ plots ++ grafts).eraseDups

/-- A checkpoint row's size (R234). -/
def ckptSize (d : Dev) : Nat := if hasQ d then 18 else 17

/-- The row size R241 takes a profile with. -/
def profileSize (d : Dev) (p : Nat) : Nat := match (sizesInUse d p) with
  | [] => ckptSize d
  | a :: t => t.foldl max a

/-- Rows of a region already built. -/
def regionRows (d : Dev) (plot : Nat) : Nat := tcount d.maps.rows fun _ r => decide (r.kind = 1) && decide (r.plot = plot)

/-- Rows the regions on a profile may still need (R238). -/
def owedRows (d : Dev) (p : Nat) : Nat := match profileOf p with
  | some f => sumL ((d.maps.plots.filter fun e => e.2.region && decide (e.2.profile = p)).map fun e =>
      cdiv (107 * (e.2.count * gibBlocks)) (100 * (16 * f.bedBlocks)) - regionRows d e.1)
  | none => 0

/-- The weeding reserve R(p) (R238). -/
def reserveRows (d : Dev) (p : Nat) : Nat := max 16 (fld (rd d 0x40040) 0 8) + (sizesInUse d p).length + owedRows d p

/-- The mean time to reclaim one row, µs (R240). -/
def reclaimTime (d : Dev) (p : Nat) : Nat := match tgetD d.med.trow p [] with
  | [] => 100000
  | l => sumL l / l.length

/-- The retry-after hint, µs (R240). -/
def retryHint (d : Dev) (p n : Nat) : Nat := clampN 1000 10000000 ((reserveRows d p + 1 - freeRows d p n) * reclaimTime d p)

/-! ### What a tenant uses (R39, R44, R47) -/

def plotsOf (d : Dev) (t : Nat) : Nat := tcount d.maps.plots fun _ p => decide (p.tenant = t)
def regionOf (d : Dev) (t : Nat) : Option (Nat × Plot) := tfind d.maps.plots fun _ p => decide (p.tenant = t) && p.region
def plotTenant (d : Dev) (plot : Nat) : Option Nat := (tget d.maps.plots plot).map (·.tenant)

/-- An Empty zone has no entry (R229). -/
def emptyZone : Zone := { st := .empty, row := none, slot := 0, wp := 0, written := 0, commit := 0, lost := false }
def zoneOf (d : Dev) (plot z : Nat) : Zone := tgetD d.maps.zones (zkey plot z) emptyZone

/-- Change a zone, with its record; Empty removes the entry. -/
def putZone (plot z : Nat) (v : Zone) (d : Dev) : Dev := record (.zone (zkey plot z) (if v.st = .empty then none else some v)) d

def ZState.isOpen (s : ZState) : Bool := decide (s = .iOpen) || decide (s = .eOpen)
def ZState.active (s : ZState) : Bool := s.isOpen || decide (s = .closed)

/-- The zones of a tenant. -/
def tenantZones (d : Dev) (t : Nat) : Tbl Zone := tfilter d.maps.zones fun k _ => decide (plotTenant d (k / 2 ^ 32) = some t)
def openZones (d : Dev) (t : Nat) : Nat := tcount (tenantZones d t) fun _ z => z.st.isOpen
def activeZones (d : Dev) (t : Nat) : Nat := tcount (tenantZones d t) fun _ z => z.st.active

/-- Blocks charged to a tenant's quota: the full capacity of each zone that is not Empty, and its region (R44, R62). -/
def quotaUsed (d : Dev) (t : Nat) : Nat :=
  sumL ((tenantZones d t).map fun e => match tget d.maps.plots (e.1 / 2 ^ 32) with | some p => p.cap | none => 0) +
  sumL ((d.maps.plots.filter fun e => decide (e.2.tenant = t) && e.2.region).map fun e => e.2.count * gibBlocks)

/-! ### Accords (R69, R210-R214) -/

def accordOf (d : Dev) (t : Nat) : Option Accord := match tget d.maps.tenants t with | some x => x.accord | none => none

/-- A bound tenant. -/
def boundTenant (d : Dev) (t : Nat) : Bool := match accordOf d t with
  | some a => decide (a.lat ≤ 6) && a.durable
  | none => false

/-! ### Scores (R186) -/

/-- What a row is wanted for. -/
structure Want where
  profile : Option Nat
  k : Nat
  durable : Bool
  mc : Nat
  life : Nat
  heat : Nat
  colo : Nat
  stream : Nat
  pack : Bool
  tenant : Option Nat
  plot : Nat
  kind : Nat
  role : Nat
  deriving DecidableEq, Repr

/-- Rows of a tenant's plots. -/
def tenantRows (d : Dev) (t : Option Nat) : List (Nat × Row) :=
  d.maps.rows.filter fun e => decide (e.2.kind ≠ 2) && decide (plotTenant d e.2.plot = t) && t.isSome

def Row.onDie (r : Row) (die : Nat) : Bool := r.pos.any fun p => decide (p.1 = die)
def Row.onLg (r : Row) (g : Nat) : Bool := r.pos.any fun p => decide (lgOf p.1 = g)
/-- Rows of a system area, in the order they were made; two journal rows in turn are a mirrored pair, two checkpoint rows one of each set (R233, R234). -/
def sysRows (d : Dev) (role : Nat) : List (Nat × Row) := sortBy (fun a b => decide (a.2.made < b.2.made)) (d.maps.rows.filter fun e => decide (e.2.kind = 2) && decide (e.2.role = role))
/-- The link groups of a journal row's mirror, for the eight beds of a pair lie in eight groups (R233). -/
def mateGroups (d : Dev) (row : Nat) (r : Row) : List Nat :=
  if r.kind = 2 ∧ r.role = 0 then
    let l := sysRows d 0
    match l[((l.map (·.1)).idxOf row) ^^^ 1]? with | some e => e.2.pos.map fun p => lgOf p.1 | none => []
  else []
/-- Link groups that a row uses (R260): those of its positions, and of the fresh beds that are to replace some (R183). -/
def groupsOf (d : Dev) (row : Nat) (r : Row) : List Nat :=
  r.pos.map (fun p => lgOf p.1) ++ mateGroups d row r ++
  ((d.med.xpls.filter fun e => decide (e.1 / 32 = row) && e.2.running).map fun e => lgOf e.2.die) ++
  ((d.med.rebuilds.filter fun e => decide (e.1 / 32 = row) && e.2.running).map fun e => lgOf e.2.die)

def Row.openNow (r : Row) : Bool := decide (r.st = .building) || decide (r.st = .isOpen)

/-- wear: the mean P/E count of the beds that are not Retired, in 0.1 % of the rating, / 4, capped; turned round for lifetime classes 4-7. -/
def wearTerm (d : Dev) (die life : Nat) : Nat := match profileOf (dieProfile d die) with
  | none => 255
  | some p =>
    let good := (listedBeds d die).filter fun e => decide (e.2.st ≠ .retired)
    let n := p.beds - retiredBeds d die
    let v := min 255 (sumL (good.map fun e => e.2.pe) * 1000 / (zeroAsOne n * p.pe) / 4)
    if 4 ≤ life then 255 - v else v

def queueTerm (d : Dev) (die : Nat) : Nat := match tget d.alm.dies die with | some x => min 255 (x.busyLast / 8) | none => 255
def loadTerm (d : Dev) (die : Nat) : Nat := min 255 (tcount d.maps.rows fun _ r => r.openNow && r.onLg (lgOf die))
/-- therm: (°C - 50) x 4 within 0-255, with whole degrees rounded down. -/
def thermTerm (d : Dev) (die : Nat) : Nat := match lgTemp d (lgOf die) with
  | none => 255
  | some t => min 255 ((t / 10 - 50) * 4).toNat
def affinTerm (d : Dev) (w : Want) (die : Nat) : Nat :=
  let mine := tenantRows d w.tenant
  if w.colo ≠ 0 then (if mine.any fun e => e.2.openNow && decide (e.2.colo = w.colo) && e.2.onDie die then 0 else 255)
  else if w.pack then 255 - min 255 (mine.filter fun e => e.2.onLg (lgOf die)).length
  else min 255 (mine.filter fun e => e.2.onDie die).length

/-- The score of a die (R186). -/
def score (d : Dev) (w : Want) (die : Nat) : Nat :=
  let t := rd d 0x30000
  fld t 0 4 * wearTerm d die w.life + fld t 4 4 * (1 + w.heat) * queueTerm d die + fld t 8 4 * loadTerm d die +
  fld t 12 4 * thermTerm d die + fld t 16 4 * affinTerm d w die

/-! ### Choosing dies (R184, R185, R187) -/

/-- The best die of a link group: lowest score, then lowest link and target. -/
def lgBest (d : Dev) (w : Want) (g : Nat) : Option (Nat × Nat) :=
  minBy (·.1) ((d.alm.dies.filter fun e => decide (lgOf e.1 = g) && dieEligible d w.profile e.1).map fun e => (score d w e.1, e.1))

/-- The groups that may give a bed, hot ones readmitted coolest first until there are enough (R184). none as a temperature is the hottest. -/
def groupsFor (d : Dev) (w : Want) (n : Nat) (used : List Nat) : List (Nat × Nat) :=
  let all := ((List.range (linkGroups d)).filter fun g => !used.contains g).filterMap fun g => (lgBest d w g).map fun b => (g, b)
  let cool := all.filter fun e => !lgHot d e.1
  let hot := sortBy (fun a b => match lgTemp d a.1, lgTemp d b.1 with
    | some x, some y => decide (x < y) | some _, none => true | none, _ => false) (all.filter fun e => lgHot d e.1)
  (cool ++ hot.take (n - cool.length)).map (·.2)

/-- Dies in ascending order of link group, which gives them their positions in a new row (R187). -/
def byGroup (l : List Nat) : List Nat := sortBy (fun a b => decide (lgOf a < lgOf b)) l

/-- The dies of a new row of n beds, in ascending order of link group; none: too few groups (R185, R187). -/
def pickDies (d : Dev) (w : Want) (n : Nat) : Option (List Nat) :=
  let g := groupsFor d w n []
  if g.length < n then none
  else some (byGroup
    (((sortBy (fun a b => decide (a.1 < b.1) || (decide (a.1 = b.1) && decide (a.2 < b.2))) g).take n).map (·.2)))

/-- The die of one fresh bed, outside the groups its row uses (R183, R260). -/
def pickOne (d : Dev) (w : Want) (used : List Nat) : Option Nat :=
  (minBy (fun e => e.1 * 4096 + e.2) (groupsFor d w 1 used)).map (·.2)

/-- The bed within a die (R228): the Erased bed of least P/E for lifetime classes 0-3, of greatest for 4-7, else so among the Released; the lower index on ties. With
the bed, whether it must be erased first. -/
def chooseBed (d : Dev) (die life : Nat) : Option (Nat × Bool) := match profileOf (dieProfile d die) with
  | none => none
  | some p =>
    let beds := listedBeds d die
    let pick := fun (l : List (Nat × Bed)) => if 4 ≤ life then maxBy (fun e => e.2.pe) l else minBy (fun e => e.2.pe) l
    match pick (beds.filter fun e => decide (e.2.st = .erased)) with
    | some e => some (e.1, false)
    | none =>
      let fresh := (tfree (beds.map fun e => (e.1, ())) 0)
      let rel := beds.filter fun e => decide (e.2.st = .released)
      let cand := if fresh < p.beds then sortBy (fun a b => decide (a.1 < b.1)) (rel ++ [(fresh, newBed)]) else rel
      (pick cand).map fun e => (e.1, true)

/-! ### Bound sets (R190, R191) -/

/-- Sets a die belongs to. -/
def setsOn (d : Dev) (die : Nat) : Nat := tcount d.alm.bsets fun _ s => s.contains die
/-- May a new set on these dies be formed? -/
def mayForm (d : Dev) (dies : List Nat) : Bool := decide (d.alm.bsets.length < 2048) && dies.all fun x => decide (setsOn d x < 8)
def sumScore (d : Dev) (w : Want) (dies : List Nat) : Nat := sumL (dies.map (score d w))

/-- The dies and bound set of a new row: an existing set of the row's size whose members are all eligible, unless a candidate scores lower and may be formed. -/
def pickBound (d : Dev) (w : Want) (n : Nat) : Option (List Nat × Option Nat × Bool) :=
  let old := minBy (fun e => sumScore d w e.2) (d.alm.bsets.filter fun e =>
    decide (e.2.length = n) && e.2.all fun x => dieEligible d w.profile x && !lgHot d (lgOf x))
  match old, pickDies d w n with
  | some o, some c => if decide (sumScore d w c < sumScore d w o.2) && mayForm d c then some (c, none, true) else some (byGroup o.2, some o.1, true)
  | some o, none => some (byGroup o.2, some o.1, true)
  | none, some c => if mayForm d c then some (c, none, true) else some (c, none, false)
  | none, none => none

/-- EV_BSET_FULL, once per plot and hour (R191). -/
def bsetFull (plot : Nat) (d : Dev) : Dev :=
  if (match tget d.alm.bsetFullAt plot with | some t => decide (d.io.now < t + 3600000000000) | none => false) then d
  else raise .bsetFull [plot] { d with alm := { d.alm with bsetFullAt := tset d.alm.bsetFullAt plot d.io.now } }

/-- Take the bound set of a new row. -/
def takeSet (dies : List Nat) (old : Option Nat) (d : Dev) : Nat × Dev := match old with
  | some i => (i, d)
  | none =>
    let i := tfree d.alm.bsets 0
    let b := tset d.alm.bsets i dies
    (i, { d with alm := { d.alm with bsets := b, bsetHigh := max d.alm.bsetHigh b.length } })

/-! ### Building a row -/

/-- Place a bed in a row: its entry, and the erase it needs first (R226). -/
def placeBed (row pos die life : Nat) (system : Bool) (d : Dev) : Dev := match chooseBed d die life with
  | none => d
  | some (bed, dirty) =>
    let d := putBed die bed (fun b => { b with st := if system then .system else .isOpen, slc := system, row := row, pos := pos, skips := [], heat := 0, life := life, senses := 0, ew := 0, mean := 0, xpl := false, gone := false }) d
    if dirty then { d with med := { d.med with toErase := d.med.toErase ++ [(die, bed)] } } else d

/-- The beds a row would take on its dies. -/
def bedsFor (d : Dev) (life : Nat) (dies : List Nat) : List (Nat × Nat) :=
  dies.map fun x => (x, match chooseBed d x life with | some b => b.1 | none => 0)

/-- The profile of a new row: its dies'; where they differ (a system row that takes any, R184), the one whose beds hold least in SLC mode. -/
def rowProfile (d : Dev) (dies : List Nat) : Nat := (minBy (fun p => (theProfile p).slcMib) (dies.map (dieProfile d))).getD 0

/-- A new row is building until its beds are erased; then it is open (R226, R230). -/
def rowBuilt (row : Nat) (d : Dev) : Dev := match rowAt d row with
  | some r => if r.st = .building ∧ !(r.pos.any fun p => d.med.toErase.contains p) then record (.row row (some { r with st := .isOpen })) d else d
  | none => d

/-- A new row on the dies Trellis chose; its id and the part with it. -/
def makeRow (w : Want) (dies : List Nat) (bset : Option Nat) (d : Dev) : Nat × Dev :=
  let id := tfree d.maps.rows 0
  let prof := rowProfile d dies
  let pos := bedsFor d w.life dies
  let row : Row := { st := .building, durable := w.durable, kind := w.kind, role := w.role, k := w.k, mc := w.mc, life := w.life, slc := decide (w.kind = 2), profile := prof, plot := w.plot, bset := bset, valid := 0, claimed := 0, sealHour := 0, colo := w.colo, stream := w.stream, pos := pos, assigned := List.replicate (slotsOf w.mc) [], since := List.replicate (slotsOf w.mc) d.io.now, made := d.io.now, filled := 0 }
  let d := forAll dies.zipIdx (fun e => placeBed id e.2 e.1 w.life (decide (w.kind = 2))) d
  let d := rowBuilt id (record (.row id (some row)) d)
  (id, { d with alm := { d.alm with placed := satInc 32 d.alm.placed } })

/-- What a system row is wanted for (R233-R235): any profile (R184). -/
def sysWant (k : Nat) (durable : Bool) (role : Nat) : Want :=
  { profile := none, k := k, durable := durable, mc := 0, life := 0, heat := 0, colo := 0, stream := 0, pack := false, tenant := none, plot := 0, kind := 2, role := role }
/-- The dies of n beds of a system row: of any profile, but one for the row, the one whose dies score least together (R184, R186, R223). -/
def pickSys (d : Dev) (w : Want) (n : Nat) : Option (List Nat) := minBy (sumScore d w) ([1, 2].filterMap fun p => pickDies d { w with profile := some p } n)

/-- Build a row (R183-R191); none: too few eligible link groups (R185), or no row id left (R230). -/
def buildRow (w : Want) (d : Dev) : Option (Nat × Dev) :=
  if 2 ^ 24 ≤ tfree d.maps.rows 0 then none else
  let n := rowSize w.durable w.k
  let bound := w.durable && decide (w.kind ≠ 2) && (match w.tenant with | some t => boundTenant d t | none => false)
  if bound then match pickBound d w n with
    | none => none
    | some (dies, old, true) => let r := takeSet dies old d; some (makeRow w dies (some r.1) r.2)
    | some (dies, _, false) => some (makeRow w dies none (bsetFull w.plot d))
  else (pickDies d w n).map fun dies => makeRow w dies none d

end Sys2Proof.Machine
end

