-- ==== Sys2Proof/Machine/Place.lean ====
section
/-!
DEFINITION. The write buffer and the stripes of rows: dirty bytes (R290), where blocks lie (R261-R264), placing a block with its running parity
(R267, R269), page programs as members fill (R269), fillers (R266), and the sealing of a row (R226, R242).
-/

namespace Sys2Proof.Machine

/-! ### Geometry of a row -/

def Row.n (r : Row) : Nat := rowSize r.durable r.k
def Row.perStripe (r : Row) : Nat := Machine.perStripe (theProfile r.profile) r.k
/-- Stripes of one slot. -/
def Row.share (r : Row) : Nat := (theProfile r.profile).pages / slotsOf r.mc
/-- Stripes given out so far; the next one is the lowest not given (R264). -/
def Row.given (r : Row) : Nat := sumL (r.assigned.map (·.length))
/-- The stripe of a rank of a slot (R264). -/
def Row.stripeOf (r : Row) (slot rank : Nat) : Option Nat := (r.assigned.getD slot [])[rank]?
/-- Die and bed of a position. -/
def Row.dieBed (r : Row) (pos : Nat) : Nat × Nat := r.pos.getD pos (0, 0)

def stripeAt (d : Dev) (row s : Nat) : Stripe := tgetD d.med.stripes (skey row s) {}
def onStripe (row s : Nat) (f : Stripe → Stripe) (d : Dev) : Dev :=
  { d with med := { d.med with stripes := tset d.med.stripes (skey row s) (f (stripeAt d row s)) } }
def onRow (row : Nat) (f : Row → Row) (d : Dev) : Dev := onMaps (fun m => { m with rows := tmod m.rows row f }) d

/-! ### HBM (R407) and rescue rows (R235, R236) -/

/-- MiB of the conventional map, of the pools and of the write buffer (R407). -/
def hbmMap (d : Dev) : Nat := cdiv (9 * d.ecc.cmapRes) 8
def hbmPools (d : Dev) : Nat := min 4608 (2 * (24576 - 3328 - hbmMap d) / 5) / 64 * 64
def hbmWbuf (d : Dev) : Nat := 24576 - 3328 - hbmMap d - hbmPools d
/-- Room in the write buffer for n more blocks. -/
def bufRoom (d : Dev) (n : Nat) : Bool := decide (dirtyBytes d + 4160 * n ≤ hbmWbuf d * 1048576)

/-- Rescue rows; data capacity of one, MiB: k of its beds in SLC mode. -/
def rescueRows (d : Dev) : Tbl Row := tfilter d.maps.rows fun _ r => decide (r.kind = 2) && decide (r.role = 2)
def rescueCap (r : Row) : Nat := r.k * (theProfile r.profile).slcMib
/-- A rescue row is armed while its beds are erased and nothing lies in it (R235). -/
def rescueArmed (d : Dev) (r : Row) : Bool := decide (r.valid = 0) && !(r.pos.any fun p => d.med.toErase.contains p)
def armedMib (d : Dev) : Nat := sumL (((rescueRows d).filter fun e => rescueArmed d e.2).map fun e => rescueCap e.2)
def rescueMib (d : Dev) : Nat := sumL ((rescueRows d).map fun e => rescueCap e.2)

/-! ### Where blocks lie (R263, R264) -/

/-- The payload of a block in the write buffer, latest commit first (R26). -/
def buffered (d : Dev) (plot lba : Nat) : Option BufBlk :=
  ((d.clo.buf.filter fun e => decide (e.2.plot = plot) && decide (e.2.lba = lba)).getLast?).map (·.2)

/-- The place of a data offset of a slot in a row: stripe, and offset in the stripe. -/
def placeOf (r : Row) (slot o : Nat) : Option (Nat × Nat) :=
  if r.perStripe = 0 then none else (r.stripeOf slot (o / r.perStripe)).map fun s => (s, o % r.perStripe)

/-- Is a block of a stripe in the lost-stripe table (R282)? -/
def isLost (d : Dev) (row s b : Nat) : Bool := (tgetD d.maps.lost (skey row s) []).contains b

/-- The bed's page-column key of a correction list: page x 16 + plane x 4 + codeword (R285). -/
def fixKey (s q c : Nat) : Nat := s * 16 + q * 4 + c
def isFixed (d : Dev) (die bed s q c : Nat) : Bool := (tgetD d.maps.fixes (bkey die bed) []).contains (fixKey s q c)

/-! ### Programs -/

/-- Is a row position's member failed (R272, R274): its die, or the position itself until it is rebuilt? -/
def memberDead (d : Dev) (row pos die : Nat) : Bool := dieFailed d die || thas d.med.rebuilds (pkey row pos)

/-- The command a die operation reads for. -/
def opCmd (d : Dev) (o : DieOp) : Option Nat := (o.jobs.head?.bind (tget d.alm.jobs)).map (·.cmd)

/-- Reads ahead of a read at its die: other tenants' bounded reads, and the tenant's own of other commands (R208). -/
def readsAhead (d : Dev) (o : DieOp) : Nat :=
  tcount d.alm.ops fun _ x => decide (x.die = o.die) && decide (x.kind = .readPage) && (decide (x.level = 3) || decide (x.tenant = o.tenant)) && decide (opCmd d x ≠ opCmd d o)

/-- Queue a die operation at the Almanac. -/
def queueOp (o : DieOp) (d : Dev) : Dev :=
  { d with alm := { d.alm with ops := tset d.alm.ops d.alm.nextOp { o with ready := d.io.now, ahead := if o.kind = .readPage then readsAhead d o else 0 }, nextOp := d.alm.nextOp + 1 } }

/-- Die operations out for a piece of background work; and the work given up: those not yet sent go. -/
def owed (d : Dev) (w : Work) : Nat := tcount d.alm.ops fun _ o => decide (o.work = w)
def dropWork (w : Work) (d : Dev) : Dev := { d with alm := { d.alm with ops := tfilter d.alm.ops fun _ o => o.sent || decide (o.work ≠ w) } }

/-- Queue an operation of background work on a row position: the read of a plane's page, or the program of a page (R195, R201). -/
def queueWork (w : Work) (kind : OpKind) (level row s pos q : Nat) (d : Dev) : Dev := match rowAt d row with
  | none => d
  | some r =>
    let p := r.dieBed pos
    if memberDead d row pos p.1 then d else queueOp { die := p.1, kind := kind, bed := p.2, page := s, plane := q, level := level, row := row, stripe := s, pos := pos, work := w } d

/-- The patrol pass of a row is abandoned, and starts again at its first stripe (R283). -/
def abandonPatrol (row : Nat) (d : Dev) : Dev :=
  if d.med.patrolRow = row then dropWork (.patrol row) { d with med := { d.med with patrolFrom := 0, patAcc := [], patrolRead := false } } else d

/-- Is an erase of a bed queued? -/
def eraseQueued (d : Dev) (die bed : Nat) : Bool := d.alm.ops.any fun e => decide (e.2.kind = .erase) && decide (e.2.die = die) && decide (e.2.bed = bed)

/-- Erase a bed. -/
def queueErase (die bed level : Nat) (d : Dev) : Dev :=
  if eraseQueued d die bed then d else queueOp { die := die, kind := .erase, bed := bed, level := level } d

/-- Program a position's page of a stripe; a bed still to be erased is erased first (R226). A failed member waits for its replacement (R278). -/
def queueProgram (row s pos : Nat) (d : Dev) : Dev := match rowAt d row with
  | none => d
  | some r =>
    let p := r.dieBed pos
    if memberDead d row pos p.1 then d else
      let d := if d.med.toErase.contains p then queueErase p.1 p.2 6 d else d
      queueOp { die := p.1, kind := .program, bed := p.2, page := s, level := 6, tenant := plotTenant d r.plot, row := row, stripe := s, pos := pos } d

/-! ### Sealing (R225, R226, R242, R251, R256) -/

/-- The effective-hour counter of a link group, 1/16 h. -/
def effHour (d : Dev) (g : Nat) : Nat := tgetD d.med.effHours g 0

/-- Queue a transplant of a row position: a position has at most one, under the first of its causes in the table of R248 (R248, R253); the bed's entry shows it (R227). hard: it
takes the slots of R202. One that runs gains no cause; one of an open row waits for its seal. -/
def queueXpl (row pos cause : Nat) (hard : Bool) (d : Dev) : Dev := match rowAt d row with
  | none => d
  | some r =>
    if memberDead d row pos (r.dieBed pos).1 then d else match tget d.med.xpls (pkey row pos) with
    | some x => if x.running then d else { d with med := { d.med with xpls := tset d.med.xpls (pkey row pos) { x with cause := min x.cause cause, hard := x.hard || hard } } }
    | none => putBed (r.dieBed pos).1 (r.dieBed pos).2 (fun b => { b with xpl := true })
        (abandonPatrol row { d with med := { d.med with xpls := tset d.med.xpls (pkey row pos) { cause := cause, hard := hard } } })

/-- The read-count trigger of a bed, in percent of the refresh threshold: SOFT_PCT, or HOT_PCT when its highest read heat is 2 or 3 (R248). -/
def readPct (d : Dev) (b : Bed) : Nat := if 2 ≤ b.heat then clampN 30 100 (fld (rd d 0x4004C) 24 7) else clampN 50 100 (fld (rd d 0x4004C) 16 7)

/-- Transplants for the read count of a sealed bed (R248 cause 0). -/
def readCheck (die bed : Nat) (d : Dev) : Dev :=
  let b := bedOf d die bed
  let thr := (theProfile (dieProfile d die)).reads
  if b.st ≠ .isSealed ∨ thr = 0 then d
  else if thr ≤ b.senses then queueXpl b.row b.pos 0 true d
  else if bit (rd d 0x4004C) 9 ∧ thr * readPct d b ≤ 100 * b.senses then queueXpl b.row b.pos 0 false d else d

/-- Transplants for early warnings of a sealed bed (R248 cause 1): MED_XPL_CFG.EW_COUNT. -/
def ewCheck (die bed : Nat) (d : Dev) : Dev :=
  let b := bedOf d die bed
  if b.st = .isSealed ∧ clampN 1 255 (fld (rd d 0x4004C) 0 8) ≤ b.ew then queueXpl b.row b.pos 1 false d else d

/-- A sealed row whose valid blocks are gone is freed once reads drain (R242). -/
def oldWhenEmpty (row : Nat) (d : Dev) : Dev := match rowAt d row with
  | some r => if r.valid = 0 ∧ r.st = .isSealed ∧ r.kind ≠ 2 then { d with med := { d.med with oldRows := if d.med.oldRows.contains row then d.med.oldRows else d.med.oldRows ++ [row] } } else d
  | none => d

/-- Seal a row all of whose pages are programmed: its beds become Sealed and take their retention stamps, and what they have met so far queues their transplants (R248); Suspect ones
are transplanted. A row that has no valid block left is freed (R242). -/
def sealRow (row : Nat) (r : Row) (d : Dev) : Dev :=
  let d := record (.row row (some { r with st := .isSealed, sealHour := opHours d })) d
  if r.kind = 2 then d else
  oldWhenEmpty row (forAll r.pos.zipIdx (fun e d =>
    let b := bedOf d e.1.1 e.1.2
    if b.st = .isOpen then ewCheck e.1.1 e.1.2 (readCheck e.1.1 e.1.2 (putBed e.1.1 e.1.2 (fun b => { b with st := .isSealed, stamp := effHour d (lgOf e.1.1) }) d))
    else if b.st = .suspect then queueXpl row e.2 3 true (putBed e.1.1 e.1.2 (fun b => { b with stamp := effHour d (lgOf e.1.1) }) d)
    else d) d)

/-- Seal a row when every stripe is given out and none is incomplete. -/
def trySeal (row : Nat) (d : Dev) : Dev := match rowAt d row with
  | some r =>
    if r.openNow ∧ r.given = (theProfile r.profile).pages ∧ !(d.med.stripes.any fun e => decide (e.1 / 65536 = row)) then sealRow row r d else d
  | none => d

/-! ### Placing blocks -/

/-- Give the next stripe of a row to a slot, with its journal record where slots share the row (R264, R312). -/
def giveStripe (row slot rank s : Nat) (r : Row) (d : Dev) : Dev :=
  if slotsOf r.mc = 1 then onMaps (applyRec (.stripe row slot s rank)) d else record (.stripe row slot s rank) d

/-- The stripe a slot's rank lies in, given out now if it is the slot's next (R264). -/
def stripeFor (row slot rank : Nat) (r : Row) (d : Dev) : Nat × Dev := match r.stripeOf slot rank with
  | some s => (s, d)
  | none => (r.given, giveStripe row slot rank r.given r d)

/-- Is b the last block of data member j's page? -/
def endsMember (p : Profile) (k b j : Nat) : Bool := decide (b = (k * (p.planes - 1) + j) * p.w + (p.w - 1))

/-- Add a block to a stripe: its place and the running parity of its column. -/
def addBlock (p : Profile) (k b slot rank : Nat) (pos : Option Nat) (pay : Payload) (now : Nat) (st : Stripe) : Stripe :=
  let x := spotOf p k b
  let old := tgetD st.par (x.q * p.w + x.c) (0, 0)
  { st with
    slot := slot, rank := rank, lba0 := pLba pay - b, blocks := st.blocks ++ [pos], last := now, spilled := false, spilling := false
    par := tset st.par (x.q * p.w + x.c) (addP old.1 pay, addQ old.2 x.j pay) }

/-- Programs that a block's arrival makes ready: its member's page, and P and Q with the stripe's last block (R269). -/
def programsFor (row s b : Nat) (r : Row) (d : Dev) : Dev :=
  let p := theProfile r.profile
  let j := (spotOf p r.k b).j
  let d := if endsMember p r.k b j then queueProgram row s (posOfRole r.n j s) d else d
  if b + 1 = r.perStripe then
    let d := queueProgram row s (posOfRole r.n r.k s) d
    if r.durable then queueProgram row s (posOfRole r.n (r.k + 1) s) d else d
  else d

/-- Place one block at data offset o of a slot. pos: its budget position; none: a filler. -/
def placeBlock (row slot o : Nat) (pos : Option Nat) (pay : Payload) (d : Dev) : Dev := match rowAt d row with
  | none => d
  | some r =>
    let ps := zeroAsOne r.perStripe
    let x := stripeFor row slot (o / ps) r d
    -- a stripe spilled to a rescue row is read back before it continues; the rescue row keeps it until the stripe completes (R271)
    programsFor row x.1 (o % ps) r (onStripe row x.1 (addBlock (theProfile r.profile) r.k (o % ps) slot (o / ps) pos pay d.io.now) x.2)

/-- Read heat and lifetime class that a write leaves on a bed (R227, R248). -/
def heatBed (heat : Nat) (r : Row) (d : Dev) : Dev :=
  forAll r.pos (fun p d => if (bedOf d p.1 p.2).heat < heat then noteBed p.1 p.2 (fun b => { b with heat := heat }) d else d) d

/-! ### Fillers (R266) -/

/-- The LBA of a zone's offset. -/
def zoneLba (p : Plot) (z o : Nat) : Nat := z * p.span + o

/-- Fill the stripe that a slot's data ends in. -/
def fillStripe (row slot plot first o : Nat) (d : Dev) : Dev := match rowAt d row with
  | none => d
  | some r =>
    let ps := zeroAsOne r.perStripe
    if o % ps = 0 then d
    else forAll (List.range (ps - o % ps)) (fun i d => placeBlock row slot (o + i) none (fillerBlock plot (first + o + i)) d) d

/-- The next of a slot's remaining stripes, which holds fillers alone; when it is on flash the one after it follows. lba: the LBA that its first filler carries. -/
def fillNext (row slot lba : Nat) (d : Dev) : Dev := match rowAt d row with
  | none => d
  | some r =>
    let rank := (r.assigned.getD slot []).length
    if r.share ≤ rank then d else
      let d := onStripe row r.given (fun st => { st with slot := slot, rank := rank, lba0 := lba, blocks := List.replicate r.perStripe none, last := d.io.now, fill := true }) (giveStripe row slot rank r.given r d)
      forAll (List.range r.n) (queueProgram row r.given) d

/-- Has a slot a stripe that is not complete? -/
def slotBusy (d : Dev) (row slot : Nat) : Bool := d.med.stripes.any fun e => decide (e.1 / 65536 = row) && decide (e.2.slot = slot)

/-- Fill the rest of a zone's share from offset o on, stripe by stripe, and seal the row if nothing is left to fill. first: the zone's first LBA. -/
def fillShare (row slot plot first o : Nat) (d : Dev) : Dev :=
  let d := fillStripe row slot plot first o d
  trySeal row (if slotBusy d row slot then d else fillNext row slot (first + o) d)

/-- Is a slot of a row closed for writing, so that its remaining stripes are filled: claimed, and neither an active zone's nor a copy's destination? -/
def slotClosed (d : Dev) (row : Nat) (r : Row) (slot : Nat) : Bool :=
  decide (r.kind = 0) && bit r.claimed slot && !(d.maps.zones.any fun e => decide (e.2.row = some row) && decide (e.2.slot = slot) && e.2.st.active) &&
  !(d.med.copies.any fun e => decide (e.2.dst = row) && decide (e.2.slot = slot))

/-! ### Members' payloads -/

/-- A block of an incomplete stripe: from the buffer, or a filler; none before it is placed or once its page is programmed and the buffer freed. -/
def stripeBlock (d : Dev) (r : Row) (st : Stripe) (b : Nat) : Option Payload := match st.blocks[b]? with
  | some (some i) => (tget d.clo.buf i).map (·.pay)
  | some none => some (fillerBlock r.plot (st.lba0 + b))
  | none => none

/-- The offset in its stripe of data member j's codeword c of plane q (R263). -/
def blockOf (p : Profile) (k j q c : Nat) : Nat := (q * k + j) * p.w + c

/-- What a position's page of an incomplete stripe holds at plane q, codeword c. -/
def pagePayload (d : Dev) (row : Nat) (r : Row) (s pos q c : Nat) : Option Payload :=
  let p := theProfile r.profile
  let st := stripeAt d row s
  let j := roleAt r.n pos s
  if j < r.k then stripeBlock d r st (blockOf p r.k j q c)
  else if st.fill then
    let ds := (List.range r.k).map fun i => fillerBlock r.plot (st.lba0 + blockOf p r.k i q c)
    some (if j = r.k then parityP ds else parityQ ds)
  else (tget st.par (q * p.w + c)).map fun e => if j = r.k then e.1 else e.2

/-- The columns of a page, plane by plane. -/
def columns (p : Profile) : List (Nat × Nat) := (List.range p.planes).flatMap fun q => (List.range p.w).map fun c => (q, c)

/-- Put a payload on flash (notes/assumptions/10.md). -/
def putFlash (die bed s q c : Nat) (v : Payload) (d : Dev) : Dev := { d with jnl := { d.jnl with flash := tset d.jnl.flash (fkey die bed s q c) v } }
def onFlash (d : Dev) (die bed s q c : Nat) : Option Payload := tget d.jnl.flash (fkey die bed s q c)
/-- Nothing readable is left on an erased bed. -/
def clearFlash (die bed : Nat) (d : Dev) : Dev := { d with jnl := { d.jnl with flash := tfilter d.jnl.flash fun k _ => decide (k / (65536 * 16) ≠ bkey die bed) } }

/-- Put one column of a new stripe on flash: its data in member order, P, and Q where the row has one. -/
def layColumn (row : Nat) (s q c : Nat) (ds : List Payload) (d : Dev) : Dev := match rowAt d row with
  | none => d
  | some r =>
    let put := fun (role : Nat) (v : Payload) (d : Dev) =>
      let x := r.dieBed (posOfRole r.n role s)
      if memberDead d row (posOfRole r.n role s) x.1 then d else putFlash x.1 x.2 s q c v d
    let d := forAll ds.zipIdx (fun e => put e.2 e.1) d
    let d := put r.k (parityP ds) d
    if r.durable then put (r.k + 1) (parityQ ds) d else d

/-- The page of a position is on flash: its contents, its blocks leave the buffer (R255), and the stripe is complete when every member is programmed. -/
def pageDone (row s pos die bed : Nat) (d : Dev) : Dev := match rowAt d row with
  | none => d
  | some r =>
    let p := theProfile r.profile
    let st := stripeAt d row s
    let j := roleAt r.n pos s
    let d := forAll (columns p) (fun e d => match pagePayload d row r s pos e.1 e.2 with
      | some v => putFlash die bed s e.1 e.2 v d
      | none => d) d
    let mine := if j < r.k then (columns p).filterMap fun e => (st.blocks.getD (blockOf p r.k j e.1 e.2) none) else []
    let d := { d with clo := { d.clo with buf := tfilter d.clo.buf fun i _ => !mine.contains i } }
    let d := onStripe row s (fun st => { st with progd := if st.progd.contains pos then st.progd else st.progd ++ [pos] }) d
    if (stripeAt d row s).progd.length = r.n then
      let d := if thas d.maps.spills (skey row s) then record (.spill (skey row s) none 0) d else d
      let d := { d with med := { d.med with stripes := tdel d.med.stripes (skey row s) } }
      trySeal row (if slotClosed d row r st.slot ∧ !slotBusy d row st.slot then fillNext row st.slot (st.lba0 + r.perStripe) d else d)
    else d

/-! ### Blocks that become invalid -/

/-- A row loses valid blocks; a sealed row without any is freed once reads drain (R242). -/
def loseValid (row n : Nat) (d : Dev) : Dev := oldWhenEmpty row (onRow row (fun r => { r with valid := r.valid - n }) d)

end Sys2Proof.Machine
end

