-- ==== Sys2Proof/Machine/Budget.lean ====
section
/-!
DEFINITION. The dirty-byte ceiling (spec/09_power_loss_and_startup.md R293-R295) in whole bytes, rounded down, and what counts against it.
-/

namespace Sys2Proof.Machine

/-- CLO_FLUSH_PWR in W, CLO_FLUSH_RATE in MB/s, CLO_BOARD's dropout in mV and buck delay in µs (R296). -/
def flushPwr (d : Dev) : Nat := fld (rd d 0xC0000) 0 12
def flushRate (d : Dev) : Nat := fld (rd d 0xC0004) 0 20
def dropoutMv (d : Dev) : Nat := fld (rd d 0xC0008) 0 16
def buckDelay (d : Dev) : Nat := fld (rd d 0xC0008) 16 16
/-- HLD_CFG.TARGET in mV; 0 means no bank, other values within 16,000-38,000. -/
def hldTarget (d : Dev) : Nat := let v := fld (rd d 0x101000) 0 16; if v = 0 then 0 else clampN 16000 38000 v

/-- The ceiling that a bank of c µF and esr x 0.1 mΩ at v mV supports (R293): with the end voltage (n / drop) mV, the energy in the margin over the flush power, less
the fixed times, at the flush rate. -/
def ceilFrom (pwr rate drop delay c esr v : Nat) : Nat :=
  if pwr = 0 ∨ drop = 0 then 0 else
  let n := drop * drop + 100 * pwr * esr
  let k := 8000000 * (drop * drop) * pwr
  (3 * rate * c * (v * v * (drop * drop) - n * n) - rate * (5000 + delay) * k) / k

/-- The hold-up bank as the main die sees it: over the keeper link, or as it was when the link went down (R20). -/
def bankSeen (d : Dev) : Hld := d.clo.bank.getD d.hld

/-- The bank's ceiling, before the rescue rows limit it. -/
def bankCeil (d : Dev) : Nat := ceilFrom (flushPwr d) (flushRate d) (dropoutMv d) (buckDelay d) (bankSeen d).cap (bankSeen d).esr (bankSeen d).vhold

/-- Is the flush list armed (R306): it names an armed rescue row and its CRC holds? -/
def listArmed (d : Dev) : Bool := d.clo.armed && (rescueRows d).any fun e => rescueArmed d e.2

/-- Why the ceiling is zero: CLO_ARM.ZERO (R294); 0: it is not. -/
def zeroReason (d : Dev) : Nat :=
  if !(bankSeen d).valid then 1
  else if flushPwr d = 0 ∨ flushRate d = 0 ∨ dropoutMv d = 0 then 2
  else if hldTarget d = 0 then 3
  else if (bankSeen d).bleeding then 4
  else if !listArmed d then 5 else 0

/-- The ceiling now (R293, R294). -/
def ceilingNow (d : Dev) : Nat := if zeroReason d ≠ 0 then 0 else min (bankCeil d) ((armedMib d - 256) * 1048576)

/-- Acknowledged dirty bytes (R295). -/
def ackedDirty (d : Dev) : Nat := blockBytes d d.clo.ackPos + parityBytes d

/-- ROW_SPILL: IDLE in ms, PRESS in %. -/
def spillIdle (d : Dev) : Nat := clampN 10 60000 (fld (rd d 0x40208) 0 16)
def spillPress (d : Dev) : Nat := clampN 50 95 (fld (rd d 0x40208) 16 7)

/-- May the device spill: the armed rows stay 256 MiB above the ceiling the bank supports (R270)? -/
def maySpill (d : Dev) : Bool := listArmed d && decide ((if zeroReason d = 0 then bankCeil d else 0) + 256 * 1048576 ≤ armedMib d * 1048576)

/-- The incomplete stripe that has been idle longest, neither spilled nor of fillers alone; the lower key on ties. -/
def idlest (d : Dev) : Option (Nat × Stripe) := minBy (fun e => e.2.last) (d.med.stripes.filter fun e => !e.2.spilled && !e.2.spilling && !e.2.fill)

/-- Must a stripe be spilled (R270): pressure on the oldest idle one, its own idle time, or a zero ceiling? -/
def spillDue (d : Dev) (key : Nat) (st : Stripe) : Bool :=
  decide (d.clo.ceil = 0) || decide (st.last + 1000000 * spillIdle d ≤ d.io.now) ||
  (decide (d.clo.ceil * spillPress d < 100 * dirtyBytes d) && (match idlest d with | some e => decide (e.1 = key) | none => false))

/-- Blocks of a rescue row: its data capacity. -/
def rescueBlocks (r : Row) : Nat := rescueCap r * 256

/-- The rescue row that takes n more blocks, in whole stripes: one in use with room, else an armed one. -/
def rescueFor (d : Dev) (n : Nat) : Option Nat :=
  let fits := fun (r : Row) => decide (r.valid + cdiv n (zeroAsOne r.perStripe) * r.perStripe ≤ rescueBlocks r)
  match tfind (rescueRows d) fun _ r => decide (0 < r.valid) && fits r with
  | some e => some e.1
  | none => (tfind (rescueRows d) fun _ r => rescueArmed d r && fits r).map (·.1)

/-- The running parity of a stripe's columns, as blocks without a budget position. -/
def parBlocks (d : Dev) (key : Nat) (st : Stripe) : List (Option Nat × Payload) :=
  let durable := match rowAt d (key / 65536) with | some r => r.durable | none => true
  st.par.flatMap fun e => (none, e.2.1) :: if durable then [(none, e.2.2)] else []
/-- What a spill of a stripe writes, in order: its unprogrammed blocks with their budget positions, and its running parity (R270). -/
def spillBlocks (d : Dev) (key : Nat) (st : Stripe) : List (Option Nat × Payload) :=
  (st.blocks.filterMap fun b => b.bind fun i => (tget d.clo.buf i).map fun x => (some i, x.pay)) ++ parBlocks d key st

/-- The stripes of a rescue row that n blocks take: a spill begins a stripe of its own. -/
def spillStripes (d : Dev) (row n : Nat) : Nat := match rowAt d row with | some r => cdiv n (zeroAsOne r.perStripe) | none => 0

/-- Lay blocks into the next stripes of a rescue row; what is done with each stripe then. The rows hold their places, and the row counts as full to there. -/
def layRescue (row : Nat) (all : List (Option Nat × Payload)) (after : Nat → Row → Dev → Dev) (d : Dev) : Dev := match rowAt d row with
  | none => d
  | some r =>
    let at0 := r.given * r.perStripe
    let places : Tbl Nat := (all.zipIdx.filterMap fun e => e.1.1.map fun i => (i, at0 + e.2))
    let pays := all.map (·.2)
    let d := forAll (List.range (spillStripes d row pays.length)) (fun i d => match rowAt d row with
      | none => d
      | some r =>
        let p := theProfile r.profile
        let s := r.given
        after s r (forAll (columns p) (fun e => layColumn row s e.1 e.2 ((List.range r.k).map fun j => pays.getD (i * r.perStripe + blockOf p r.k j e.1 e.2) 0)) (giveStripe row 0 s s r d))) d
    let d := onRow row (fun r => { r with valid := r.given * r.perStripe }) { d with jnl := { d.jnl with used := if d.jnl.used.contains row then d.jnl.used else d.jnl.used ++ [row] } }
    { d with clo := { d.clo with buf := tmap d.clo.buf fun i b => match tget places i with | some o => { b with at_ := some (row, o) } | none => b } }

/-- Begin to spill a stripe: its running parity and unprogrammed blocks are written into a rescue row (R270). -/
def spill (key : Nat) (st : Stripe) (d : Dev) : Dev :=
  let all := spillBlocks d key st
  match rescueFor d all.length with
  | none => d
  | some row =>
    layRescue row all (fun s r d => forAll (List.range r.n) (fun pos => queueWork (.spill key) .program 6 row s pos 0) d)
      { d with med := { d.med with stripes := tset d.med.stripes key { st with spilling := true } } }

/-- The rescue stripe at which a stripe's spilled blocks begin. -/
def spillStripe (d : Dev) (row : Nat) (mine : List Nat) : Nat := match rowAt d row, mine.findSome? fun i => (tget d.clo.buf i).bind (·.at_) with
  | some r, some p => p.2 / zeroAsOne r.perStripe
  | _, _ => 0

/-- The spill of a stripe is on flash: its blocks count as such from now on; where nothing was added since, its running parity is no longer dirty either (R270). -/
def spilled (key row : Nat) (d : Dev) : Dev :=
  if 0 < owed d (.spill key) then d else
  let st := stripeAt d (key / 65536) (key % 65536)
  let mine := st.blocks.filterMap id
  let d := { d with clo := { d.clo with buf := tmap d.clo.buf fun i b => if mine.contains i ∧ b.at_.isSome then { b with spilled := true } else b } }
  if !thas d.med.stripes key then d
  else record (.spill key (some row) (spillStripe d row mine)) { d with med := { d.med with stripes := tset d.med.stripes key { st with spilled := st.spilling, spilling := false } } }

/-- Blocks that only a rescue row holds and that belong to no stripe spilled now: what a start took in and has not programmed yet. -/
def looseSpills (d : Dev) : Bool := d.clo.buf.any fun b => b.2.spilled && decide (b.2.plot ≠ 16384) && !(d.maps.spills.any fun s => (stripeAt d (s.1 / 65536) (s.1 % 65536)).blocks.contains (some b.1))

/-- The spills of a slot whose zone is reset are needed no more (R271). -/
def dropSpills (row slot : Nat) (d : Dev) : Dev :=
  forAll ((d.maps.spills.filter fun e => decide (e.1 / 65536 = row) && decide ((stripeAt d row (e.1 % 65536)).slot = slot)).map (·.1))
    (fun k d => record (.spill k none 0) (onStripe row (k % 65536) (fun st => { st with spilled := false }) d)) d

/-- A rescue row that held spills is erased again once none of them is needed (R271, R236): background erases ahead of any other. -/
def rescueDrain (d : Dev) : Dev :=
  forAll ((rescueRows d).filter fun e => decide (0 < e.2.valid) && !(d.maps.spills.any fun s => decide (s.2 = e.1)) && !looseSpills d &&
      !(d.alm.ops.any fun o => decide (o.2.row = e.1) && match o.2.work with | .spill _ => true | _ => false))
    (fun e d =>
      let d := record (.row e.1 (some { e.2 with valid := 0, assigned := [[]] })) d
      let d := { d with med := { d.med with toErase := d.med.toErase ++ (e.2.pos.filter fun p => !d.med.toErase.contains p) } }
      forAll e.2.pos (fun p => queueErase p.1 p.2 7) d) d

end Sys2Proof.Machine
end

