-- ==== Sys2Proof/Machine/HlLine.lean ====
section
/-!
DEFINITION. The line coding of a Herarn lane (spec/10_herarn_links.md R331-R334): 130-bit blocks with their sync headers, the additive scrambler, the block types, SKP blocks,
and the FS, FE and LCTL blocks a sender makes (R337-R339). A block is its 2-bit sync header, bit 0 sent first, with its 16 bytes.
-/

namespace Sys2Proof.Machine

/-! ### The scrambler (R332) -/

/-- The scrambler's seed (R332). -/
def scrSeed : BitVec 23 := 0x5AC3E1#23

/-- DESIGN CHOICE (notes/assumptions/69.md): the output is the last of the 23 stages. R332 gives the polynomial and the seed, not the stage that is the output. -/
def scrBit (s : BitVec 23) : Bool := s.getLsbD 22

/-- One step by x^23 + x^18 + 1. DESIGN CHOICE (notes/assumptions/69.md): stages shift towards bit 22 and stages 23 and 18 are fed back. -/
def scrStep (s : BitVec 23) : BitVec 23 := (s <<< 1) ||| (if s.getLsbD 22 != s.getLsbD 17 then 1#23 else 0#23)

/-- The register after n steps. -/
def scrRun : Nat → BitVec 23 → BitVec 23
  | 0, s => s
  | n + 1, s => scrRun n (scrStep s)

/-- The next eight outputs, the first in bit 0 (R331: least significant bit first), and the register after. -/
def scrByte (s : BitVec 23) : Byte × BitVec 23 :=
  (List.range 8).foldl (fun (a : Byte × BitVec 23) i => (if scrBit a.2 then a.1 ||| BitVec.ofNat 8 (2 ^ i) else a.1, scrStep a.2)) (0#8, s)

/-- Scramble bytes, or descramble them: the same operation. -/
def scrBytes : BitVec 23 → List Byte → List Byte × BitVec 23
  | s, [] => ([], s)
  | s, b :: t => let k := scrByte s; let r := scrBytes k.2 t; ((b ^^^ k.1) :: r.1, r.2)

/-! ### Blocks (R331, R333) -/

/-- Sync headers: 0b01 a data block, 0b10 a control block (R331). -/
def hdrData : Nat := 1
def hdrCtl : Nat := 2

/-- Block types, byte 0 of a control block (R333). -/
def btFs : Byte := 0x1E#8
def btFe : Byte := 0x2D#8
def btLctl : Byte := 0x4B#8
def btSkp : Byte := 0x78#8
def btIdle : Byte := 0x87#8
def btTs1 : Byte := 0xB4#8
def btTs2 : Byte := 0xD2#8
def btFab : Byte := 0xE1#8

/-- Control blocks scrambled in bytes 1-15 (R332). -/
def scrambledTypes : List Byte := [btFs, btFe, btLctl, btIdle, btFab]
/-- Control blocks not scrambled, over which the scrambler does not advance (R332). -/
def plainTypes : List Byte := [btSkp, btTs1, btTs2]

/-- Scramble or descramble one valid block: all of a data block, bytes 1-15 of a scrambled control block, nothing of the others (R332). -/
def scrBlk (s : BitVec 23) (b : Nat × List Byte) : (Nat × List Byte) × BitVec 23 :=
  if b.1 = hdrData then let r := scrBytes s b.2; ((b.1, r.1), r.2)
  else match b.2 with
    | ty :: rest => if scrambledTypes.contains ty then let r := scrBytes s rest; ((b.1, ty :: r.1), r.2) else (b, s)
    | [] => (b, s)

/-- What a receiver makes of a block: data, a control block, an SKP to be removed (R334), or a sync error: an invalid header (R331), or an unknown type (R333). -/
inductive LineBlk where
  | data (bytes : List Byte)
  | ctl (bytes : List Byte)
  | skp
  | bad (header : Bool)
  deriving DecidableEq, Repr

/-- Read one block. DESIGN CHOICE (notes/assumptions/69.md): over a block with an invalid header the descrambler advances as over a data block, over a control block of an unknown type as over
a scrambled control block; the spec says neither. -/
def lineIn (s : BitVec 23) (b : Nat × List Byte) : LineBlk × BitVec 23 :=
  if b.1 = hdrData then let r := scrBlk s b; (.data r.1.2, r.2)
  else if b.1 ≠ hdrCtl then (.bad true, scrRun 128 s)
  else match b.2 with
    | [] => (.bad false, s)
    | ty :: _ =>
      if ty = btSkp then (.skp, s)
      else if (scrambledTypes ++ plainTypes).contains ty then let r := scrBlk s b; (.ctl r.1.2, r.2)
      else (.bad false, scrRun 120 s)

/-- Read a run of blocks. -/
def lineAll : BitVec 23 → List (Nat × List Byte) → List LineBlk × BitVec 23
  | s, [] => ([], s)
  | s, b :: t => let r := lineIn s b; let q := lineAll r.2 t; (r.1 :: q.1, q.2)

/-- The block of a run at which block lock is lost: the eighth with an invalid header within 64 consecutive blocks (R335). -/
def lockEnd (bs : List LineBlk) : Option Nat :=
  (List.range bs.length).find? fun i => decide (8 ≤ (((bs.take (i + 1)).drop (i + 1 - 64)).filter fun b => decide (b = .bad true)).length)

/-! ### Sending blocks (R334) -/

/-- An SKP block: bytes 1-15 zero (R334). -/
def skpBlk : Nat × List Byte := (hdrCtl, btSkp :: List.replicate 15 0#8)
/-- An IDLE block before scrambling (R333). -/
def idleBlk : Nat × List Byte := (hdrCtl, btIdle :: List.replicate 15 0#8)

/-- Send one block: scrambled, and after every 256 other blocks an SKP block (R334). -/
def lineBlk (q : HSeq) (b : Nat × List Byte) : List (Nat × List Byte) × HSeq :=
  let r := scrBlk q.txScr b
  if q.txBlks + 1 = 256 then ([r.1, skpBlk], { q with txScr := r.2, txBlks := 0 }) else ([r.1], { q with txScr := r.2, txBlks := q.txBlks + 1 })

/-- Send blocks one after the other. -/
def lineSend : HSeq → List (Nat × List Byte) → List (Nat × List Byte) × HSeq
  | q, [] => ([], q)
  | q, b :: t => let r := lineBlk q b; let x := lineSend r.2 t; (r.1 ++ x.1, x.2)

/-- The blocks that go out on a link for some unscrambled blocks, after the IDLE blocks sent meanwhile, whose number the model leaves free (notes/assumptions/69.md). -/
def lineOut (l : Nat) (q : HSeq) (bs : List (Nat × List Byte)) : List (Nat × List Byte) × HSeq :=
  lineSend ((List.replicate (Config.idleBlocks l q.txDraw) idleBlk).foldl (fun q b => (lineBlk q b).2) { q with txDraw := q.txDraw + 1 }) bs

/-! ### The blocks of frames and of link control (R336-R339) -/

/-- The last frame accepted in sequence, as ACK_SEQ names it (R343). -/
def ackSeq (q : HSeq) : Nat := (q.rxSeq + 65535) % 65536

/-- A payload filled to whole blocks: LEN is a multiple of 16 (R336). -/
def pad16 (l : List Byte) : List Byte := l ++ List.replicate ((16 - l.length % 16) % 16) 0

/-- An FS block, its HCRC last (R337). -/
def fsBytes (f : HlFrame) : List Byte :=
  let b := btFs :: leBytes 1 (f.kind % 8 + 8 * (f.target % 8)) ++ leBytes 2 f.seq ++ leBytes 2 (pad16 f.pay).length ++ leBytes 1 f.otag ++ [0] ++ leBytes 4 f.offset ++ [0, 0]
  b ++ leBytes 2 (crc16 b)

/-- An FE block from the device: ACK_V with the cumulative acknowledgement, CREDIT 0, FCRC (R338). -/
def feBytes (q : HSeq) (fs pay : List Byte) : List Byte :=
  let b := btFe :: leBytes 1 1 ++ leBytes 2 (ackSeq q) ++ List.replicate 8 0#8
  b ++ leBytes 4 (crc32c (fs ++ pay ++ b))

/-- An LCTL block from the device: CODE, ACK_SEQ, CREDIT 0, CRC (R339). -/
def lctlBytes (q : HSeq) (code : Nat) : List Byte :=
  let b := btLctl :: leBytes 1 code ++ leBytes 2 (ackSeq q) ++ List.replicate 8 0#8
  b ++ leBytes 4 (crc32c b)

/-- A list cut into pieces of 16 bytes. -/
def cut16 (l : List Byte) : List (List Byte) := (List.range (cdiv l.length 16)).map fun i => slice l (16 * i) 16

/-- The blocks of a frame: FS, its data blocks, FE (R336). -/
def frameBlks (q : HSeq) (f : HlFrame) : List (Nat × List Byte) :=
  (hdrCtl, fsBytes f) :: (cut16 (pad16 f.pay)).map (fun c => (hdrData, c)) ++ [(hdrCtl, feBytes q (fsBytes f) (pad16 f.pay))]

/-- The block of a link-control message. -/
def lctlBlks (q : HSeq) (code : Nat) : List (Nat × List Byte) := [(hdrCtl, lctlBytes q code)]

end Sys2Proof.Machine
end

