-- ==== Sys2Proof/Machine/HlCore.lean ====
section
/-!
DEFINITION. The sending side of a Herarn link (spec/10_herarn_links.md): frames in sequence with at most 16 unacknowledged (R342), DOUT credit (R363), replay
(R345, R346, R349), parking and waking (R356-R358), command frames (R359-R361) and resets (R367).
-/

namespace Sys2Proof.Machine

def linkAt (d : Dev) (l : Nat) : HLink := tgetD d.hl.links l {}
def seqAt (d : Dev) (l : Nat) : HSeq := tgetD d.hl.seqs l {}
def onLink (l : Nat) (f : HLink → HLink) (d : Dev) : Dev := { d with hl := { d.hl with links := tset d.hl.links l (f (linkAt d l)) } }
def onSeq (l : Nat) (f : HSeq → HSeq) (d : Dev) : Dev := { d with hl := { d.hl with seqs := tset d.hl.seqs l (f (seqAt d l)) } }

/-- A link that the configuration has (R2). -/
def linkPresent (d : Dev) (l : Nat) : Bool := decide (l < 8 * linkGroups d)

/-- State names of HL_LSTAT. -/
def lsDown : Nat := 0
def lsTraining : Nat := 1
def lsActive : Nat := 2
def lsRetrain : Nat := 3
def lsP1 : Nat := 4
def lsP2 : Nat := 5
def lsFailed : Nat := 6

/-- Blocks go out on a lane (R331-R334). -/
def lineTo (l : Nat) (bs : List (Nat × List Byte)) (d : Dev) : Dev :=
  let r := lineOut l (seqAt d l) bs
  onSeq l (fun q => { q with txScr := r.2.txScr, txBlks := r.2.txBlks, txDraw := r.2.txDraw }) { d with io := { d.io with line := d.io.line ++ r.1.map fun b => (l, b) } }

/-- The first block after the SKP that ends training: both scramblers stand at the seed, and no frame is in reception (R332, R352). -/
def seedLine (q : HSeq) : HSeq := { q with rxScr := scrSeed, txScr := scrSeed, txBlks := 0, rxPart := none }

/-! ### Retraining and waking -/

/-- Reads on their way over a link note what befalls it (R208). -/
def onReads (l : Nat) (f : DieOp → DieOp) (d : Dev) : Dev :=
  { d with alm := { d.alm with ops := tmap d.alm.ops fun _ o => if linkOf o.die = l ∧ o.sent ∧ o.kind = .readPage then f o else o } }

/-- Begin a fast retrain (R349, R350): sequence, credit and operations stay. The retrain is counted, with its time (R368). -/
def fastRetrain (l t : Nat) (d : Dev) : Dev :=
  send (.linkAct l 1) (onReads l (fun o => { o with retrains := o.retrains + 1 }) <| onSeq l (fun q => { q with phaseAt := t, rxPart := none, retrainAt := (q.retrainAt.filter fun x => decide (t < x + 1000000000)) ++ [t], sameReplay := 0 })
    (onLink l (fun k => { k with st := lsRetrain, retrains := satInc 8 k.retrains }) d))

/-- Begin a full training (R350). -/
def fullTraining (l t : Nat) (d : Dev) : Dev :=
  send (.linkAct l 2) (onSeq l (fun q => { q with phaseAt := t, pll := 0, parking := false, rxPart := none }) (onLink l (fun k => { k with st := lsTraining, locked := false }) d))

/-- Commands with a read outstanding on a link group's dies. -/
def groupCmds (d : Dev) (g : Nat) : List Nat :=
  ((d.alm.ops.filter fun e => decide (lgOf e.2.die = g)).flatMap fun e => e.2.jobs.filterMap fun j => (tget d.alm.jobs j).map (·.cmd)).eraseDups

/-- A link is wanted while its group is on its way into P2 (R467, R468). The commands it delays are marked. True: the link waits for the end of the entry. -/
def groupEntering (g t : Nat) (d : Dev) : Bool × Dev := match parkRun d (.lg g) with
  | none => (false, d)
  | some r =>
    let d := forAll (groupCmds d g) (fun i => onCmd i fun c => { c with dp := if c.dp = 0 then 2 else c.dp }) d
    let r' := wakeRun t (decide (d.id.variant = .z9H)) r
    if r'.leaving then (false, onPwr (fun p => { p with parking := p.parking.filter fun x => decide (x.unit ≠ .lg g) }) d)
    else (true, onPwr (fun p => { p with parking := p.parking.map fun x => if x.unit = .lg g then r' else x }) d)

/-- Leave P1 or P2 by sending TS1 (R358); the group's power returns with it (R465). Exit proceeds as a fast retrain, which R358 does not count among the retrains of R349. -/
def wakeLink (l t : Nat) (d : Dev) : Dev :=
  let k := linkAt d l
  if k.st = lsP1 ∨ k.st = lsP2 then
    let e := groupEntering (l / 8) t d
    if e.1 then e.2 else
    let d := e.2
    let d := send (.linkAct l 0) (onSeq l (fun q => { q with phaseAt := t, parking := false, waking := true, pll := if k.st = lsP2 then 20000 else 0 }) (onLink l (fun k => { k with st := lsRetrain }) d))
    { d with hl := { d.hl with groupIdle := tdel d.hl.groupIdle (l / 8) }, pwr := { d.pwr with lgParked := d.pwr.lgParked.filter fun g => decide (g ≠ l / 8) } }
  else d

/-! ### Sending frames -/

/-- CMD 0, DOUT 1, DIN 2, RSP 3 (R337). -/
def kCmd : Nat := 0
def kDout : Nat := 1
def kDin : Nat := 2
def kRsp : Nat := 3

/-- consumed + 1 ≤ limit modulo 65,536 (R363). -/
def doutOk (q : HSeq) : Bool := decide ((q.doutLimit + 65536 - (q.doutUsed + 1) % 65536) % 65536 < 32768)

/-- The first queued frame that may go: a command, or a DOUT frame while credit lasts (DOUT frames keep their order), and what stays. -/
def nextFrame (credit : Bool) : List HlFrame → Option (HlFrame × List HlFrame)
  | [] => none
  | f :: t => if f.kind = kDout ∧ !credit then (match nextFrame credit t with | some (g, r) => some (g, f :: r) | none => none) else some (f, t)

/-- A frame goes out with the SEQ it has (R336-R338). -/
def frameTo (l : Nat) (f : HlFrame) (d : Dev) : Dev :=
  lineTo l (frameBlks (seqAt d l) f) (send (.herarn l f.kind f.target f.seq f.len f.otag f.offset f.pay) d)

/-- Send one frame with the next SEQ, into the replay buffer (R342). -/
def hlSendOne (l : Nat) (d : Dev) : Dev :=
  let q := seqAt d l
  if (linkAt d l).st ≠ lsActive ∨ q.parking ∨ 16 ≤ q.unacked.length then d else match nextFrame (doutOk q) q.queue with
  | none => d
  | some (f, rest) =>
    let f := { f with seq := q.txSeq }
    frameTo l f (onSeq l (fun q => { q with
      queue := rest, unacked := q.unacked ++ [f], txSeq := (q.txSeq + 1) % 65536,
      doutUsed := if f.kind = kDout then (q.doutUsed + 1) % 65536 else q.doutUsed,
      replayFrom := if q.unacked = [] then d.io.now else q.replayFrom }) d)

/-- Send what may go. -/
def hlPump (l : Nat) (d : Dev) : Dev := (List.range (min 16 (seqAt d l).queue.length)).foldl (fun d _ => hlSendOne l d) d

/-- Queue a frame for a link; a parked link is woken (R356, R358). -/
def hlEnqueue (l : Nat) (f : HlFrame) (d : Dev) : Dev := hlPump l (wakeLink l d.io.now (onSeq l (fun q => { q with queue := q.queue ++ [f] }) d))

/-- Send the frames of a list again, with their SEQ. -/
def hlResend (l : Nat) (fs : List HlFrame) (d : Dev) : Dev := forAll fs (frameTo l) d

/-- Replay every unacknowledged frame (R345, R346); the fourth replay of one oldest frame is a fast retrain instead (R349). -/
def hlReplay (l t : Nat) (d : Dev) : Dev :=
  let q := seqAt d l
  if q.unacked = [] ∨ (linkAt d l).st ≠ lsActive then d
  else if 3 ≤ q.sameReplay then fastRetrain l t d
  else hlResend l q.unacked (onReads l (fun o => { o with replays := o.replays + 1 }) <| onLink l (fun k => { k with replays := satInc 16 k.replays })
    (onSeq l (fun q => { q with sameReplay := q.sameReplay + 1, replayFrom := t }) d))

/-- Is SEQ a at or before b, modulo 65,536, within half the circle? -/
def seqLe (a b : Nat) : Bool := decide ((b + 65536 - a % 65536) % 65536 < 32768)

/-- Apply a cumulative acknowledgement (R342): frames up to it leave the replay buffer, and an ACK that advances restarts the replay timer. -/
def hlAckTo (l ack t : Nat) (d : Dev) : Dev :=
  let q := seqAt d l
  let left := q.unacked.filter fun f => !seqLe f.seq ack
  if left.length = q.unacked.length then d
  else hlPump l (onSeq l (fun q => { q with unacked := left, sameReplay := 0, replayFrom := t, idleFrom := t }) d)

/-- Raise the DOUT credit limit (R363). -/
def hlCredit (l credit : Nat) (d : Dev) : Dev := hlPump l (onSeq l (fun q => { q with doutLimit := if seqLe q.doutLimit credit then credit else q.doutLimit }) d)

/-! ### Commands (R359-R361) -/

/-- Opcodes of die operations (R360). -/
def opRead : Nat := 1
def opReadOfs : Nat := 2
def opProgram : Nat := 3
def opErase : Nat := 4
def opSuspend : Nat := 5
def opResume : Nat := 6
def opStatus : Nat := 7
def opGeometry : Nat := 8
def opBadmap : Nat := 9
def opReset : Nat := 0xC

/-- The 48 bytes of a command (R359). -/
def cmdBytes (opc planes : Nat) (slc all : Bool) (bed page npage xtag column length : Nat) (ofs : List Byte) : List Byte :=
  leBytes 1 opc ++ leBytes 1 (planes + 16 * b2n slc + 32 * b2n all) ++ leBytes 2 bed ++ leBytes 2 page ++ [0] ++ leBytes 1 npage ++ leBytes 1 xtag ++
  [0, 0, 0] ++ leBytes 4 column ++ leBytes 4 length ++ List.replicate 12 0 ++ (ofs ++ List.replicate (15 - ofs.length) 0).take 15 ++ [0]

/-- The lowest OTAG free on a link; 0xFF is never used (R361). -/
def freeOtag (q : HSeq) : Nat := tfree q.ops 0

/-- Operations outstanding for a target and for the link (R361). -/
def targetOps (q : HSeq) (target : Nat) : Nat := tcount q.ops fun _ o => decide (o.target = target)
def hlRoom (d : Dev) (l target : Nat) : Bool := decide ((seqAt d l).ops.length < 32) && decide (targetOps (seqAt d l) target < 4)

/-- Send a command, and answer its OTAG. -/
def hlCommand (l target opc : Nat) (op : Option Nat) (bytes : List Byte) (d : Dev) : Nat × Dev :=
  let otag := freeOtag (seqAt d l)
  let o : HlOp := { opc := opc, target := target, op := op, sentAt := d.io.now, pausedFor := 0, pausedAt := none, din := 0, data := [], all := decide (opc = opReset) && bit (leAt bytes 1 1) 5 }
  (otag, hlEnqueue l { kind := kCmd, target := target, seq := 0, len := 48, otag := otag, offset := 0, pay := bytes }
    (onSeq l (fun q => { q with ops := tset q.ops otag o }) d))

/-- Queue the DOUT frames of a program, 1,024 bytes each but the last, in OFFSET order (R363). -/
def hlData (l target otag : Nat) (data : List Byte) (d : Dev) : Dev :=
  forAll (List.range (cdiv data.length 1024)) (fun i => hlEnqueue l
    { kind := kDout, target := target, seq := 0, len := ((data.drop (1024 * i)).take 1024).length, otag := otag, offset := 1024 * i, pay := (data.drop (1024 * i)).take 1024 }) d

/-- A command without an Almanac operation. -/
def hlPlain (l target opc : Nat) (d : Dev) : Dev := (hlCommand l target opc none (cmdBytes opc 0 false false 0 0 0 0 0 0 []) d).2

/-- RESET a target (R367, R368). -/
def hlReset (l target : Nat) (d : Dev) : Dev := hlPlain l target opReset d

/-- The OTAG under which an Almanac operation is outstanding on a link. -/
def otagOf (d : Dev) (l op : Nat) : Option Nat :=
  (tfind (seqAt d l).ops fun _ o => decide (o.op = some op) && decide (o.opc ≠ opSuspend) && decide (o.opc ≠ opResume)).map (·.1)

/-- HL_CFG fields (R368, R369), with their clamps. -/
def cfgOptmo (d : Dev) : Nat := clampN 10 1000 (fld (rd d 0x58000) 0 16)
def cfgRtmax (d : Dev) : Nat := max 4 (fld (rd d 0x58000) 16 8)
def cfgRetry (d : Dev) : Nat := zeroAsOne (fld (rd d 0x58000) 24 8)

/-- An acknowledgement or a NAK sent: an LCTL block with the last frame accepted (R343, R344). -/
def hlAckOut (l code : Nat) (d : Dev) : Dev := lineTo l (lctlBlks (seqAt d l) code) (send (.lctl l code (((seqAt d l).rxSeq + 65535) % 65536)) d)

end Sys2Proof.Machine
end

