-- ==== Sys2Proof/Machine/Flags.lean ====
section
/-!
DEFINITION. The flags and figures of a completion: EW, RC, CB, DP, SD, HT (R96), SVC (R97), XSTAT (R99), accord targets (R69),
misses and their reasons (R215, R216), and the service-time buckets (R218).
-/

namespace Sys2Proof.Machine

/-- Read target and write-acknowledgement target of a latency class, µs (R69); L7 has none. -/
def targets : Nat → Option (Nat × Nat)
  | 0 => some (350, 40) | 1 => some (500, 60) | 2 => some (750, 100) | 3 => some (1000, 150)
  | 4 => some (2000, 250) | 5 => some (5000, 500) | 6 => some (10000, 1000) | _ => none

/-- Does an opcode count as a read, or as a write (R97)? -/
def isReadOpc (o : Nat) : Bool := decide (o = 0x01) || decide (o = 0x06)
def isWriteOpc (o : Nat) : Bool := decide (o = 0x02) || decide (o = 0x03) || decide (o = 0x05)

/-- SVC: from the descriptor's arrival to the hand-over of the completion, rounded up to µs, saturating (R97). -/
def svcOf (c : Cmd) (t : Nat) : Nat := min 0xFFFF (cdiv (t - c.arrived) 1000)

/-- Does a completion miss its accord target (R69, R215)? -/
def missed (c : Cmd) (svc : Nat) : Bool := match targets c.lat with
  | none => false
  | some (r, w) =>
    if isReadOpc (dOpc c.desc) then decide (r < svc) else if isWriteOpc (dOpc c.desc) then decide (w < svc) else false

/-- Time a reason contributed. -/
def causeTime (cs : List (Nat × Nat)) (r : Nat) : Nat := (cs.filter fun e => decide (e.1 = r)).foldl (fun a e => a + e.2) 0

/-- The reason that contributed the most time; equal contributions name the lower value; none: the tenant's own load (R216). -/
def topCause (cs : List (Nat × Nat)) : Nat :=
  let best := [1, 2, 3, 4, 5, 6, 7, 8, 9, 0xB].foldl
    (fun (a : Nat × Nat) r => if a.2 < causeTime cs r then (r, causeTime cs r) else a) (0, 0)
  if best.2 = 0 then 0xA else best.1

/-- CB_REASON (R99, R216): a write that waited for the hold-up budget names 0x03. -/
def cbReason (c : Cmd) : Nat := if isWriteOpc (dOpc c.desc) ∧ c.dp = 1 then 3 else topCause c.causes

/-- FLAGS of a completion (R95, R96). -/
def flagsOf (c : Cmd) (cb : Bool) : Nat :=
  b2n c.ew + 2 * b2n c.rc + 4 * b2n cb + 8 * b2n (decide (c.dp ≠ 0)) + 16 * b2n c.sd + 32 * b2n c.ht

/-- XSTAT of a completion (R99). -/
def xstatOf (c : Cmd) (cb : Bool) : Nat := (if cb then cbReason c else 0) + 2 ^ 8 * c.dp + 2 ^ 16 * c.field

/-- The 32 bytes of a completion as a number (R95). -/
def completionBytes (c : Cmd) (svc : Nat) (cb phase : Bool) : Nat :=
  dTag c.desc + 2 ^ 16 * c.status.code + 2 ^ 32 * flagsOf c cb + 2 ^ 48 * c.sqhd + 2 ^ 64 * c.result.toNat +
  2 ^ 128 * c.sq + 2 ^ 144 * svc + 2 ^ 160 * xstatOf c cb + 2 ^ 248 * b2n phase

/-- The histogram bucket of a service time (R218). -/
def bucket (svc : Nat) : Nat :=
  if svc ≤ 1 then 0 else 4 * Nat.log2 svc + ((svc <<< 2) >>> Nat.log2 svc) % 4

end Sys2Proof.Machine
end

