-- ==== Sys2Proof/Machine/SmtCore.lean ====
section
/-!
DEFINITION. The sending side of Smiast (spec/04_smiast_transport.md): headers (R138), sealing (R140, R141), what may be sent now (R150, R155, R158,
R164), RREQs and the allowance (R144, R147, R160), control packets (R156), and the buffers that hold unacknowledged packets (R115, R155).
-/

namespace Sys2Proof.Machine

def onConn (i : Nat) (f : Conn → Conn) (d : Dev) : Dev := { d with smt := { d.smt with conns := tmod d.smt.conns i f } }

/-- The connection id (R124). -/
def connId (i : Nat) (k : Conn) : Nat := i + 2 ^ 18 * k.gen

/-- Payload bytes of a connection's packets (R125). -/
def psizeOf (k : Conn) : Nat := 1024 * 2 ^ k.psize

/-- UDP_PORT; 0 counts as 7190 (R122). -/
def udpPort (d : Dev) : Nat := let v := fld (rd d 0x20000) 0 16; if v = 0 then 7190 else v

/-- Is a peer an IPv4 address, as ::ffff:a.b.c.d (R125)? -/
def isV4 (ip : Nat) : Bool := decide (ip / 2 ^ 32 = 0xFFFF)

/-- The interface's own IPv4 and IPv6 addresses (R122, R14). -/
def ifV4 (d : Dev) (i : Nat) : Nat := rd d (0x21008 + 0x40 * i)
def ifV6 (d : Dev) (i : Nat) : Nat := (tgetD d.smt.ipv6 i 0).toNat

/-- The ones' complement sum of 16-bit words. -/
def onesSum (l : List Byte) : Nat :=
  let rec go : List Byte → Nat
    | a :: b :: t => a.toNat * 256 + b.toNat + go t
    | [a] => a.toNat * 256
    | [] => 0
  go l

/-- Fold carries and complement; a result of 0 is sent as all ones. -/
def foldSum (v : Nat) : Nat :=
  let f := fun v => v % 65536 + v / 65536
  let r := 65535 - f (f (f v))
  if r = 0 then 65535 else r

/-- The UDP checksum of a datagram (R123), over the pseudo-header of the family in use. -/
def udpChecksum (src dst sport dport : Nat) (pay : List Byte) : Nat :=
  let n := if isV4 dst then 4 else 16
  let len := 8 + pay.length
  foldSum (onesSum (beBytes n src) + onesSum (beBytes n dst) + 17 + len + sport + dport + len + onesSum pay)

/-- The 802.1Q tag of an interface (R121, SMT_IF_CFG): priority and VLAN; IP MTU, clamped to 1,280-9,216. -/
def ifTag (d : Dev) (i : Nat) : Option Nat :=
  let v := rd d (0x21020 + 0x40 * i)
  if bit v 12 then some (fld v 13 3 * 8192 + fld v 0 12) else none
def ifMtu (d : Dev) (i : Nat) : Nat := clampN 1280 9216 (fld (rd d (0x21020 + 0x40 * i)) 16 14)

/-- Bytes of the IP packet that carries a datagram of n bytes: 48 bytes of Smiast header and tag are within n (R123). -/
def ipBytes (peer n : Nat) : Nat := n + 8 + (if isV4 peer then 20 else 40)

/-- Is an interface's link up (SMT_IF_STATUS)? -/
def ifUp (d : Dev) (i : Nat) : Bool := decide (tgetD d.smt.links i 0 ≠ 0)

/-- Send the bytes of a packet to the peer (R121-R123); nothing leaves an interface whose link is down, nor an IP packet longer than its MTU. -/
def smtEmit (k : Conn) (bytes : List Byte) (d : Dev) : Dev :=
  if !ifUp d k.iface || decide (ifMtu d k.iface < ipBytes k.peer bytes.length) then d else
  let src := if isV4 k.peer then ifV4 d k.iface else ifV6 d k.iface
  send (.smiast k.iface (ifTag d k.iface) k.nhMac k.peer k.port (udpPort d) k.dscp 2 64 (isV4 k.peer) (udpChecksum src k.peer (udpPort d) k.port bytes) bytes) d

/-- The header (R138), in network byte order; DIR is 1 from the device. -/
def smtHeader (ty flags kgen cid psn reqId addr rkey len seg : Nat) : List Byte :=
  beBytes 1 (16 + ty) ++ beBytes 1 (flags ||| 1) ++ beBytes 1 kgen ++ [0] ++ beBytes 4 cid ++ beBytes 4 psn ++
  beBytes 4 reqId ++ beBytes 8 addr ++ beBytes 4 rkey ++ beBytes 2 len ++ beBytes 2 seg

/-- The nonce (R140). -/
def smtNonce (salt space psn : Nat) : List Byte := beBytes 7 salt ++ beBytes 1 space ++ beBytes 4 psn

/-- A sealed packet: header, ciphertext, tag (R137, R140). -/
def smtSeal (key : BitVec 256) (salt space psn : Nat) (hdr pay : List Byte) : List Byte :=
  let s := gcmSeal key (smtNonce salt space psn) hdr pay
  hdr ++ s.1 ++ s.2

/-- The key of a generation the connection holds (R161, R162). -/
def keyOf (k : Conn) (kgen : Nat) : Option (BitVec 256) :=
  if kgen = k.kgen then k.key else match k.prevKey with
    | some (p, _) => if (kgen + 1) % 256 = k.kgen then some p else none
    | none => none

/-- Most packets sealed in a space under one key, and when a rekey is due (R164). -/
def sealLimit : Nat := 2 ^ 32 - 2 ^ 16
def sealDue : Nat := 2 ^ 31

/-- A count of packets sealed in a space that passes 2^31 writes one record and sets PSN_DUE (R164). -/
def rekeyDue (i space old new : Nat) (k : Conn) (d : Dev) : Dev :=
  if old < sealDue ∧ sealDue ≤ new then raise .smtRekeyDue [connId i k, space] (onConn i (fun k => { k with psnDue := true }) d) else d

/-- Bytes held for retransmission over all connections (R155). -/
def smtHeld (d : Dev) : Nat := d.smt.conns.foldl (fun a e => a + e.2.unacked.foldl (fun b p => b + p.pay.length) 0) 0

/-- Smiast types that spend a credit unit: WR (R158). -/
def spendsCredit (ty : Nat) : Bool := decide (ty = 4)

/-- consumed + 1 ≤ limit modulo 2^32 (R158). -/
def creditOk (used limit : Nat) : Bool := decide ((limit + 2 ^ 32 - (used + 1) % 2 ^ 32) % 2 ^ 32 < 2 ^ 31)

/-- The first timeout (R153), µs, in ns. -/
def rtoInit (d : Dev) : Nat := 1000 * clampN 2 1000 (fld (rd d 0x20004) 0 10)

/-- May the next queued data packet be sent: state, no RREQ in Closing (R129), window of 256 (R150), credit (R158), 4 GiB in all (R155), seals (R164), its own buffer granted (R115, R155)? -/
def canSend (d : Dev) (i : Nat) (k : Conn) (q : TxReq) : Bool :=
  (decide (k.st = .isOpen) || (decide (k.st = .closing) && decide (q.ty ≠ 2))) && k.key.isSome &&
  (match k.unacked.head? with | some p => decide ((k.txNext + 2 ^ 32 - p.psn) % 2 ^ 32 < 256) | none => true) &&
  (!spendsCredit q.ty || creditOk k.used k.limit) && decide (smtHeld d + q.pay.length ≤ 2 ^ 32) && decide (k.sealedTx < sealLimit) &&
  (d.bpm.granted.any fun g => decide (g.1 = .packet i q.ticket))

/-- Does a packet of a command's read data still wait to be sent (R148)? -/
def wrQueued (d : Dev) (id : Nat) : Bool := d.smt.conns.any fun e => e.2.queue.any fun q => decide (q.cmd = some id)

/-- The staging buffer of a command whose last packet has gone comes back (R115). -/
def stagingDone (cmd : Option Nat) (d : Dev) : Dev := match cmd with
  | some id => if wrQueued d id then d else freeBuffers (fun u => decide (u = .staging id)) d
  | none => d

/-- Send the first queued data-space packet if it may be sent. -/
def smtSendOne (i : Nat) (d : Dev) : Dev := match tget d.smt.conns i with
  | none => d
  | some k => match k.queue, k.key with
    | q :: rest, some key =>
      if !canSend d i k q then d else
        let hdr := smtHeader q.ty q.flags k.kgen (connId i k) k.txNext q.reqId q.addr q.rkey q.pay.length q.seg
        let p : TxPkt := { psn := k.txNext, ty := q.ty, hdr := hdr, pay := q.pay, kgen := k.kgen, timerFrom := d.io.now, rto := rtoInit d, retries := 0, retxAt := none, completes := q.completes, ticket := q.ticket }
        let d := touchPort (.eth (k.iface / 8)) d.io.now (smtEmit k (smtSeal key k.salt 1 k.txNext hdr q.pay) d)
        stagingDone q.cmd (rekeyDue i 1 k.sealedTx (k.sealedTx + 1) k (onConn i (fun k => { k with
          queue := rest, unacked := k.unacked ++ [p], txNext := (k.txNext + 1) % 2 ^ 32, sealedTx := k.sealedTx + 1,
          used := if spendsCredit q.ty then (k.used + 1) % 2 ^ 32 else k.used, lastTx := d.io.now }) d))
    | _, _ => d

/-- Send what may be sent. -/
def smtPump (i : Nat) (d : Dev) : Dev := match tget d.smt.conns i with
  | some k => (List.range k.queue.length).foldl (fun d _ => smtSendOne i d) d
  | none => d

/-- The smallest fitting pool with a free buffer. -/
def poolWith (d : Dev) (want : Nat) : Option (Nat × Nat) :=
  ((d.bpm.pools.zipIdx.filter fun e => decide (want ≤ e.2) && decide (e.1.free ≠ [])).head?).bind fun e => e.1.free.head?.map fun f => (e.2, f)

/-- Take a buffer out of a pool; a fallback counts against the pool asked for. -/
def takeFrom (want got : Nat) (ps : List Pool) : List Pool := ps.zipIdx.map fun e =>
  let p := if e.2 = got then { e.1 with free := e.1.free.tail } else e.1
  if e.2 = want ∧ got ≠ want then { p with fallback := satInc 32 p.fallback } else p

/-- The pool a request of n bytes fits: 512 B, 4 KiB, 16 KiB, 64 KiB, 1 MiB (R115). -/
def poolFor (n : Nat) : Nat := if n ≤ 512 then 0 else if n ≤ 4096 then 1 else if n ≤ 16384 then 2 else if n ≤ 65536 then 3 else 4

/-- Ask for a buffer: the request waits in arrival order (R115). -/
def askBuffer (n : Nat) (u : BufUser) (d : Dev) : Dev := { d with bpm := { d.bpm with waiting := d.bpm.waiting ++ [(poolFor n, u)] } }

/-- Queue a data-space packet under the next ticket; it is sent once its buffer is granted. -/
def smtEnqueue (i : Nat) (q : TxReq) (d : Dev) : Dev := match tget d.smt.conns i with
  | none => d
  | some k => askBuffer q.pay.length (.packet i k.nextTicket)
      (onConn i (fun k => { k with queue := k.queue ++ [{ q with ticket := k.nextTicket }], nextTicket := k.nextTicket + 1 }) d)

/-- Segments of P bytes (R146, R148). -/
def segments (p : Nat) (l : List Byte) : List (List Byte) := (List.range (cdiv l.length p)).map fun s => (l.drop (p * s)).take p

/-- Write bytes to remote memory: WR packets, LAST on the last; fenced for a completion or telemetry slot (R148). FLAGS: [1] LAST, [2] FENCE. cmd: the command whose read data it is.
Nothing is sent in Failed and Shut (R130). -/
def smtWrite (i addr rkey : Nat) (fence : Bool) (l : List Byte) (completes cmd : Option Nat) (d : Dev) : Dev := match tget d.smt.conns i with
  | none => d
  | some k =>
    if k.st = .failed ∨ k.st = .shut then d else
    let segs := segments (psizeOf k) l
    let n := segs.length
    let d := onConn i (fun k => { k with nextReq := (k.nextReq + 1) % 2 ^ 32 }) d
    smtPump i (forAll segs.zipIdx (fun e d => smtEnqueue i
      { ty := 4, flags := (if e.2 + 1 = n then 2 else 0) + (if fence then 4 else 0), reqId := k.nextReq, addr := addr + e.2 * psizeOf k, rkey := rkey,
        pay := e.1, seg := e.2, completes := (if e.2 + 1 = n then completes else none), cmd := cmd } d) d)

/-- A completion or telemetry slot as fenced WR packets (R148). -/
def smtSendFenced (i addr rkey len bytes : Nat) (completes : Option Nat) (d : Dev) : Dev := smtWrite i addr rkey true (leBytes len bytes) completes none d

/-! ### Control packets (R152, R156) -/

/-- Units a read of n bytes will bring: one per segment. -/
def unitsOf (k : Conn) (n : Nat) : Nat := cdiv n (psizeOf k)

/-- Units requested and not yet received. -/
def unitsOut (k : Conn) : Nat := k.reqs.foldl (fun a e => a + (unitsOf k e.2.len - e.2.segs.length)) 0

/-- Send a control packet: ACK 5, CRED 6, KEEP 7, NAKC 9, sealed under the current key, numbered in the control sequence. -/
def smtControl (i ty flags : Nat) (pay : List Byte) (d : Dev) : Dev := match tget d.smt.conns i with
  | none => d
  | some k => match k.key with
    | none => d
    | some key =>
      if sealLimit ≤ k.sealedCtl ∨ k.st = .failed ∨ k.st = .shut then d else
        let hdr := smtHeader ty flags k.kgen (connId i k) k.ctlTx 0 0 0 pay.length 0
        let d := smtEmit k (smtSeal key k.salt 3 k.ctlTx hdr pay) d
        rekeyDue i 3 k.sealedCtl (k.sealedCtl + 1) k (onConn i (fun k => { k with ctlTx := (k.ctlTx + 1) % 2 ^ 32, sealedCtl := k.sealedCtl + 1, lastTx := d.io.now }) d)

/-- The SACK bytes: bit b of the 256 set when PSN cum + b has been received; bit 0 always 0 (R139). -/
def sackBytes (k : Conn) : List Byte :=
  leBytes 32 ((List.range 256).foldl (fun a b => if b ≠ 0 ∧ k.rxSet.contains ((k.rxCum + b) % 2 ^ 32) then a + 2 ^ b else a) 0)

/-- The credit limit granted: the client's consumed count plus the units of the outstanding RREQs; a limit granted is never lowered (R159, R160). -/
def grantOf (k : Conn) : Nat :=
  let g := (k.clientUsed + unitsOut k) % 2 ^ 32
  if (g + 2 ^ 32 - k.granted) % 2 ^ 32 < 2 ^ 31 then g else k.granted

/-- Send an ACK (R139, R152); CE_SEEN is reported once (R160). -/
def smtAck (i : Nat) (d : Dev) : Dev := match tget d.smt.conns i with
  | none => d
  | some k =>
    let delay := match k.ackFrom with | some f => min 0xFFFF ((d.io.now - f) / 100) | none => 0
    let pay := beBytes 4 k.rxCum ++ sackBytes k ++ beBytes 4 (grantOf k) ++ beBytes 4 k.ceCount ++ beBytes 2 delay ++ [0, 0]
    let d := smtControl i 5 (if k.ceSeen then 16 else 0) pay d
    onConn i (fun k => { k with ackDue := 0, ackFrom := none, gapFrom := none, ceSeen := false, granted := grantOf k, told := grantOf k }) d

/-- The grant has advanced by at least A / 4 units over what the client was last told, and no ACK is due: a CRED goes out (R160). -/
def smtCredCheck (i : Nat) (d : Dev) : Dev := match tget d.smt.conns i with
  | none => d
  | some k =>
    if k.st = .isOpen ∧ k.ackFrom.isNone ∧ k.gapFrom.isNone ∧ k.granted ≠ k.told ∧ cdiv k.window 4 ≤ (k.granted + 2 ^ 32 - k.told) % 2 ^ 32 then
      onConn i (fun k => { k with told := k.granted }) (smtControl i 6 0 (beBytes 4 k.granted) d)
    else d

/-! ### RREQs (R144-R147, R160) -/

/-- What a read of remote memory was for fails: the slots of a fetch come free; a command ends without effect, XSTAT.FIELD 0xFE (R100, R130, R146). -/
def failUse (u : ReqUse) (d : Dev) : Dev :=
  let failCmd := fun (id : Nat) (d : Dev) => match tget d.qm.cmds id with
    | some c => if c.stage = .done ∨ c.stage = .committed then d else finishField id 0xFE (cancel id d)
    | none => d
  match u with
  | .descs sq _ n => (match tget d.qm.sqs sq with | some r => endDeletion sq (onCq r.cq (fun q => { q with reserved := q.reserved - n }) d) | none => d)
  | .data id _ => failCmd id d
  | .tags id _ _ => failCmd id d
  | .list id => failCmd id d
  | .params id => failCmd id d

/-- The longest single RREQ: min(1 MiB, A x P) (R160). -/
def reqMax (k : Conn) : Nat := min 1048576 (k.window * psizeOf k)

/-- Later in the transfer: what remains of a request is for the bytes further on. -/
def useShift (u : ReqUse) (n : Nat) : ReqUse := match u with
  | .data c off => .data c (off + n)
  | .descs s f k => .descs s (f + n / 64) k
  | .tags c skip off => .tags c skip (off + n)
  | u => u

/-- Issue the first queued read if it may be issued (R147, R160), its head alone when it is longer than one RREQ may be. -/
def smtReqOne (i : Nat) (d : Dev) : Dev := match tget d.smt.conns i with
  | none => d
  | some k => match k.reqQueue with
    | [] => d
    | (u, addr, len, rkey) :: rest =>
      let n := min len (reqMax k)
      if k.st ≠ .isOpen ∨ 64 ≤ k.reqs.length ∨ k.window < unitsOut k + unitsOf k n then d else
        let rq : Req := { use := u, addr := addr, len := n, rkey := rkey, segs := [] }
        let d := onConn i (fun k => { k with
          reqQueue := if n < len then (useShift u n, addr + n, len - n, rkey) :: rest else rest,
          reqs := tset k.reqs k.nextReq rq, nextReq := (k.nextReq + 1) % 2 ^ 32,
          granted := (let g := (k.clientUsed + unitsOut k + unitsOf k n) % 2 ^ 32; if (g + 2 ^ 32 - k.granted) % 2 ^ 32 < 2 ^ 31 then g else k.granted) }) d
        smtPump i (smtEnqueue i { ty := 2, flags := 2, reqId := k.nextReq, addr := addr, rkey := rkey, pay := beBytes 4 n ++ [0, 0, 0, 0], seg := 0, completes := none } d)

/-- Issue what may be issued. -/
def smtReqPump (i : Nat) (d : Dev) : Dev := match tget d.smt.conns i with
  | some k => smtCredCheck i ((List.range (k.reqQueue.length + 64)).foldl (fun d _ => smtReqOne i d) d)
  | none => d

/-- Ask for a read of remote memory; on a connection that is no longer Open it fails at once (R129, R130). -/
def smtRead (i : Nat) (u : ReqUse) (addr len rkey : Nat) (d : Dev) : Dev := match tget d.smt.conns i with
  | some k => if k.st = .isOpen then smtReqPump i (onConn i (fun k => { k with reqQueue := k.reqQueue ++ [(u, addr, len, rkey)] }) d) else failUse u d
  | none => failUse u d

/-- Send what may be sent on every connection: buffers have come free (R155). -/
def smtPumpAll (d : Dev) : Dev := forAll (d.smt.conns.map (·.1)) smtPump d

/-- Completion slots free now in a ring (R76). -/
def slotsFree (d : Dev) (cq : Nat) : Nat := match tget d.qm.cqs cq with
  | some r => 2 ^ r.log2 - 1 - (r.widx + 2 ^ r.log2 - r.head) % 2 ^ r.log2 - r.reserved
  | none => 0

/-- Fetch descriptors of a Smiast ring (R144): up to 16 consecutive ones, not across the wrap, as many as slots are reserved for; the ring's head moves as
they arrive. -/
def smtFetch (sq : Nat) (r : SubRing) (i : Nat) (d : Dev) : Dev :=
  let size := 2 ^ r.log2
  let avail := if r.head ≤ r.tail then r.tail - r.head else size - r.head
  let n := min (min avail 16) (slotsFree d r.cq)
  let busy := match tget d.smt.conns i with
    | some k => (k.reqs.any fun e => match e.2.use with | .descs s _ _ => decide (s = sq) | _ => false) ||
                (k.reqQueue.any fun e => match e.1 with | .descs s _ _ => decide (s = sq) | _ => false)
    | none => true
  if decide (n = 0) || busy then d else
    smtRead i (.descs sq r.head n) (r.base + 64 * r.head) (64 * n) r.rkey
      { d with qm := { d.qm with cqs := tmod d.qm.cqs r.cq fun q => { q with reserved := q.reserved + n } } }

/-- The timers of the connections on a waking interface restart from their full period (R133). port: the Ethernet port, or all of them. -/
def restartTimers (port : Option Nat) (t : Nat) (d : Dev) : Dev :=
  { d with smt := { d.smt with conns := tmap d.smt.conns fun _ k => if port.any (fun n => decide (k.iface / 8 ≠ n)) then k else
      { k with
        unacked := k.unacked.map fun p => { p with timerFrom := t }
        ackFrom := k.ackFrom.map fun _ => t, gapFrom := k.gapFrom.map fun _ => t, closeAt := k.closeAt.map fun _ => t
        prevKey := k.prevKey.map fun p => (p.1, t)
        lastTx := t, lastRx := t, ecnAt := t } } }

end Sys2Proof.Machine
end

