-- ==== Sys2Proof/Machine/Rings.lean ====
section
/-!
DEFINITION. Command rings, doorbells and completions (spec/03_command_rings.md, spec/05_pcie_ports.md R169-R182): doorbells, the owner admin ring,
fetching, posting, interrupts, NOP, WAIT, ABORT, and the creation and deletion of rings.
-/

namespace Sys2Proof.Machine

/-! ### Rings -/

/-- A doorbell that is ignored is counted (R80). -/
def rejectDb (d : Dev) : Dev := { d with qm := { d.qm with dbReject := satInc 32 d.qm.dbReject } }

/-- A function may issue requests: its Bus Master Enable is set (R178). -/
def busMaster (d : Dev) (f : Nat) : Bool := d.pcx.master.contains f

/-- Completions written and not yet consumed. -/
def cqFull (r : CompRing) : Nat := (r.widx + 2 ^ r.log2 - r.head) % 2 ^ r.log2

/-- Free slots of a completion ring: as for a submission ring, an index equal to the head means empty, so one entry stays unused
(notes/assumptions/11.md). -/
def cqFree (r : CompRing) : Nat := 2 ^ r.log2 - 1 - cqFull r - r.reserved

/-- The owner admin ring may be served (R79, R180, R325). -/
def ownerServed (d : Dev) : Bool := d.qm.adminOn && !d.qm.adminErr && !d.qm.adminAwait

/-- A connection that still carries commands (R130). -/
def connOpen (d : Dev) (c : Nat) : Bool := match tget d.smt.conns (fld c 0 18) with
  | some k => decide (k.gen = fld c 18 8) && decide (k.st = .isOpen)
  | none => false

/-- May the device fetch from a submission ring (R76, R94, R101, R105, R130, R144, R176, R178)? -/
def canFetch (d : Dev) (i : Nat) : Bool := match tget d.qm.sqs i with
  | none => false
  | some r =>
    serving d && r.deleting.isNone && !r.halted && !r.fault && r.held.isNone && decide (r.head ≠ r.tail) &&
    (decide (i ≠ 0) || ownerServed d) &&
    (match r.bind with | .fn f => busMaster d f | .conn c => connOpen d c | .mailbox => true) &&
    (match tget d.qm.cqs r.cq with | some q => decide (1 ≤ cqFree q) && !q.halted | none => false)

/-! ### Doorbells (R80, R173, R182) -/

/-- A tail or head write that is valid for a ring bound to the writer. -/
def dbValid (b who : Bind) (halted : Bool) (log2 v : Nat) : Bool :=
  decide (b = who) && !halted && decide (v < 2 ^ log2)

/-- Set a submission ring's tail. The owner admin ring is served again at its first tail after Bus Master Enable (R180). -/
def setTail (i v : Nat) (d : Dev) : Dev :=
  let d := onSq i (fun r => { r with tail := v }) d
  if i = 0 ∧ busMaster d 0 then { d with qm := { d.qm with adminAwait := false } } else d

/-- A submission doorbell from a function, a connection or the mailbox. -/
def sqBell (who : Bind) (i v : Nat) (d : Dev) : Dev := match tget d.qm.sqs i with
  | some r => if dbValid r.bind who r.halted r.log2 v then setTail i v d else rejectDb d
  | none => rejectDb d

/-- A completion doorbell frees the slots up to its head (R76). -/
def cqBell (who : Bind) (i v : Nat) (d : Dev) : Dev := match tget d.qm.cqs i with
  | some r => if dbValid r.bind who r.halted r.log2 v then onCq i (fun r => { r with head := v }) d else rejectDb d
  | none => rejectDb d

/-- SQ_TAIL (R80): BAR2 page sq, bits [15:0]. -/
def execSqTail (fn sq : Nat) (v : Word) (t : Nat) (s : State) : Host.Outcome State Fault Refusal :=
  s.on fun d => onlyIf (mainUp d && pcxOn d (fn / 1024)) (fun d => wakeForCommand t (touchPort (.pcx (fn / 1024)) t (sqBell (.fn fn) sq (fld v.toNat 0 16) d))) (tick t d)

/-- CQ_HEAD (R80). -/
def execCqHead (fn cq : Nat) (v : Word) (t : Nat) (s : State) : Host.Outcome State Fault Refusal :=
  s.on fun d => onlyIf (mainUp d && pcxOn d (fn / 1024)) (fun d => wakeS2 t (touchPort (.pcx (fn / 1024)) t (cqBell (.fn fn) cq (fld v.toNat 0 16) d))) (tick t d)

/-- The completion count a function sees of a ring bound to it; 0 elsewhere (R173). -/
def countSeen (d : Dev) (fn cq : Nat) : Nat := match tget d.qm.cqs cq with
  | some r => if r.bind = .fn fn then r.count else 0
  | none => 0

/-- Is a completion ring bound to a function? -/
def boundTo (d : Dev) (fn cq : Nat) : Bool := match tget d.qm.cqs cq with
  | some r => decide (r.bind = .fn fn)
  | none => false

/-- CQ_COUNT_READ (R80): the low word latches the high word for the reading function, whose next read of the high word takes and releases the
latch; a 64-bit read returns both words of one instant. -/
def countRead (fn cq : Nat) (acc : CountAccess) (d : Dev) : Dev :=
  let k := fn * 65536 + cq
  let n := countSeen d fn cq
  match acc with
  | .both => send (.regRead (cq * 4096 + 0x810) (BitVec.ofNat 32 (n % 2 ^ 32)))
      d |> send (.regRead (cq * 4096 + 0x814) (BitVec.ofNat 32 (n / 2 ^ 32)))
  | .lo =>
    let d := send (.regRead (cq * 4096 + 0x810) (BitVec.ofNat 32 (n % 2 ^ 32))) d
    if boundTo d fn cq then { d with qm := { d.qm with countLatch := tset d.qm.countLatch k (BitVec.ofNat 32 (n / 2 ^ 32)) } } else d
  | .hi => match tget d.qm.countLatch k with
    | some w => send (.regRead (cq * 4096 + 0x814) w) { d with qm := { d.qm with countLatch := tdel d.qm.countLatch k } }
    | none => send (.regRead (cq * 4096 + 0x814) (BitVec.ofNat 32 (n / 2 ^ 32))) d

/-- CQ_COUNT_READ. -/
def execCqCountRead (fn cq : Nat) (acc : CountAccess) (s : State) : Host.Outcome State Fault Refusal :=
  s.on (onlyIf (mainUp s.dev && pcxOn s.dev (fn / 1024)) (countRead fn cq acc))

/-! ### The owner admin ring (R79) -/

/-- QM_ADMIN_CFG.LOC (R13). -/
def locMailbox (d : Dev) : Bool := ownerMgt d

/-- Ring sizes outside 4-12 are treated as 4 (R79). -/
def adminLog2 (v : Nat) : Nat := if 4 ≤ v ∧ v ≤ 12 then v else 4

/-- A 64-bit stored quantity. -/
def rd64 (d : Dev) (off : Nat) : Nat := rd d off + 2 ^ 32 * rd d (off + 4)

/-- Is a base that ENABLE needs zero (R79)? -/
def adminBaseZero (d : Dev) : Bool := decide (rd64 d 0x1000 = 0) || decide (rd64 d 0x1008 = 0)

/-- Start serving the owner admin ring with the present setup (R79, R328): the mailbox of 16 entries, or the rings in host memory; ERR for a zero
base. count: the completion count it starts with. -/
def adminSetup (count : Nat) (d : Dev) : Dev :=
  if !locMailbox d && adminBaseZero d then
    { d with qm := { d.qm with adminOn := false, adminErr := true } }
  else
    let b : Bind := if locMailbox d then .mailbox else .fn 0
    let sz := fun lo => if locMailbox d then 4 else adminLog2 (fld (rd d 0x1010) lo 4)
    let sq : SubRing := { admin := true, bind := b, base := rd64 d 0x1000, log2 := sz 0 }
    let cq : CompRing := { bind := b, base := rd64 d 0x1008, log2 := sz 8, vector := fld (rd d 0x1014) 16 11, phase := true, count := count }
    { d with qm := { d.qm with adminOn := true, adminErr := false, sqs := tset d.qm.sqs 0 sq, cqs := tset d.qm.cqs 0 cq } }

/-- ADMIN_RING_ENABLE (R79): a write of QM_ADMIN_CFG. Setting ENABLE starts the ring or sets ERR, and starts it again after ERR (step 6); clearing it stops the service. The rule does not say
what ENABLE = 1 does to a ring served already, nor what setting it again after clearing it does before the lock: the first changes nothing, the second makes the ring anew with count 0 (DESIGN
CHOICE, notes/assumptions/66.md). -/
def execAdminRingEnable (path : Path) (v : Word) (s : State) : Host.Outcome State Fault Refusal :=
  s.onReg path (onlyIf (reachable s.dev path 0x1014) fun d =>
    let was := bit (rd d 0x1014) 0 && d.qm.adminOn && !d.qm.adminErr
    let d := wrMasked 0x1014 v.toNat d
    if bit (rd d 0x1014) 0 then (if was then d else adminSetup 0 d)
    else { d with qm := { d.qm with adminOn := false } })

/-- QM_MBX_DB (R79): the mailbox tail and head. -/
def execQmMbxDb (path : Path) (v : Word) (t : Nat) (s : State) : Host.Outcome State Fault Refusal :=
  s.onReg path fun d => onlyIf (reachable d path 0x1038 && locMailbox d) (fun d =>
    let d := if bit v.toNat 15 then wakeForCommand t (sqBell .mailbox 0 (fld v.toNat 0 4) d) else d
    if bit v.toNat 31 then wakeS2 t (cqBell .mailbox 0 (fld v.toNat 16 4) d) else d) (tick t d)

/-! ### Fetching (R76, R86, R87, R89, R102) -/

/-- The mailbox bytes from a BAR0 offset. -/
def mbxBytes (d : Dev) (off n : Nat) : List Byte := (List.range n).map fun i => tgetD d.rf.mbx (off + i) 0

/-- Store mailbox bytes. -/
def mbxStore (off : Nat) (l : List Byte) (d : Dev) : Dev :=
  { d with rf := { d.rf with mbx := (l.zipIdx).foldl (fun m e => tsetD m (off + e.2) e.1 0) d.rf.mbx } }

/-- Opcodes of the I/O table and of the admin table (R87, R89). -/
def ioOpcode (o : Nat) : Bool := decide (o ≤ 0x09)
def adminOpcode (o : Nat) : Bool := decide (0x80 ≤ o) && decide (o ≤ 0x8D)
def ringAllows (admin : Bool) (o : Nat) : Bool :=
  if admin then adminOpcode o || decide (o = 0x00) || decide (o = 0x08) || decide (o = 0x09) else ioOpcode o

/-- Commands accepted only on the owner admin ring (R35, R89). -/
def ownerOnly (o : Nat) : Bool :=
  [0x80, 0x81, 0x82, 0x83, 0x84, 0x86, 0x89, 0x8A, 0x8B, 0x8C].contains o

/-- Is a tag outstanding on a ring (R86)? -/
def tagBusy (d : Dev) (sq tag : Nat) : Bool := d.qm.cmds.any fun e => decide (e.2.sq = sq) && decide (dTag e.2.desc = tag)

/-- What fetching alone decides, in the order of R72: orderly stop, opcode, owner, a tag already outstanding (field 2). -/
def fetchStatus (d : Dev) (sq : Nat) (admin : Bool) (desc : BitVec 512) : Option (Status × Nat) :=
  if d.thm.stopping then some (.thermalStop, 0xFF)
  else if !ringAllows admin (dOpc desc) then some (.invalidOpcode, 0xFF)
  else if ownerOnly (dOpc desc) ∧ sq ≠ 0 then some (.notOwner, 0xFF)
  else if tagBusy d sq (dTag desc) then some (.invalidField, 2)
  else none

/-- The accord a tenant's commands are fetched under: while an ACCORD_SET of it has not been completed, the one before (R71). -/
def accordFor (d : Dev) (t : Nat) : Option Accord :=
  match d.qm.cmds.findSome? fun e => match e.2.accOld with | some (k, a) => if k = t then some a else none | none => none with
  | some a => a
  | none => match tget d.maps.tenants t with | some x => x.accord | none => none

/-- The map lines that dispatching a command looks up (R229-R232): its zone's entry and the row entry with it, or its blocks' entries of the conventional page map with the row entry of each; by
map (0 zones, 1 rows, 2 region blocks) and line of 64 B, counted in the map's own order. -/
def rowLines (row : Nat) : List (Nat × Nat) := [(1, 2 * row), (1, 2 * row + 1)]
def zoneLines (d : Dev) (plot z : Nat) : List (Nat × Nat) := (0, zkey plot z / 4) :: (match (zoneOf d plot z).row with | some row => rowLines row | none => [])
def blockLines (d : Dev) (plot lba : Nat) : List (Nat × Nat) :=
  let at0 := lba / 8 * 36
  [(2, plot * 2 ^ 48 + at0 / 64), (2, plot * 2 ^ 48 + (at0 + 35) / 64)] ++
  (match tget d.maps.cmap (lkey plot lba) with
    | some e => (match tget d.maps.rslots (plot * 16384 + e / 2 ^ 22) with | some row => rowLines row | none => [])
    | none => [])
/-- The zone a zoned command names: by its LBA, or by ZMGMT's and ZAPPEND's zone index. -/
def commandLines (d : Dev) (desc : BitVec 512) : List (Nat × Nat) := match tget d.maps.plots (dPlot desc) with
  | none => []
  | some p =>
    if p.region then (List.range (dNblk desc)).flatMap fun i => blockLines d (dPlot desc) (dLba desc + i)
    else if dOpc desc = 3 ∨ dOpc desc = 4 then zoneLines d (dPlot desc) (dZone desc)
    else zoneLines d (dPlot desc) (dLba desc / zeroAsOne p.span) ++ zoneLines d (dPlot desc) ((dLba desc + dNblk desc - 1) / zeroAsOne p.span)

/-- What dispatch loads for a command of the data path (R207, R232, R411): its map lines and its plot's key; a COPY's destination too. -/
def dispatchLoads (desc : BitVec 512) (d : Dev) : Dev :=
  let dst := fld (dArg desc 0) 0 14
  if dOpc desc = 7 then loadXts dst (loadXts (dPlot desc) (mapLookup (commandLines d desc ++ zoneLines d dst (dArg desc 1)).eraseDups d))
  else if 1 ≤ dOpc desc ∧ dOpc desc ≤ 6 then loadXts (dPlot desc) (mapLookup (commandLines d desc).eraseDups d) else d

/-- A descriptor has arrived: the command is outstanding, under the accord in force (R71), or already has its status. A WAIT holds its ring (R105). -/
def arrive (sq : Nat) (r : SubRing) (desc : BitVec 512) (t : Nat) (d : Dev) : Dev :=
  let id := d.qm.nextCmd
  let acc := r.tenant.bind (accordFor d)
  let fs := fetchStatus d sq r.admin desc
  let c : Cmd := {
    sq := sq, desc := desc, sqhd := (r.head + 1) % 2 ^ r.log2, arrived := t,
    lat := (match acc with | some a => a.lat | none => 7), gdur := (match acc with | some a => a.durable | none => false),
    stage := if fs.isSome then .done else .fetched, dp := if entryDelay d r.bind then 2 else 0,
    status := (match fs with | some e => e.1 | none => .ok), field := (match fs with | some e => e.2 | none => 0xFF) }
  let d := { (if fs.isSome then d else dispatchLoads desc d) with qm := { d.qm with cmds := tset d.qm.cmds id c, nextCmd := id + 1 } }
  onSq sq (fun r => { r with head := (r.head + 1) % 2 ^ r.log2, held := if dOpc desc = 8 ∧ fs.isNone then some id else r.held }) d

/-- Reserve a completion slot (R76). -/
def reserve (cq : Nat) (d : Dev) : Dev := onCq cq (fun q => { q with reserved := q.reserved + 1 }) d

/-- DESCRIPTOR_FETCH on a PCIe ring or the mailbox brings the descriptor (the operand is what the DMA read returned; the mailbox holds its own); on a
Smiast ring it sends an RREQ, and the descriptor comes with its RRESP (R144). -/
def fetch (sq : Nat) (desc : BitVec 512) (t : Nat) (d : Dev) : Dev := match tget d.qm.sqs sq with
  | none => d
  | some r =>
    if !canFetch d sq then d else match r.bind with
    | .fn f => touchPort (.pcx (f / 1024)) t (arrive sq r desc t (send (.dmaRead f (r.base + 64 * r.head) 64) (reserve r.cq d)))
    | .mailbox => arrive sq r (BitVec.ofNat 512 (leNat (mbxBytes d (0x1800 + 64 * r.head) 64))) t (reserve r.cq d)
    | .conn c => smtFetch sq r (fld c 0 18) d

/-- DESCRIPTOR_FETCH. -/
def execDescriptorFetch (sq : Nat) (desc : BitVec 512) (t : Nat) (s : State) : Host.Outcome State Fault Refusal :=
  s.on fun d => fetch sq desc t (tick t d)

/-! ### Completions (R76-R78, R81, R95-R104, R178) -/

/-- What a function's configuration space holds at an offset, beside its reset value. -/
def cfgAt (d : Dev) (fn off reset : Nat) : Nat := (tgetD d.pcx.cfg (fn * 4096 + off) (BitVec.ofNat 32 reset)).toNat

/-- Does a function send MSI-X messages: MSI-X Enable set, Function Mask clear (R168)? -/
def msixOn (d : Dev) (fn : Nat) : Bool := bit (cfgAt d fn 0x80 0) 31 && !bit (cfgAt d fn 0x80 0) 30

/-- Raise an MSI-X vector of a function: the message, or the pending bit while it is masked (R81, R168, R172). -/
def raiseMsix (f vec : Nat) (d : Dev) : Dev := match tget d.pcx.msix (f * 2048 + vec) with
  | some m => if m.masked || !msixOn d f then { d with pcx := { d.pcx with msix := tset d.pcx.msix (f * 2048 + vec) { m with pending := true } } }
      else if busMaster d f then send (.msix f m.addr m.data) d else d
  | none => { d with pcx := { d.pcx with msix := tset d.pcx.msix (f * 2048 + vec) { addr := 0, data := 0, masked := true, pending := true } } }

/-- The ring's interrupt: for a PCIe binding only, never for the mailbox or a Smiast binding (R79, R81). -/
def raiseIrq (cq : Nat) (d : Dev) : Dev := match tget d.qm.cqs cq with
  | some r => match r.bind with
    | .fn f => raiseMsix f r.vector (onCq cq (fun r => { r with sinceIrq := 0, firstAt := none }) d)
    | _ => d
  | none => d

/-- Coalescing after one completion (R81): count and time both 0 interrupt each completion; else the count reached interrupts; the first since the last
interrupt starts the time. A limit of 0 beside one that is not is no limit: the rule settles 0 only together with 0 (DESIGN CHOICE, notes/assumptions/66.md). -/
def coalesce (cq t : Nat) (d : Dev) : Dev := match tget d.qm.cqs cq with
  | some r =>
    let n := r.sinceIrq + 1
    let d := onCq cq (fun r => { r with sinceIrq := n, firstAt := match r.firstAt with | some x => some x | none => some t }) d
    if (r.coalCount = 0 ∧ r.coalTime = 0) ∨ (r.coalCount ≠ 0 ∧ r.coalCount ≤ n) then raiseIrq cq d else d
  | none => d

/-- The WAITs that a completion count satisfies complete with it (R105). -/
def satisfyWaits (cq count : Nat) (d : Dev) : Dev :=
  forAll ((tfilter d.qm.cmds fun _ c => decide (dOpc c.desc = 8) && decide (c.stage = .transfer) &&
      decide (fld (dArg c.desc 1) 0 16 = cq) && decide (dArg c.desc 2 + 2 ^ 32 * dArg c.desc 3 ≤ count)).map (·.1))
    (fun id => finishOk id count) d

/-- A completion is visible: it counts (R78), may interrupt (R81) and may satisfy WAITs (R105). -/
def counted (cq t : Nat) (d : Dev) : Dev := match tget d.qm.cqs cq with
  | some r => satisfyWaits cq (r.count + 1) (coalesce cq t (onCq cq (fun r => { r with count := r.count + 1 }) d))
  | none => d

/-- A slot is written: the write index moves on, the phase inverts on the wrap (R77), the reservation is used. -/
def slotWritten (cq : Nat) (d : Dev) : Dev :=
  onCq cq (fun r => { r with widx := (r.widx + 1) % 2 ^ r.log2, phase := if (r.widx + 1) % 2 ^ r.log2 = 0 then !r.phase else r.phase, reserved := r.reserved - 1 }) d

/-- Write a completion's bytes where its ring lies, and count it when it is visible (R78, R95). -/
def writeCompletion (cq : Nat) (r : CompRing) (bytes t : Nat) (d : Dev) : Dev := match r.bind with
  | .fn f => counted cq t (slotWritten cq (send (.dma f (r.base + 32 * r.widx) 32 bytes) d))
  | .mailbox => counted cq t (slotWritten cq (mbxStore (0x1C00 + 32 * r.widx) (leBytes 32 bytes) d))
  | .conn c => slotWritten cq (smtSendFenced (fld c 0 18) (r.base + 32 * r.widx) r.rkey 32 bytes (some cq) d)

/-- Count a completion in its tenant's figures (R218, R120) and misses (R217). A command that does not end with ST_OK counts no bytes, whatever it transferred: R120 says neither
(DESIGN CHOICE, notes/assumptions/66.md). -/
def countStats (c : Cmd) (tenant : Option Nat) (svc : Nat) (cb : Bool) (d : Dev) : Dev := match tenant with
  | none => d
  | some k =>
    let s : TStat := tgetD d.alm.stats k {}
    let rdo := isReadOpc (dOpc c.desc)
    let wro := isWriteOpc (dOpc c.desc)
    let bytes := if c.status = .ok then 4096 * dNblk c.desc else 0
    let bump := fun (t : Tbl Nat) (k : Nat) => tset t k (tgetD t k 0 + 1)
    let s := { s with
      ended := s.ended + 1
      reads := s.reads + b2n rdo, writes := s.writes + b2n wro, cb := s.cb + b2n cb, rc := s.rc + b2n c.rc, sd := s.sd + b2n c.sd,
      rh := if rdo then bump s.rh (bucket svc) else s.rh, wh := if wro then bump s.wh (bucket svc) else s.wh,
      bytesR := s.bytesR + (if rdo then bytes else 0), bytesW := s.bytesW + (if wro then bytes else 0),
      misses := if cb then bump s.misses (cbReason c) else s.misses }
    { d with alm := { d.alm with stats := tset d.alm.stats k s } }

/-- The record of a command is gone: its tag is free, a WAIT no longer holds its ring. -/
def dropCmd (id : Nat) (d : Dev) : Dev :=
  let d := { d with qm := { d.qm with cmds := tdel d.qm.cmds id, sqs := tmap d.qm.sqs fun _ r => if r.held = some id then { r with held := none } else r } }
  lockRelease id d

/-- May a completion be handed over: its status stands, every packet of its read data has been sent (R148), the ABORT's target before it (R110), ingress not stopped (R305)? -/
def canPost (d : Dev) (id : Nat) (c : Cmd) : Bool :=
  decide (c.stage = .done) && !wrQueued d id && (match c.after with | some a => !thas d.qm.cmds a | none => true) && !d.kpr.pf && mainUp d

/-- Is a completion discarded and not counted: after a function reset (R178), or on a connection that is Failed or Shut (R130)? -/
def discarded (c : Cmd) (r : CompRing) (d : Dev) : Bool :=
  c.discard || r.halted || (match r.bind with
    | .conn k => (match tget d.smt.conns (fld k 0 18) with | some x => decide (x.st = .failed) || decide (x.st = .shut) | none => true)
    | _ => false)

/-- A write of a completion is a TLP on a function's port. -/
def touchFn (b : Bind) (t : Nat) (d : Dev) : Dev := match b with
  | .fn f => touchPort (.pcx (f / 1024)) t d
  | _ => d

/-- The causes of a miss that lie outside the command (R99, R208, R216): the conditions of 1-4 that stood at any time of its life (3 for a read alone), and the host port or the peer since
the data or the acknowledgement was ready (9). How much time the first four contributed is a free value (notes/assumptions/63.md). -/
def causesNow (d : Dev) (id : Nat) (c : Cmd) (t : Nat) : List (Nat × Nat) :=
  let free := fun (r : Nat) => if c.arrived < tgetD d.io.stood r 0 then [(r, (Config.causeNs id r).toNat)] else []
  free 1 ++ free 2 ++ (if isReadOpc (dOpc c.desc) then free 3 else []) ++ free 4 ++
  (if c.past ∧ (isReadOpc (dOpc c.desc) ∨ isWriteOpc (dOpc c.desc)) then [(9, t - c.waitFrom)] else [])

/-- A command with every cause of a miss. -/
def withCauses (d : Dev) (id : Nat) (c : Cmd) (t : Nat) : Cmd := { c with causes := c.causes ++ causesNow d id c t }

/-- Hand a completion over for writing (R97, R95), or discard it. -/
def post (id : Nat) (c : Cmd) (t : Nat) (d : Dev) : Dev := match ringOf d c with
  | none => dropCmd id d
  | some sr => match tget d.qm.cqs sr.cq with
    | none => endDeletion c.sq (dropCmd id d)
    | some r =>
      let svc := svcOf c t
      let cb := missed c svc
      let c := withCauses d id c t
      if discarded c r d then
        endDeletion c.sq (onCq sr.cq (fun r => { r with reserved := r.reserved - 1 }) (dropCmd id d))
      else
        touchFn r.bind t (endDeletion c.sq (writeCompletion sr.cq r (completionBytes c svc cb r.phase) t
          (countStats c sr.tenant svc cb (dropCmd id d))))

/-- COMPLETION_POST. -/
def execCompletionPost (id t : Nat) (s : State) : Host.Outcome State Fault Refusal :=
  s.on fun d => withSome (tget d.qm.cmds id) (fun c d => onlyIf (canPost d id c) (post id c t) d) (tick t d)

/-- COALESCE_TIMER_EXPIRY (R81): the time since the first completion not yet interrupted has run out. -/
def execCoalesceTimerExpiry (cq t : Nat) (s : State) : Host.Outcome State Fault Refusal :=
  s.on fun d => withSome (tget d.qm.cqs cq) (fun r d => onlyIf (match r.firstAt with
      | some f => decide (r.coalTime ≠ 0) && decide (f + 1000 * r.coalTime ≤ t) && !r.halted
      | none => false) (raiseIrq cq) d) (tick t d)

/-! ### NOP, WAIT, ABORT -/

/-- NOP (R87): result 0. -/
def execNop (id : Nat) (s : State) : Host.Outcome State Fault Refusal :=
  s.on fun d => withSome (fresh d id 0x00) (fun _ => finishOk id 0) d

/-- Is a completion ring one a WAIT of a tenant (or the owner) may name (R36, R106)? -/
def waitMayName (d : Dev) (tenant : Option Nat) (cq : Nat) : Bool := match tget d.qm.cqs cq with
  | some r => decide (r.tenant = tenant) && !r.telem
  | none => false

/-- Is an outstanding WAIT still waiting: it is not done, and would not complete at once (R105, R106)? -/
def stillWaiting (d : Dev) (c : Cmd) : Bool :=
  decide (c.stage ≠ .done) && decide (dArg c.desc 0 ≤ 60000) && waitMayName d (tenantOf d c) (fld (dArg c.desc 1) 0 16) &&
    (match tget d.qm.cqs (fld (dArg c.desc 1) 0 16) with
      | some r => decide (r.count < dArg c.desc 2 + 2 ^ 32 * dArg c.desc 3)
      | none => false)

/-- WAIT (R105-R107): time-out out of range, then the ring, then the count. No cycle of WAITs is looked for (R108): rings caught in one stay held until WAIT_TIMEOUT, an ABORT or the
deletion of a ring ends one of them. -/
def execWait (id t : Nat) (s : State) : Host.Outcome State Fault Refusal :=
  s.on fun d => withSome (fresh d id 0x08) (fun c d =>
    let cq := fld (dArg c.desc 1) 0 16
    if 60000 < dArg c.desc 0 then finishField id 44 d
    else if !waitMayName d (tenantOf d c) cq then finishErr id .ringInvalid d
    else match tget d.qm.cqs cq with
      | some r => if dArg c.desc 2 + 2 ^ 32 * dArg c.desc 3 ≤ r.count then finishOk id r.count d
          else onCmd id (fun c => { c with stage := .transfer }) d
      | none => d) (tick t d)

/-- WAIT_TIMEOUT (R107): no earlier than the time-out; a time-out of 0 is none. -/
def execWaitTimeout (id t : Nat) (s : State) : Host.Outcome State Fault Refusal :=
  s.on fun d => withSome (tget d.qm.cmds id) (fun c => onlyIf
    (decide (dOpc c.desc = 8) && decide (c.stage = .transfer) && decide (dArg c.desc 0 ≠ 0) &&
      decide (c.arrived + 1000000 * dArg c.desc 0 ≤ t)) (finishErr id .waitTimeout)) (tick t d)

/-- A command whose commit point is its fetch: NOP, ABORT, and ZMGMT open, close and query (R111). -/
def commitsAtFetch (c : Cmd) : Bool :=
  decide (dOpc c.desc = 0) || decide (dOpc c.desc = 9) || (decide (dOpc c.desc = 4) && [1, 2, 5].contains (fld (dArg c.desc 0) 0 4))

/-- Is a command before its commit point (R111)? One that has its status and waits for its completion to be posted is past it, so that an ABORT finds it TOO_LATE: R110 speaks only of before and
past the commit point (DESIGN CHOICE, notes/assumptions/66.md). -/
def beforeCommit (c : Cmd) : Bool := !c.past && !decide (c.stage = .done) && !decide (c.stage = .committed) && !commitsAtFetch c

/-- The outstanding command of a ring with a tag; a descriptor refused for its tag (R86) is not it. -/
def target (d : Dev) (self sq tag : Nat) : Option (Nat × Cmd) :=
  tfind d.qm.cmds fun i c => decide (i ≠ self) && decide (c.sq = sq) && decide (dTag c.desc = tag) &&
    !(decide (c.stage = .done) && decide (c.field = 2))

/-- ABORT (R109, R110, R182): CAUGHT before the commit point, TOO_LATE past it, NOT_FOUND for no such command; the target's completion comes first. -/
def execAbort (id : Nat) (s : State) : Host.Outcome State Fault Refusal :=
  s.on fun d => withSome (fresh d id 0x09) (fun c d =>
    let sq := fld (dArg c.desc 1) 0 16
    match tget d.qm.sqs sq with
    | none => finishErr id .ringInvalid d
    | some r =>
      if r.tenant ≠ tenantOf d c then finishErr id .ringInvalid d
      else match target d id sq (fld (dArg c.desc 1) 16 16) with
        | none => finishOk id 2 d
        | some (i, tc) =>
          if beforeCommit tc then onCmd id (fun c => { c with after := some i }) (finishOk id 0 (finishErr i .aborted (cancel i d)))
          else finishOk id 1 d) d

/-! ### RING_CREATE, RING_DELETE (R73-R75, R93, R94, R132, R170) -/

/-- The PCIe links of a port in its bifurcation mode (R166): link index, PF function index, first port VF number, VFs. Strap 3 is mode 0. -/
def pcxMode (d : Dev) (port : Nat) : Nat :=
  let b := if port = 0 then d.id.bif0 else d.id.bif1
  if b = 3 then 0 else b
def pcxLinks (mode : Nat) : List (Nat × Nat × Nat × Nat) := match mode with
  | 1 => [(0, 0, 1, 256), (1, 513, 257, 256)]
  | 2 => [(0, 0, 1, 128), (1, 513, 129, 128), (2, 514, 257, 128), (3, 515, 385, 128)]
  | _ => [(0, 0, 1, 512)]

/-- The link that carries a function index of a port, if the index exists in the port's mode; a VF must be within NumVFs (R166, R170). -/
def linkOfFn (d : Dev) (port idx : Nat) : Option Nat :=
  ((pcxLinks (pcxMode d port)).find? fun l => decide (idx = l.2.1) ||
    (decide (l.2.2.1 ≤ idx) && decide (idx < l.2.2.1 + l.2.2.2) && decide (idx ≠ 0) && decide (idx ≤ 512))).map (·.1)
def vfEnabled (d : Dev) (port idx : Nat) : Bool :=
  (pcxLinks (pcxMode d port)).any fun l => decide (idx = l.2.1) ||
    (decide (l.2.2.1 ≤ idx) && decide (1 ≤ idx) && decide (idx ≤ 512) &&
      decide (idx < l.2.2.1 + min l.2.2.2 (tgetD d.pcx.links (port * 4 + l.1) {}).numVfs))

/-- Is a function index a PF (R166)? -/
def isPf (idx : Nat) : Bool := decide (idx = 0) || decide (513 ≤ idx)

/-- The operands of RING_CREATE that are faulty by themselves (R93 item 2): kind and owner bit, size, a function index that R166 does not have, base alignment. -/
def ringFieldFault (desc : BitVec 512) : Option Nat :=
  let a0 := dArg desc 0
  let kind := fld a0 16 2
  if bit a0 31 ∧ kind ≠ 3 then some 44
  else if fld (dArg desc 1) 0 5 < 4 ∨ 16 < fld (dArg desc 1) 0 5 then some 48
  else if !bit a0 20 ∧ 515 < fld (dArg desc 2) 0 10 then some 52
  else if dDptr desc % 4096 ≠ 0 then some 16
  else none

/-- Rings a tenant holds. -/
def sqsOf (d : Dev) (k : Nat) : Nat := tcount d.qm.sqs fun _ r => decide (r.tenant = some k)
def cqsOf (d : Dev) (k : Nat) : Nat := tcount d.qm.cqs fun _ r => decide (r.tenant = some k)

/-- Bytes of a ring's memory. -/
def ringBytes (kind log2 : Nat) : Nat := 2 ^ log2 * (if kind ≤ 1 then 64 else if kind = 2 then 32 else 1024)

/-- Does an address range lie wholly in the connection's region of a key (R132, R145)? -/
def inRegion (k : Conn) (key addr len : Nat) : Bool :=
  k.regions.any fun r => decide (r.2.2 = key) && decide (r.1 ≤ addr) && decide (addr + len ≤ r.1 + 64 * r.2.1)

/-- The Smiast checks of a ring (R132): the connection of the tenant, with its present generation, in Pending or Open. -/
def ringConnFault (d : Dev) (tenant : Option Nat) (cid : Nat) : Option Status := match tget d.smt.conns (fld cid 0 18) with
  | none => some .connInvalid
  | some k => if cid ≥ 2 ^ 26 ∨ k.gen ≠ fld cid 18 8 ∨ tenant ≠ some k.tenant then some .connInvalid
      else if k.st = .pending ∨ k.st = .isOpen then none else some .connState

/-- The statuses of RING_CREATE in the order of R93; none: it is accepted. -/
def ringCreateFault (d : Dev) (c : Cmd) : Option (Status × Nat) :=
  let desc := c.desc
  let a0 := dArg desc 0
  let a2 := dArg desc 2
  let kind := fld a0 16 2
  let owner := bit a0 31
  let tenant := if owner then none else some (fld a0 0 12)
  let smiast := bit a0 20
  let port := b2n (bit a2 12)
  let idx := fld a2 0 10
  let bind : Bind := if smiast then .conn a2 else .fn (port * 1024 + idx)
  let named := tget d.qm.cqs (fld (dArg desc 1) 16 16)
  match ringFieldFault desc with
  | some f => some (.invalidField, f)
  | none =>
    if !owner ∧ !thas d.maps.tenants (fld a0 0 12) then some (.tenantInvalid, 0xFF)
    else if kind ≤ 1 ∧ named.all (fun q => !(decide (q.tenant = tenant) && !q.telem)) = true then some (.ringInvalid, 0xFF)
    else match (if smiast then ringConnFault d tenant a2 else none) with
    | some st => some (st, 0xFF)
    | none =>
      if kind ≤ 1 ∧ named.all (fun q => decide (q.bind ≠ bind)) = true then some (.invalidField, 52)
      else if !smiast ∧ (!hasPcx d port ∨ (linkOfFn d port idx).isNone ∨ !vfEnabled d port idx) then some (.invalidField, 52)
      else if !smiast ∧ 2 ≤ kind ∧ !isPf idx ∧ 64 ≤ fld (dArg desc 3) 0 11 then some (.invalidField, 56)
      else if smiast ∧ (tget d.smt.conns (fld a2 0 18)).all (fun k => !inRegion k (dRkey desc) (dDptr desc) (ringBytes kind (fld (dArg desc 1) 0 5))) = true then some (.invalidField, 16)
      else if owner ∧ (d.qm.cqs.any fun e => e.2.telem && e.2.tenant.isNone) then some (.resourceLimit, 0xFF)
      else if (match tenant with
          | some k => (match tget d.maps.tenants k with
            | some x => if kind ≤ 1 then decide (x.grants.sqs ≤ sqsOf d k) else decide (x.grants.cqs ≤ cqsOf d k)
            | none => true)
          | none => false) then some (.resourceLimit, 0xFF)
      else if 65536 ≤ (if kind ≤ 1 then tfree d.qm.sqs 1 else tfree d.qm.cqs 1) then some (.resourceLimit, 0xFF)
      -- one completion-space id is held for the owner's telemetry ring (R73)
      else if 2 ≤ kind ∧ !owner ∧ !(d.qm.cqs.any fun e => e.2.telem && e.2.tenant.isNone) ∧ 65534 ≤ tcount d.qm.cqs (fun i _ => decide (1 ≤ i)) then some (.resourceLimit, 0xFF)
      else none

/-- The new ring, with the lowest free id of its space (R73). -/
def ringMake (id : Nat) (c : Cmd) (d : Dev) : Dev :=
  let desc := c.desc
  let a0 := dArg desc 0
  let a2 := dArg desc 2
  let a3 := dArg desc 3
  let kind := fld a0 16 2
  let tenant := if bit a0 31 then none else some (fld a0 0 12)
  let bind : Bind := if bit a0 20 then .conn a2 else .fn (b2n (bit a2 12) * 1024 + fld a2 0 10)
  if kind ≤ 1 then
    let i := tfree d.qm.sqs 1
    let r : SubRing := { tenant := tenant, admin := decide (kind = 1), bind := bind, base := dDptr desc, rkey := dRkey desc, log2 := fld (dArg desc 1) 0 5, cq := fld (dArg desc 1) 16 16 }
    finishOk id i { d with qm := { d.qm with sqs := tset d.qm.sqs i r } }
  else
    let i := tfree d.qm.cqs 1
    let r : CompRing := { tenant := tenant, telem := decide (kind = 3), bind := bind, base := dDptr desc, rkey := dRkey desc, log2 := fld (dArg desc 1) 0 5, vector := fld a3 0 11, coalCount := fld a3 16 8, coalTime := fld a3 24 8, phase := true }
    finishOk id i { d with qm := { d.qm with cqs := tset d.qm.cqs i r } }

/-- RING_CREATE (R93). -/
def execRingCreate (id : Nat) (s : State) : Host.Outcome State Fault Refusal :=
  s.on fun d => withSome (fresh d id 0x83) (fun c => onlyIf (adminTurn d id c) fun d =>
    match ringCreateFault d c with
    | some (st, f) => finish id st 0 f d
    | none => ringMake id c d) d

/-- Does a submission ring or an outstanding WAIT name a completion ring (R94)? -/
def cqNamed (d : Dev) (i : Nat) : Bool :=
  (d.qm.sqs.any fun e => decide (e.2.cq = i)) ||
  (d.qm.cmds.any fun e => decide (dOpc e.2.desc = 8) && decide (fld (dArg e.2.desc 1) 0 16 = i))

/-- Fetches of a ring's descriptors that have not been sent are given up. -/
def dropFetches (sq : Nat) (d : Dev) : Dev :=
  let mine := fun (q : ReqUse × Nat × Nat × Nat) => match q.1 with | .descs s _ _ => decide (s = sq) | _ => false
  let fails := d.smt.conns.flatMap fun e => (e.2.reqQueue.filter mine).map (·.1)
  forAll fails failUse { d with smt := { d.smt with conns := tmap d.smt.conns fun _ k => { k with reqQueue := k.reqQueue.filter fun q => !mine q } } }

/-- RING_DELETE (R94): id 0 and no such ring; a completion ring still named is busy; a submission ring stops fetching, its waiting WAIT is aborted, and the
deletion completes with its last command. -/
def execRingDelete (id : Nat) (s : State) : Host.Outcome State Fault Refusal :=
  s.on fun d => withSome (fresh d id 0x84) (fun c => onlyIf (adminTurn d id c) fun d =>
    let i := fld (dArg c.desc 0) 0 16
    if i = 0 then finishErr id .ringInvalid d
    else if bit (dArg c.desc 0) 31 then
      (if !thas d.qm.cqs i then finishErr id .ringInvalid d
       else if cqNamed d i then finishErr id .ringBusy d
       else finishOk id 0 { d with qm := { d.qm with cqs := tdel d.qm.cqs i } })
    else match tget d.qm.sqs i with
      | none => finishErr id .ringInvalid d
      | some r =>
        let d := dropFetches i (onSq i (fun r => { r with deleting := some id }) (onCmd id (fun c => { c with stage := .transfer, past := true }) d))
        let d := match r.held with
          | some w => (match tget d.qm.cmds w with | some wc => if stillWaiting d wc then finishErr w .aborted d else d | none => d)
          | none => d
        endDeletion i d) d

end Sys2Proof.Machine
end

