-- ==== Sys2Proof/Machine/Tenants.lean ====
section
/-!
DEFINITION. Tenants, plots, regions and accords (spec/02_zones_and_tenants.md R35-R46, R62-R71): the admin commands on them, with the blocks their parameters
lie in (R91, R92, R563).
-/

namespace Sys2Proof.Machine

/-! ### Parameter blocks -/

/-- What reading a parameter block gives: its bytes, a DPTR that breaks a rule, a range outside the connection's region (the byte of the field at fault, R145), or a read still to be made. -/
inductive BlkRead where
  | got (l : List Byte) | bad | refused (field : Nat) | away
  deriving DecidableEq, Repr

/-- Bytes of a block, with zeros where the transfer brought less. -/
def padTo (n : Nat) (l : List Byte) : List Byte := (l ++ List.replicate (n - l.length) 0).take n

/-- Staged bytes of a command (Smiast), in order. -/
def stagedBytes (c : Cmd) : List Byte := c.staged.map (·.2)

/-- What a command's ring is bound to. -/
def bindOf (d : Dev) (c : Cmd) : Option Bind := (ringOf d c).map (·.bind)

/-- A length rounded up to a multiple of 64, as an RREQ's must be (R139). -/
def up64 (n : Nat) : Nat := cdiv n 64 * 64

/-- Read the parameter block of n bytes at DPTR (R82, R145, R563): blk is what the DMA read of a PCIe ring brings. -/
def readBlk (d : Dev) (c : Cmd) (n : Nat) (blk : List Byte) : BlkRead :=
  if dDptr c.desc % 64 ≠ 0 then .bad else match bindOf d c with
  | some (.fn _) => .got (padTo n blk)
  | some .mailbox => if 0x1400 ≤ dDptr c.desc ∧ dDptr c.desc + n ≤ 0x1800 then .got (mbxBytes d (dDptr c.desc) n) else .bad
  | some (.conn k) =>
    if n ≤ c.staged.length then .got (padTo n (stagedBytes c))
    else match tget d.smt.conns (fld k 0 18) with
      | some x => if inRegion x (dRkey c.desc) (dDptr c.desc) (up64 n) then .away else .refused (if x.regions.any fun r => decide (r.2.2 = dRkey c.desc) then 16 else 32)
      | none => .refused 32
  | none => .bad

/-- Where the block comes from, as a request on the wire. -/
def askBlk (id : Nat) (c : Cmd) (n : Nat) (d : Dev) : Dev := match bindOf d c with
  | some (.fn f) => send (.dmaRead f (dDptr c.desc) n) d
  | some (.conn k) => smtRead (fld k 0 18) (.params id) (dDptr c.desc) (up64 n) (dRkey c.desc) (onCmd id (fun c => { c with stage := .transfer, past := true }) d)
  | _ => d

/-- Does a command hold a buffer for its parameter block (R115)? -/
def blockHeld (d : Dev) (id : Nat) : Bool := d.bpm.granted.any fun g => decide (g.1 = .block id)

/-- Can a block's buffer be had at once: it is held, or no request waits and a fitting pool has a free one (R115)? -/
def blockReady (d : Dev) (id n : Nat) : Bool := blockHeld d id || (decide (d.bpm.waiting = []) && (poolWith d (poolFor n)).isSome)

/-- Take the buffer of a parameter block from a pool, unless it is held. -/
def takeBlock (id n : Nat) (d : Dev) : Dev :=
  if blockHeld d id then d else match poolWith d (poolFor n) with
  | some (pool, ptr) => { d with bpm := { d.bpm with pools := takeFrom (poolFor n) pool d.bpm.pools, granted := d.bpm.granted ++ [(.block id, pool, ptr)] } }
  | none => d

/-- A command's parameter block has been used: its buffer comes back. -/
def freeBlock (id : Nat) (d : Dev) : Dev := freeBuffers (fun u => decide (u = .block id)) d

/-- A command waits for a buffer to read its parameter block into; its row of the table runs again when it is there. -/
def waitBlock (id n : Nat) (d : Dev) : Dev := askBuffer n (.block id) (onCmd id (fun c => { c with stage := .spaceWait, past := true }) d)

/-- Carry out an admin command with its block, which is read into a pool buffer (R115); the mailbox's lies on chip (R563). A command whose block or buffer is still to come waits; its row of
the table runs again when it is there. -/
def withBlk (id : Nat) (c : Cmd) (n : Nat) (blk : List Byte) (f : List Byte → Dev → Dev) (d : Dev) : Dev := match readBlk d c n blk with
  | .bad => finishField id 16 d
  | .refused x => finishField id x d
  | .got l => (match bindOf d c with
    | some (.fn _) => if blockReady d id n then f l (freeBlock id (askBlk id c n (takeBlock id n d))) else waitBlock id n d
    | _ => f l (freeBlock id d))
  | .away => if blockReady d id n then askBlk id c n (takeBlock id n d) else waitBlock id n d

/-- An admin command of an opcode whose turn it is (R89). -/
def adminCmd (id opc : Nat) (f : Cmd → Dev → Dev) (d : Dev) : Dev :=
  withSome (fresh d id opc) (fun c => onlyIf (adminTurn d id c && mainUp d) (f c)) d

/-! ### TENANT_CREATE, TENANT_GRANT, TENANT_DELETE (R39-R41, R91) -/

/-- Raw capacity in GiB (R222). -/
def rawGib (d : Dev) : Nat := sumL ((d.alm.dies.filter fun e => e.2.included).map fun e => match profileOf e.2.profile with | some p => p.nominalGib | none => 0)

/-- The limit of all regions together, GiB (R63). -/
def regionLimit (d : Dev) : Nat := min (2 * rawGib d / 100) 16384

/-- The grant block (R91). -/
def grantsOf (l : List Byte) : Grants :=
  { quota := leAt l 0 4, plots := leAt l 4 2, openZones := leAt l 6 2, sqs := leAt l 8 4, cqs := leAt l 12 4, conns := leAt l 16 4, active := leAt l 20 4, region := leAt l 24 2 }

/-- The lowest faulty field of a grant block against the ranges of R39. -/
def grantFault (d : Dev) (g : Grants) : Option Nat :=
  if 16384 < g.plots then some 0x44 else if 16384 < g.openZones then some 0x46
  else if g.sqs = 0 ∨ 65535 < g.sqs then some 0x48 else if g.cqs = 0 ∨ 65534 < g.cqs then some 0x4C
  else if connLimit d < g.conns then some 0x50 else if 65536 < g.active then some 0x54
  else if regionLimit d < g.region then some 0x58 else none

/-- A grant summed over all tenants but one. -/
def grantSum (d : Dev) (t : Option Nat) (f : Grants → Nat) : Nat := sumL ((d.maps.tenants.filter fun e => decide (some e.1 ≠ t)).map fun e => f e.2.grants)

/-- Would the grants of a tenant take a sum over the device above its limit (R39)? -/
def overSum (d : Dev) (t : Option Nat) (g : Grants) : Bool :=
  decide (16384 < grantSum d t (·.plots) + g.plots) || decide (16384 < grantSum d t (·.openZones) + g.openZones) ||
  decide (65535 < grantSum d t (·.sqs) + g.sqs) || decide (65534 < grantSum d t (·.cqs) + g.cqs) ||
  decide (connLimit d < grantSum d t (·.conns) + g.conns) || decide (65536 < grantSum d t (·.active) + g.active) ||
  decide (regionLimit d < grantSum d t (·.region) + g.region)

/-- TENANT_CREATE with its block. -/
def tenantMake (id : Nat) (l : List Byte) (d : Dev) : Dev :=
  let g := grantsOf l
  let i := tfree d.maps.tenants 0
  match grantFault d g with
  | some f => finishField id f d
  | none =>
    if 4096 ≤ i then finishErr id .tenantLimit d
    else if overSum d none g then finishErr id .resourceLimit d
    else finishOk id i (record (.tenant i (some { grants := g, accord := none }) 0) d)

/-- TENANT_CREATE (R39): the lowest free id. -/
def execTenantCreate (id : Nat) (blk : List Byte) (s : State) : Host.Outcome State Fault Refusal :=
  s.on fun d => adminCmd id 0x80 (fun c => withBlk id c 32 blk (tenantMake id)) d

/-- TENANT_GRANT with its block. -/
def tenantRegrant (id t : Nat) (l : List Byte) (d : Dev) : Dev :=
  let g := grantsOf l
  match grantFault d g with
  | some f => finishField id f d
  | none => match tget d.maps.tenants t with
    | none => finishErr id .tenantInvalid d
    | some x => if overSum d (some t) g then finishErr id .resourceLimit d
        else finishOk id 0 (record (.tenant t (some { x with grants := g }) 1) d)

/-- TENANT_GRANT (R40): nothing is taken away. -/
def execTenantGrant (id : Nat) (blk : List Byte) (s : State) : Host.Outcome State Fault Refusal :=
  s.on fun d => adminCmd id 0x81 (fun c => withBlk id c 32 blk (tenantRegrant id (fld (dArg c.desc 0) 0 12))) d

/-- Does a tenant still own a plot, region, ring or connection (R41)? -/
def tenantBusy (d : Dev) (t : Nat) : Bool :=
  (d.maps.plots.any fun e => decide (e.2.tenant = t)) || (d.qm.sqs.any fun e => decide (e.2.tenant = some t)) ||
  (d.qm.cqs.any fun e => decide (e.2.tenant = some t)) || (d.smt.conns.any fun e => decide (e.2.tenant = t))

/-- TENANT_DELETE (R41): the accord goes with the tenant. -/
def execTenantDelete (id : Nat) (s : State) : Host.Outcome State Fault Refusal :=
  s.on fun d => adminCmd id 0x82 (fun c d =>
    let t := fld (dArg c.desc 0) 0 12
    if !thas d.maps.tenants t then finishErr id .tenantInvalid d
    else if tenantBusy d t then finishErr id .tenantBusy d
    else finishOk id 0 (record (.tenant t none 2) d)) d

/-! ### Plots and regions (R42-R46, R62, R63, R92) -/

/-- The plot block (R92). -/
def pbDurable (l : List Byte) : Bool := decide (leAt l 0 1 % 2 = 1)
def pbK (l : List Byte) : Nat := leAt l 1 1
def pbMc (l : List Byte) : Nat := leAt l 2 1 % 4
def pbProfile (l : List Byte) : Nat := leAt l 3 1
def pbWrapped (l : List Byte) : Bool := decide (leAt l 4 1 % 2 = 1)
def pbCount (l : List Byte) : Nat := leAt l 8 4
def pbHints (l : List Byte) : BitVec 64 := BitVec.ofNat 64 (leAt l 16 8)
def pbKey (l : List Byte) : List Byte := slice l 24 40

/-- The lowest plot id that nothing holds; a deleted plot's id is free again once its deletion's completion has been posted (R42). -/
def plotTaken (d : Dev) : Tbl Unit :=
  let del := (d.qm.cmds.filter fun e => decide (dOpc e.2.desc = 0x87) && decide (e.2.stage = .done) && decide (e.2.status = .ok)).map fun e => dPlot e.2.desc
  del.foldl (fun t p => tset t p ()) (tmap d.maps.plots fun _ _ => ())
def freePlot (d : Dev) : Nat := tfree (plotTaken d) 0

/-- May a tenant take one more plot id (R39)? -/
def plotRoom (d : Dev) (t : Nat) : Bool := decide (freePlot d < 16384) && (match tget d.maps.tenants t with
  | some x => decide (plotsOf d t < x.grants.plots)
  | none => false)

/-- kek_plot, when a key-agreement key is enrolled (R413, R414). -/
def kekPlot (d : Dev) : Option (BitVec 256) := d.sec.ka.map fun k => Config.kekOf k d.sec.epoch 0
/-- kek_conn. -/
def kekConn (d : Dev) : Option (BitVec 256) := d.sec.ka.map fun k => Config.kekOf k d.sec.epoch 1

/-- Unwrap a 40-byte wrapped key (R414). -/
def unwrapKey (kek : Option (BitVec 256)) (l : List Byte) : Option (BitVec 256) := match kek with
  | none => none
  | some k => (keyUnwrap k l).map fun p => BitVec.ofNat 256 (beNat p)

/-- The XTS key pair of a plot (R415). -/
def xtsKeys (seed : BitVec 256) (plot : Nat) : List Byte := kdf seed (ascii "Z9 XTS") (leBytes 2 plot) 512

/-- A seed that gives K1 = K2 is refused (R415). -/
def seedBad (seed : BitVec 256) (plot : Nat) : Bool := let k := xtsKeys seed plot; decide (k.take 32 = k.drop 32)

/-- The seed of a new plot: unwrapped, or drawn (R415); none: ST_KEY_UNWRAP. -/
def newSeed (d : Dev) (plot : Nat) (l : List Byte) : Option (BitVec 256) :=
  let s := if pbWrapped l then unwrapKey (kekPlot d) (pbKey l) else some ((drawn d 0).setWidth 256)
  match s with
  | some k => if seedBad k plot then none else some k
  | none => none

/-- The refusals of keys, in order: ST_NOT_READY, ST_KEY_UNWRAP (R45, R72, R423). -/
def seedFault (d : Dev) (plot : Nat) (l : List Byte) : Option Status :=
  if !pbWrapped l ∧ !d.sec.rngReady then some .notReady
  else if (newSeed d plot l).isNone then some .keyUnwrap else none

/-- Install a plot's seed and record it (R416). -/
def installSeed (plot : Nat) (l : List Byte) (d : Dev) : Dev := match newSeed d plot l with
  | some k =>
    let d := if pbWrapped l then d else draw 1 d
    record (.key plot true) { d with sec := { d.sec with store := tset d.sec.store plot k, wiped := d.sec.wiped.filter fun p => decide (p ≠ plot) } }
  | none => d

/-- The read target of a tenant lies below a profile's Durable read service bound (R45, R70, R214). -/
def belowBound (lat profile : Nat) : Bool := match targets lat, profileOf profile with
  | some (r, _), some p => decide (r < p.bound)
  | _, _ => false
def mediaRefused (d : Dev) (t profile : Nat) : Bool := match accordOf d t with
  | some a => belowBound a.lat profile
  | none => false

/-- The faulty field of a plot block of PLOT_CREATE (R42): k, profile, zone count and what it spans. -/
def plotFault (l : List Byte) : Option Nat :=
  if pbK l < 4 ∨ 30 < pbK l then some 0x41
  else match profileOf (pbProfile l) with
  | none => some 0x43
  | some p => if pbCount l = 0 ∨ 2 ^ 48 < pbCount l * pow2Up (zoneCap p (pbK l) (pbMc l)) then some 0x48 else none

/-- PLOT_CREATE with its block, in the order of R72. -/
def plotMake (id : Nat) (c : Cmd) (l : List Byte) (d : Dev) : Dev :=
  let plot := freePlot d
  match plotFault l, profileOf (pbProfile l) with
  | some f, _ => finishField id f d
  | none, none => finishField id 0x43 d
  | none, some p => match actingTenant d c (fld (dArg c.desc 0) 0 12) with
    | none => finishErr id .tenantInvalid d
    | some t =>
      if pbDurable l ∧ !hasQ d then finishErr id .classAbsent d
      else if !plotRoom d t then finishErr id .plotLimit d
      else if mediaRefused d t (pbProfile l) then finishErr id .accordMedia d
      else match seedFault d plot l with
      | some st => finishErr id st d
      | none =>
        let cap := zoneCap p (pbK l) (pbMc l)
        let x : Plot := { tenant := t, region := false, durable := pbDurable l, k := pbK l, mc := pbMc l, profile := pbProfile l, count := pbCount l, cap := cap, span := pow2Up cap, hints := pbHints l }
        finishOk id plot (record (.plot plot (some x) 0) (installSeed plot l d))

/-- PLOT_CREATE (R42). -/
def execPlotCreate (id : Nat) (blk : List Byte) (s : State) : Host.Outcome State Fault Refusal :=
  s.on fun d => adminCmd id 0x85 (fun c => withBlk id c 64 blk (plotMake id c)) d

/-- All regions together, GiB. -/
def regionSum (d : Dev) : Nat := sumL ((d.maps.plots.filter fun e => e.2.region).map fun e => e.2.count)

/-- REGION_CREATE with its block, in the order of R72 (R62, R63, R408). -/
def regionMake (id : Nat) (c : Cmd) (l : List Byte) (d : Dev) : Dev :=
  let plot := freePlot d
  let size := pbCount l
  match profileOf (pbProfile l) with
  | none => finishField id 0x43 d
  | some _ => if size = 0 then finishField id 0x48 d else match tget d.maps.tenants (fld (dArg c.desc 0) 0 12) with
    | none => finishErr id .tenantInvalid d
    | some x =>
      let t := fld (dArg c.desc 0) 0 12
      if pbDurable l ∧ !hasQ d then finishErr id .classAbsent d
      else if (regionOf d t).isSome then finishErr id .regionExists d
      else if !plotRoom d t then finishErr id .plotLimit d
      else if x.grants.region < size ∨ regionLimit d < regionSum d + size ∨ d.ecc.cmapRes < regionSum d + size then finishErr id .regionLimit d
      else if x.grants.quota * gibBlocks < quotaUsed d t + size * gibBlocks then finishErr id .quotaExceeded d
      else match seedFault d plot l with
      | some st => finishErr id st d
      | none =>
        let r : Plot := { tenant := t, region := true, durable := pbDurable l, k := 16, mc := 0, profile := pbProfile l, count := size, cap := size * gibBlocks, span := size * gibBlocks, hints := pbHints l }
        finishOk id plot (record (.plot plot (some r) 0) (installSeed plot l d))

/-- REGION_CREATE (R62). -/
def execRegionCreate (id : Nat) (blk : List Byte) (s : State) : Host.Outcome State Fault Refusal :=
  s.on fun d => adminCmd id 0x86 (fun c => withBlk id c 64 blk (regionMake id c)) d

/-- The plot a command may name: its tenant's, and not one whose deletion started before the command was fetched (R37, R46). -/
def plotFor (d : Dev) (id : Nat) (t : Option Nat) (plot : Nat) : Option Plot := match tget d.maps.plots plot with
  | some p => if t = some p.tenant ∧ !(d.med.dying.any fun e => decide (e.1 = plot) && decide (e.2 ≤ id)) then some p else none
  | none => none

/-- The tenant of an admin command on a plot, or ST_TENANT_INVALID; then the plot, or ST_PLOT_INVALID (R90). -/
def onPlot (id : Nat) (c : Cmd) (named : Nat) (f : Plot → Dev → Dev) (d : Dev) : Dev := match actingTenant d c named with
  | none => finishErr id .tenantInvalid d
  | some t => match plotFor d id (some t) (dPlot c.desc) with
    | some p => f p d
    | none => finishErr id .plotInvalid d

/-- Does a command act on a plot? -/
def actsOn (c : Cmd) (plot : Nat) : Bool :=
  (decide (dPlot c.desc = plot) && [0x01, 0x02, 0x03, 0x04, 0x05, 0x06, 0x07, 0x88, 0x8D].contains (dOpc c.desc)) ||
  (decide (dOpc c.desc = 0x07) && decide (fld (dArg c.desc 0) 0 14 = plot))
/-- Is a command outstanding that a deletion lets complete first: any fetched before the deletion starts to execute, but for admin commands that wait behind it on its ring (R46, R89)? -/
def earlierOn (d : Dev) (id sq upto plot : Nat) : Bool := d.qm.cmds.any fun e =>
  decide (e.1 < upto) && decide (e.1 ≠ id) && actsOn e.2 plot && !decide (e.2.stage = .done) && !(decide (id < e.1) && decide (e.2.sq = sq))

/-- The first fetch number that a plot's deletion refuses: what the deletion noted when it started. -/
def dyingFrom (d : Dev) (plot : Nat) : Nat := match d.med.dying.find? fun e => decide (e.1 = plot) with
  | some e => e.2
  | none => d.qm.nextCmd

/-- A row that is given up waits for the reads that hold it (R242, R246). -/
def condemn (row : Nat) (d : Dev) : Dev := { d with med := { d.med with oldRows := if d.med.oldRows.contains row then d.med.oldRows else d.med.oldRows ++ [row] } }

/-- A plot's rows lose their valid blocks and are freed once reads drain. -/
def condemnPlot (plot : Nat) (d : Dev) : Dev :=
  forAll ((d.maps.rows.filter fun e => decide (e.2.kind ≠ 2) && decide (e.2.plot = plot)))
    (fun e d => condemn e.1 (record (.row e.1 (some { e.2 with valid := 0 })) d)) d

/-- Everything of a plot in the maps and buffers goes (R46, R417): its key, zones, region maps, buffered blocks, stripes, grafts. -/
def erasePlot (plot : Nat) (d : Dev) : Dev :=
  let d := record (.key plot false) { d with sec := { d.sec with store := tdel d.sec.store plot, wiped := d.sec.wiped ++ [plot], xts := d.sec.xts.filter fun p => decide (p ≠ plot) } }
  let d := forAll ((d.maps.zones.filter fun e => decide (e.1 / 2 ^ 32 = plot)).map (·.1)) (fun k => record (.zone k none)) d
  let d := forAll ((d.maps.rslots.filter fun e => decide (e.1 / 16384 = plot)).map (·.1)) (fun k => record (.rslot k none)) d
  let d := onMaps (fun m => { m with cmap := tfilter m.cmap fun k _ => decide (k / 2 ^ 48 ≠ plot) }) d
  let rows := (d.maps.rows.filter fun e => decide (e.2.kind ≠ 2) && decide (e.2.plot = plot)).map (·.1)
  let d := condemnPlot plot d
  let d := { d with clo := { d.clo with buf := tfilter d.clo.buf fun _ b => decide (b.plot ≠ plot) },
                    med := { d.med with stripes := tfilter d.med.stripes fun k _ => !rows.contains (k / 65536),
                                        copies := tfilter d.med.copies fun _ c => decide (c.plot ≠ plot),
                                        dying := d.med.dying.filter fun e => decide (e.1 ≠ plot) } }
  let d := if thas d.maps.grafts plot then record (.graft plot none 3) d else d
  record (.plot plot none 1) d

/-- PLOT_DELETE (R46): commands fetched before it starts to execute complete first; then the key is destroyed and the plot is gone. The row of the table may run twice: the
start, and the end once no earlier command is left. -/
def execPlotDelete (id : Nat) (s : State) : Host.Outcome State Fault Refusal :=
  s.on fun d => withSome (tget d.qm.cmds id) (fun c => onlyIf
    (decide (dOpc c.desc = 0x87) && (decide (c.stage = .fetched) || decide (c.stage = .transfer)) && adminTurn d id c && mainUp d && awake d && !halting d && !journalFull d) fun d =>
    if c.stage = .transfer then (if earlierOn d id c.sq (dyingFrom d (dPlot c.desc)) (dPlot c.desc) then d else finishOk id 0 (erasePlot (dPlot c.desc) d))
    else onPlot id c (fld (dArg c.desc 0) 0 12) (fun _ d =>
      if earlierOn d id c.sq d.qm.nextCmd (dPlot c.desc) then
        onCmd id (fun c => { c with stage := .transfer, past := true }) { d with med := { d.med with dying := d.med.dying ++ [(dPlot c.desc, d.qm.nextCmd)] } }
      else finishOk id 0 (erasePlot (dPlot c.desc) d)) d) d

/-- PLOT_HINTS (R66, R92): the default hints. -/
def execPlotHints (id : Nat) (s : State) : Host.Outcome State Fault Refusal :=
  s.on fun d => adminCmd id 0x88 (fun c => onPlot id c (fld (dArg c.desc 0) 0 12) fun p d =>
    finishOk id 0 (record (.plot (dPlot c.desc) (some { p with hints := dHints c.desc }) 3) d)) d

/-! ### Accords (R68-R71, R210-R214) -/

/-- The weighted share of an accord: a bound tenant's surcharged and rounded up to a whole per mille (R210). -/
def weighted (d : Dev) (a : Accord) : Nat := if a.lat ≤ 6 ∧ a.durable then cdiv (a.share * (100 + rcaPct d)) 100 else a.share

/-- The admitted weighted load of a die (R210). -/
def loadOf (d : Dev) : Nat := sumL (d.maps.tenants.map fun e => match e.2.accord with | some a => weighted d a | none => 0)

/-- Does a rebuild, or a transplant that takes slots of R202, run in a link group (R193, R202)? -/
def slotsTaken (d : Dev) (g : Nat) : Bool :=
  let touches := fun (k : Nat) => match tget d.maps.rows (k / 32) with | some r => r.onLg g | none => false
  (d.med.rebuilds.any fun e => e.2.running && (touches e.1 || decide (lgOf e.2.die = g))) ||
  (d.med.xpls.any fun e => e.2.running && e.2.hard && (decide (lgOf e.2.die = g) ||
    (match tget d.maps.rows (e.1 / 32) with | some r => (match r.pos[e.1 % 32]? with | some p => decide (lgOf p.1 = g) | none => false) | none => false)))

/-- Die time available to accords in a link group, per mille (R193). -/
def availIn (d : Dev) (g : Nat) : Nat := 125 * (plannedSlots d - bgReserve d - (if slotsTaken d g then bgRebuild d else 0))

/-- A present die of admission: included, not failed; a worn die only while it holds beds (R210). -/
def diesAdmitted (d : Dev) : List Nat := (d.alm.dies.filter fun e =>
  e.2.included && !dieFailed d e.1 && (!e.2.worn || (listedBeds d e.1).any fun b => !b.2.isFree && decide (b.2.st ≠ .retired))).map (·.1)

/-- The largest die-time shortfall and its link group (R212); equal shortfalls name the lower group. -/
def dieShort (d : Dev) (load : Nat) : Nat × Nat :=
  (diesAdmitted d).foldl (fun a die => let s := load - availIn d (lgOf die); if a.1 < s ∨ (a.1 = s ∧ 0 < s ∧ lgOf die < a.2) then (s, lgOf die) else a) (0, 0)

/-- Host-side capacity of the present ports, Gb/s (R211). -/
def hostGbps (d : Dev) : Nat := 800 * ((List.range 8).filter (hasEth d)).length + 950 * ((List.range 2).filter (hasPcx d)).length
def bwSum (d : Dev) : Nat := sumL (d.maps.tenants.map fun e => match e.2.accord with | some a => a.bw | none => 0)

/-- The accord a command carries. -/
def accordIn (c : Cmd) : Accord :=
  { lat := fld (dArg c.desc 1) 0 3, durable := bit (dArg c.desc 1) 3, share := fld (dArg c.desc 1) 16 10, bw := fld (dArg c.desc 2) 0 14 }

/-- Put an accord into the tenants (for admission, or for good). -/
def withAccord (t : Nat) (a : Option Accord) (d : Dev) : Dev :=
  { d with maps := { d.maps with tenants := tmod d.maps.tenants t fun x => { x with accord := a } } }

/-- The accord of a tenant changes; until the command's completion is posted, commands are still fetched under the one before (R71). -/
def setAccord (id t : Nat) (x : Tenant) (a : Option Accord) (d : Dev) : Dev :=
  finishOk id 0 (record (.tenant t (some { x with accord := a }) 3) (onCmd id (fun c => { c with accOld := some (t, x.accord) }) d))

/-- ACCORD_SET of a tenant with an accord: class, media, admission (R70, R211). -/
def accordAdmit (id t : Nat) (x : Tenant) (a : Accord) (d : Dev) : Dev :=
  if a.durable ∧ !hasQ d then finishErr id .classAbsent d
  else if d.maps.plots.any fun e => decide (e.2.tenant = t) && belowBound a.lat e.2.profile then finishErr id .accordMedia d
  else
    let trial := withAccord t (some a) d
    let short := dieShort trial (loadOf trial)
    let bw := bwSum trial - hostGbps d
    if short.1 ≠ 0 ∨ bw ≠ 0 ∨ (a.durable ∧ a.lat ≤ 6 ∧ !bit (rd d 0x30104) 8) then
      finish id .accordRefused (short.1 + 2 ^ 16 * short.2 + 2 ^ 32 * bw) 0xFF d
    else setAccord id t x (some a) d

/-- ACCORD_SET (R68, R211). -/
def execAccordSet (id : Nat) (s : State) : Host.Outcome State Fault Refusal :=
  s.on fun d => adminCmd id 0x89 (fun c d =>
    let t := fld (dArg c.desc 0) 0 12
    let a := accordIn c
    let remove := bit (dArg c.desc 1) 31
    if !remove ∧ 1000 < a.share then finishField id 48 d
    else if !remove ∧ 8300 < a.bw then finishField id 52 d
    else match tget d.maps.tenants t with
    | none => finishErr id .tenantInvalid d
    | some x => if remove then setAccord id t x none d else accordAdmit id t x a d) d

/-! ### GRAFT_START (R287) -/

/-- Valid data of a plot, in blocks. -/
def plotValid (d : Dev) (plot : Nat) : Nat := sumL ((d.maps.rows.filter fun e => decide (e.2.kind ≠ 2) && decide (e.2.plot = plot)).map fun e => e.2.valid)

/-- The geometry a graft asks for does not suit the plot (R287). -/
def graftFault (d : Dev) (p : Plot) (k mc : Nat) (durable : Bool) : Bool := match profileOf p.profile with
  | none => true
  | some f =>
    if p.region then decide (k ≠ 0) || decide (mc ≠ 0)
    else decide (k < 4) || decide (30 < k) || decide (((List.range (linkGroups d)).filter (lgUsable d)).length < rowSize durable k) ||
      decide (zoneCap f k mc < p.cap)

/-- GRAFT_START (R287, R288). ST_INVALID_FIELD names ARG0 (byte 44). -/
def execGraftStart (id : Nat) (s : State) : Host.Outcome State Fault Refusal :=
  s.on fun d => adminCmd id 0x8D (fun c => onPlot id c (fld (dArg c.desc 1) 0 12) fun p d =>
    let a := dArg c.desc 0
    let durable := bit a 0
    let k := if p.region then 16 else fld a 8 5
    let mc := if p.region then 0 else fld a 16 2
    let n := rowSize durable k
    if durable ∧ !hasQ d then finishErr id .classAbsent d
    else if graftFault d p (fld a 8 5) (fld a 16 2) durable then finishField id 44 d
    else if thas d.maps.grafts (dPlot c.desc) then finishErr id .graftBusy d
    else match profileOf p.profile with
    | none => finishField id 44 d
    | some f =>
      if (freeRows d p.profile n - reserveRows d p.profile) * (k * f.bedBlocks) < plotValid d (dPlot c.desc) then finishErr id .noSpaceGraft d
      else finishOk id 0 (raise .graftStart [dPlot c.desc, b2n durable + 2 ^ 8 * k + 2 ^ 16 * mc]
        (record (.graft (dPlot c.desc) (some { st := 1, durable := durable, k := k, mc := mc, waitSpace := false }) 1) d))) d

end Sys2Proof.Machine
end

