-- ==== Sys2Proof/Machine/Transfer.lean ====
section
/-!
DEFINITION. The data a command names in host or client memory (spec/03_command_rings.md R82-R85, spec/04_smiast_transport.md R145-R148): buffers and scatter
lists, their faults, and the reads and writes that cross the host port.
-/

namespace Sys2Proof.Machine

/-- Keys of staged bytes (Smiast): data from 0, host tags and the scatter list further up. -/
def tagBase : Nat := 2 ^ 24
def listBase : Nat := 2 ^ 25

/-- Bytes a command moves. -/
def dataLen (c : Cmd) : Nat := 4096 * dNblk c.desc

/-- A field of the descriptor that breaks R82: DPTR 64-byte aligned, TPTR 16-byte aligned when tags are used. -/
def ptrFault (desc : BitVec 512) : Option Nat :=
  if dDptr desc % 64 ≠ 0 then some 16 else if dHtag desc ∧ dTptr desc % 16 ≠ 0 then some 24 else none

/-- Does a scatter list keep R84? -/
def listOk (c : Cmd) (l : List SgEntry) : Bool :=
  decide (1 ≤ l.length) && decide (l.length ≤ 256) && (l.all fun e => decide (e.addr % 64 = 0) && decide (e.len % 64 = 0)) &&
  decide (sumL (l.map (·.len)) = dataLen c)

/-- The entries of a list as it lies in memory. -/
def parseList (l : List Byte) : List SgEntry := (List.range (l.length / 16)).map fun i =>
  { addr := leAt l (16 * i) 8, len := leAt l (16 * i + 8) 4, key := leAt l (16 * i + 12) 4 }

/-- The entries a list has by its own lengths: as many as reach the command's length, 256 at most. -/
def listUsed (n : Nat) : List SgEntry → List SgEntry
  | [] => []
  | e :: t => if n = 0 then [] else e :: listUsed (n - e.len) t

/-- What a command's data pointer gives: the segments, a fault of a field, or a Smiast list still to be fetched. -/
inductive SegRead where
  | segs (l : List SgEntry) | fault (field : Nat) | away
  deriving DecidableEq, Repr

/-- The segments of a command's data (R84). sg: the scatter list as the DMA read of a PCIe ring brings it. -/
def readSegs (d : Dev) (c : Cmd) (sg : List SgEntry) : SegRead :=
  match ptrFault c.desc with
  | some f => .fault f
  | none =>
    if !dList c.desc then .segs [⟨dDptr c.desc, dataLen c, dRkey c.desc⟩]
    else match bindOf d c with
    | some (.conn _) =>
      let l := (c.staged.filter fun e => decide (listBase ≤ e.1)).map (·.2)
      if l = [] then .away else
        let u := listUsed (dataLen c) (parseList l)
        if listOk c u then .segs (u.map fun e => { e with key := if e.key = 0 then dRkey c.desc else e.key }) else .fault 16
    | _ => if listOk c sg then .segs (sg.map fun e => { e with key := if e.key = 0 then dRkey c.desc else e.key }) else .fault 16

/-- The connection of a command on a Smiast ring. -/
def connOf (d : Dev) (c : Cmd) : Option (Nat × Conn) := match bindOf d c with
  | some (.conn k) => (tget d.smt.conns (fld k 0 18)).map fun x => (fld k 0 18, x)
  | _ => none

/-- A range a Smiast command would touch outside its region: the byte of the field at fault (R145). -/
def regionFault (d : Dev) (c : Cmd) (segs : List SgEntry) : Option Nat := match connOf d c with
  | none => none
  | some (_, k) =>
    let known := fun (key : Nat) => k.regions.any fun r => decide (r.2.2 = key)
    if (segs.any fun e => !known e.key) || (dHtag c.desc && !known (dRkey c.desc)) then some 32
    else if segs.any fun e => !inRegion k e.key e.addr e.len then some 16
    else if dHtag c.desc ∧ !inRegion k (dRkey c.desc) (dTptr c.desc) (16 * dNblk c.desc) then some 24
    else none

/-- Fetch a Smiast command's scatter list: 256 entries at most, as far as its region goes. -/
def fetchList (id : Nat) (c : Cmd) (d : Dev) : Dev := match connOf d c with
  | some (i, k) => match k.regions.find? fun r => decide (r.2.2 = dRkey c.desc) && decide (r.1 ≤ dDptr c.desc) && decide (dDptr c.desc + 16 ≤ r.1 + 64 * r.2.1) with
    | some r => smtRead i (.list id) (dDptr c.desc) (min 4096 (r.1 + 64 * r.2.1 - dDptr c.desc) / 16 * 16) (dRkey c.desc)
        (onCmd id (fun c => { c with stage := .transfer, asked := c.asked || decide (dOpc c.desc = 0x01) || decide (dOpc c.desc = 0x06) }) d)
    | none => finishField id (if k.regions.any fun r => decide (r.2.2 = dRkey c.desc) then 16 else 32) d
  | none => d

/-- The part of the segments that carries bytes off to off + n: address, length, key, offset. -/
def pieces (off n : Nat) : Nat → List SgEntry → List (Nat × Nat × Nat × Nat)
  | _, [] => []
  | base, e :: t =>
    let a := max off base
    let b := min (off + n) (base + e.len)
    (if a < b then [(e.addr + (a - base), b - a, e.key, a)] else []) ++ pieces off n (base + e.len) t

/-- A PCIe command's scatter list is read with the Requester ID of its ring's function (R171). -/
def askList (c : Cmd) (n : Nat) (d : Dev) : Dev := match bindOf d c with
  | some (.fn f) => if dList c.desc then send (.dmaRead f (dDptr c.desc) (16 * n)) d else d
  | _ => d

/-- Ask for a write's data and host tags. The tags of a Smiast command are read from 64-byte boundaries, which the region's lie on too (R125, R139). -/
def askData (id : Nat) (c : Cmd) (segs : List SgEntry) (d : Dev) : Dev := match bindOf d c with
  | some (.fn f) =>
    let d := forAll segs (fun e => send (.dmaRead f e.addr e.len)) d
    if dHtag c.desc then send (.dmaRead f (dTptr c.desc) (16 * dNblk c.desc)) d else d
  | some (.conn k) =>
    let i := fld k 0 18
    let skip := dTptr c.desc % 64
    let d := onCmd id (fun c => { c with asked := true }) d
    let d := forAll (pieces 0 (dataLen c) 0 segs) (fun p => smtRead i (.data id p.2.2.2) p.1 p.2.1 p.2.2.1) d
    if dHtag c.desc then smtRead i (.tags id skip 0) (dTptr c.desc - skip) (up64 (skip + 16 * dNblk c.desc)) (dRkey c.desc) d else d
  | _ => d

/-- Has everything a Smiast write asked for arrived? PCIe data comes with its command. -/
def dataHere (d : Dev) (c : Cmd) : Bool := match connOf d c with
  | some _ => decide (tcount c.staged (fun k _ => decide (k < tagBase)) = dataLen c) &&
      (!dHtag c.desc || decide (tcount c.staged (fun k _ => decide (tagBase ≤ k) && decide (k < listBase)) = 16 * dNblk c.desc))
  | none => true

/-- Block i of a write, and its host tag: from the DMA read, or staged (Smiast). -/
def hostBlock (d : Dev) (c : Cmd) (data : List Block) (i : Nat) : Block := match connOf d c with
  | some _ => BitVec.ofNat 32768 (leNat ((List.range 4096).map fun b => tgetD c.staged (4096 * i + b) 0))
  | none => data.getD i 0
def hostTag (d : Dev) (c : Cmd) (tags : List HostTag) (i : Nat) : HostTag :=
  if !dHtag c.desc then 0 else match connOf d c with
  | some _ => BitVec.ofNat 128 (leNat ((List.range 16).map fun b => tgetD c.staged (tagBase + 16 * i + b) 0))
  | none => tags.getD i 0

/-- Write bytes to host or client memory: a DMA write, or WR packets. cmd: the command whose read data they are. A command whose function was reset transfers nothing more (R178). -/
def hostWrite (d : Dev) (c : Cmd) (cmd : Option Nat) (addr key : Nat) (bytes : List Byte) : Dev := if c.discard then d else match bindOf d c with
  | some (.fn f) => send (.dma f addr bytes.length (leNat bytes)) d
  | some (.conn k) => smtWrite (fld k 0 18) addr key false bytes none cmd d
  | _ => d

/-- Runs of consecutive true positions: start and length. -/
def runs : Nat → List Bool → List (Nat × Nat)
  | _, [] => []
  | i, b :: t => match b, runs (i + 1) t with
    | false, r => r
    | true, (s, n) :: r => if s = i + 1 then (i, n + 1) :: r else (i, 1) :: (s, n) :: r
    | true, [] => [(i, 1)]

end Sys2Proof.Machine
end

