-- ==== Sys2Proof/Machine/Almanac.lean ====
section
/-!
DEFINITION. The Almanac on one die (spec/06_placement_and_almanac.md R192-R202): which operation comes next, suspending and resuming, the minimum run time,
the blocking gate, and the command frames that carry the operations out.
-/

namespace Sys2Proof.Machine

/-! ### Registers -/

/-- ALM_SUSPEND: MRT in µs against the profile's minimum (R197), LIMIT. -/
def mrtOf (d : Dev) (die : Nat) : Nat := max (clampN 50 1000 (fld (rd d 0x30100) 0 10)) (theProfile (dieProfile d die)).mrt
def susLimit (d : Dev) : Nat := zeroAsOne (fld (rd d 0x30100) 16 4)
/-- ALM_RCA: SKIP in µs, at most the profile's tSUS; EN. -/
def rcaSkip (d : Dev) (die : Nat) : Nat := min (fld (rd d 0x30104) 0 8) (theProfile (dieProfile d die)).sus
def rcaOn (d : Dev) : Bool := bit (rd d 0x30104) 8

/-! ### Operations of a die -/

def onOp (i : Nat) (f : DieOp → DieOp) (d : Dev) : Dev := { d with alm := { d.alm with ops := tmod d.alm.ops i f } }
def dropOp (i : Nat) (d : Dev) : Dev := { d with alm := { d.alm with ops := tdel d.alm.ops i } }
def onDie (die : Nat) (f : Die → Die) (d : Dev) : Dev := { d with alm := { d.alm with dies := tmod d.alm.dies die f } }

/-- The operation a die runs, and the one it has suspended. -/
def runningOp (d : Dev) (die : Nat) : Option (Nat × DieOp) := tfind d.alm.ops fun _ o => decide (o.die = die) && o.sent && !o.suspended
def suspendedOp (d : Dev) (die : Nat) : Option (Nat × DieOp) := tfind d.alm.ops fun _ o => decide (o.die = die) && o.sent && o.suspended
/-- Operations that wait for a die. -/
def waitingOps (d : Dev) (die : Nat) : Tbl DieOp := tfilter d.alm.ops fun _ o => decide (o.die = die) && !o.sent

/-- Is a die blocked (R198)? -/
def blockedNow (d : Dev) (die : Nat) : Bool := match tget d.alm.dies die with | some x => decide (d.io.now < x.blockedUntil) | none => false

/-- Does an operation make dirty bytes fewer (R195 level 2): a program of the write buffer or of a spill, or the erase that such a program waits for? -/
def bufProgram (d : Dev) (o : DieOp) : Bool := decide (o.level = 6) && (match o.kind, o.work with
  | .program, .host => (match rowAt d o.row with | some r => decide (r.kind ≠ 2) | none => false)
  | .program, .spill _ => true
  | .erase, _ => d.med.toErase.contains (o.die, o.bed)
  | _, _ => false)

/-- The level in force (R195): what an orderly stop has to program at 1, programs that bring dirty bytes under the ceiling at 2. -/
def levelOf (d : Dev) (o : DieOp) : Nat :=
  if d.thm.stopping ∧ bufProgram d o then 1
  else if bufProgram d o ∧ d.clo.ceil < dirtyBytes d then 2 else o.level

/-- Levels 3 to 7 and the gate are set aside in a Cloche flush or an orderly stop (R200). -/
def setAside (d : Dev) : Bool := d.thm.stopping || d.kpr.flush.isSome

/-- Has a tenant used its share of a die in this period (R195)? Share in per mille of 2 ms, time used in µs; a share of 0 counts as 1 in the weights. -/
def shareOf (d : Dev) (t : Option Nat) : Nat := match t with
  | some k => (match accordOf d k with | some a => a.share | none => 0)
  | none => 0
def usedOn (d : Dev) (die : Nat) (t : Option Nat) : Nat := match tget d.alm.dies die, t with
  | some x, some k => tgetD x.used k 0
  | _, _ => 0

/-- What orders the operations that wait, least first: level; within levels 3 to 6 tenants beyond their share last, then time used by weight; then the level's own
order (R195). Pages of a failed word line go before what waits behind them on the bed (R255). -/
def opRank (d : Dev) (i : Nat) (o : DieOp) : List Nat :=
  let l := levelOf d o
  let fair := decide (3 ≤ l) && decide (l ≤ 6)
  let u := usedOn d o.die o.tenant
  let sh := shareOf d o.tenant
  [l, if fair then b2n (decide (2 * sh ≤ u)) else 0, if fair then u * 1000 / zeroAsOne sh else 0, if l = 4 then o.deadline else 0, if o.work = .again then 0 else i]

def lexLt : List Nat → List Nat → Bool
  | a :: s, b :: t => decide (a < b) || (decide (a = b) && lexLt s t)
  | _, _ => false

/-- The first of the operations in that order. -/
def bestOp (d : Dev) (l : Tbl DieOp) : Option (Nat × DieOp) := (sortBy (fun a b => lexLt (opRank d a.1 a.2) (opRank d b.1 b.2)) l).head?

/-! ### The gate (R199, R200) -/

/-- Blocked dies of a bound set, a failed member among them. -/
def setBlocked (d : Dev) (dies : List Nat) : Nat := (dies.filter fun x => blockedNow d x || dieFailed d x).length

/-- May a program or erase start or resume on a die (R199, R200)? -/
def gateOpen (d : Dev) (die : Nat) : Bool := setAside d || d.alm.bsets.all fun e => !e.2.contains die || decide (setBlocked d e.2 ≤ 1)

/-- A start or resume is held back, counted once (R199). -/
def holdBack (i : Nat) (o : DieOp) (d : Dev) : Dev :=
  if o.gated then d else onOp i (fun o => { o with gated := true }) { d with alm := { d.alm with gateWait := satInc 32 d.alm.gateWait } }

/-! ### Carrying operations out -/

/-- Bytes of a media codeword (R386). -/
def cwBytes (code : Nat) : Nat := if code = 2 then 4736 else 4608

/-- What a program puts at a column of its page: a member of an incomplete stripe, or what a copy, rebuild or spill laid there. -/
def opPayload (d : Dev) (o : DieOp) (r : Row) (q c : Nat) : Payload :=
  (match o.work with | .host => pagePayload d o.row r o.stripe o.pos q c | _ => onFlash d o.die o.bed o.stripe q c).getD 0

/-- The raw bytes of a program: every plane's page in turn (R363, R386). -/
def programBytes (d : Dev) (o : DieOp) (r : Row) : List Byte :=
  let p := theProfile r.profile
  (List.range p.planes).flatMap fun q => Config.rawPage (tgetD d.sec.store r.plot 0) o.die o.bed o.page q
    ((List.range p.w).map fun c => opPayload d o r q c)

/-- The offsets of a READ_OFS: set n of the profile's retry table for the bed's wear (R390). -/
def ofsBytes (d : Dev) (o : DieOp) (n sense : Nat) : List Byte :=
  let prof := dieProfile d o.die
  let table := min 7 ((bedOf d o.die o.bed).pe * 8 / (theProfile prof).pe)
  leBytes 15 (Config.retryOfs prof table n sense).toNat

/-- The command of an operation. The page is the one the skip list leaves at the page position (R255). -/
def opCommand (d : Dev) (o : DieOp) : Nat × List Byte × List Byte :=
  let p := theProfile (dieProfile d o.die)
  let b := bedOf d o.die o.bed
  let pg := physPage p.bpc b.skips o.page
  match o.kind with
  | .readPage =>
    let js := o.jobs.filterMap (tget d.alm.jobs)
    let lo := js.foldl (fun a j => min a j.c) 3
    let hi := js.foldl (fun a j => max a j.c) 0
    let rt := js.foldl (fun a j => max a j.retries) 0
    let sn := js.foldl (fun a j => max a j.senses) 0
    let cw := cwBytes p.code
    let opc := if o.retry then opReadOfs else opRead
    (opc, cmdBytes opc (2 ^ o.plane) b.slc false o.bed pg 0 0 (lo * cw) ((hi + 1 - lo) * cw) (if o.retry then ofsBytes d o (rt - 1) sn else []), [])
  | .program => match rowAt d o.row with
    | some r => (opProgram, cmdBytes opProgram (2 ^ p.planes - 1) b.slc false o.bed pg 1 0 0 0 [], programBytes d o r)
    | none => (opProgram, cmdBytes opProgram (2 ^ p.planes - 1) b.slc false o.bed pg 1 0 0 0 [], [])
  | .erase => (opErase, cmdBytes opErase (2 ^ p.planes - 1) b.slc false o.bed 0 0 0 0 0 [], [])

/-- A program or erase starts or resumes: the die is blocked for the minimum run time, or to the end on its last resume (R197, R198). -/
def blockDie (o : DieOp) (d : Dev) : Dev :=
  onDie o.die (fun x => { x with blockedUntil := if susLimit d ≤ o.suspends then 2 ^ 64 else d.io.now + 1000 * mrtOf d o.die }) d

/-- Array senses count against their bed, saturating (R249). -/
def countSense (die bed n : Nat) (d : Dev) : Dev := readCheck die bed (noteBed die bed (fun b => { b with senses := satAdd 32 b.senses n }) d)

/-- Background work may use a die in this slot (R201). -/
def bgNow (d : Dev) (die : Nat) : Bool := d.alm.slotBg.contains die

/-- Work that takes slots beyond the background ones (R202, R248). -/
def hardWork (d : Dev) (w : Work) : Bool := match w with
  | .rebuild _ => true
  | .xpl k => (match tget d.med.xpls k with | some x => x.hard | none => false)
  | _ => false

/-- A slot for an operation: background work in background slots only (R201); rebuilds and hard transplants take ALM_BG.REBUILD further slots of a die in a period (R202). -/
def slotOk (d : Dev) (o : DieOp) : Bool := match o.work with
  | .host | .again | .spill _ => decide (o.level ≠ 7) || bgNow d o.die
  | w => bgNow d o.die || (hardWork d w && (d.alm.slotRb.contains o.die || decide (tgetD d.alm.rbUsed o.die 0 < bgRebuild d)))

/-- A further slot of the period is taken on a die (R202). -/
def takeSlot (o : DieOp) (d : Dev) : Dev :=
  if hardWork d o.work ∧ !bgNow d o.die ∧ !d.alm.slotRb.contains o.die
  then { d with alm := { d.alm with slotRb := d.alm.slotRb ++ [o.die], rbUsed := tset d.alm.rbUsed o.die (tgetD d.alm.rbUsed o.die 0 + 1) } } else d

/-- Send an operation's command. -/
def startOp (i : Nat) (o : DieOp) (d : Dev) : Dev :=
  let d := takeSlot o d
  let l := linkOf o.die
  let c := opCommand d o
  let r := hlCommand l (o.die % 8) c.1 (some i) c.2.1 (onOp i (fun o => { o with sent := true, gated := false, since := d.io.now }) d)
  let d := if c.2.2 = [] then r.2 else hlData l (o.die % 8) r.1 c.2.2 r.2
  if o.kind = .readPage then countSense o.die o.bed 1 d else blockDie o d

/-- Name a running or suspended operation in a SUSPEND or RESUME. -/
def pauseCommand (opc i : Nat) (o : DieOp) (d : Dev) : Dev :=
  let l := linkOf o.die
  match otagOf d l i with
  | some tag => (hlCommand l (o.die % 8) opc (some i) (cmdBytes opc 0 false false 0 0 0 tag 0 0 []) d).2
  | none => d

/-- May an operation be suspended for reads (R196, R197)? -/
def maySuspend (d : Dev) (o : DieOp) : Bool :=
  decide (o.kind ≠ .readPage) && !o.suspending && decide (3 ≤ levelOf d o) && !blockedNow d o.die && decide (o.since + 1000 * mrtOf d o.die ≤ d.io.now) &&
  decide (o.suspends < susLimit d)

/-- Is an operation's turn, but for the gate: it has a slot, a program's bed is erased, its level is not set aside? -/
def mayAsk (d : Dev) (o : DieOp) : Bool :=
  slotOk d o && (decide (o.kind ≠ .program) || !d.med.toErase.contains (o.die, o.bed)) && (!setAside d || decide (levelOf d o ≤ 2))

/-- May an operation start: its turn has come, and the gate lets a program or erase through. -/
def mayStart (d : Dev) (o : DieOp) : Bool := mayAsk d o && (decide (o.kind = .readPage) || gateOpen d o.die)

/-- Can the link of a die take another command? A parked link is woken by it (R358). -/
def linkTakes (d : Dev) (die : Nat) : Bool :=
  let st := (linkAt d (linkOf die)).st
  (decide (st = lsActive) || decide (st = lsP1) || decide (st = lsP2)) && hlRoom d (linkOf die) (die % 8)

/-- The Almanac chooses what a die does next (R195, R196, R199). -/
def almPump (die : Nat) (d : Dev) : Dev :=
  if !linkTakes d die ∨ (tget d.alm.dies die).any (fun x => x.resetting.isSome) = true then d else
  let w := waitingOps d die
  let reads := tfilter w fun _ o => decide (o.kind = .readPage) && decide (o.level ≤ 5) && !setAside d
  match runningOp d die with
  | some (i, o) => if reads ≠ [] ∧ maySuspend d o then pauseCommand opSuspend i o (onOp i (fun o => { o with suspending := true }) d) else d
  | none => match suspendedOp d die with
    | some (i, o) =>
      let due := decide (reads = []) || decide (levelOf d o ≤ 2)
      if due ∧ gateOpen d die then
        pauseCommand opResume i o (blockDie o (onOp i (fun o => { o with suspended := false, gated := false, since := d.io.now }) d))
      else
        -- while the gate holds the resume back, reads that wait are served (R196)
        let d := if due then holdBack i o d else d
        match bestOp d reads with | some (j, q) => startOp j q d | none => d
    | none =>
      let d := match bestOp d (tfilter w fun _ o => mayAsk d o) with
        | some (j, q) => if q.kind ≠ .readPage ∧ !gateOpen d die then holdBack j q d else d
        | none => d
      match bestOp d (tfilter w fun _ o => mayStart d o) with
      | some (j, q) => startOp j q d
      | none => d

/-- Re-examine the dies of the bound sets a die belongs to, lower link and target first (R199, R200). -/
def pumpSets (die : Nat) (d : Dev) : Dev :=
  forAll ((sortBy (fun a b => decide (a < b)) ((d.alm.bsets.filter fun e => e.2.contains die).flatMap (·.2))).eraseDups) almPump d

/-- Re-examine every die with waiting or suspended work on a link. -/
def pumpLink (l : Nat) (d : Dev) : Dev :=
  forAll (((d.alm.ops.filter fun e => decide (linkOf e.2.die = l)).map fun e => e.2.die).eraseDups) almPump d

/-- Every die with work. -/
def pumpAll (d : Dev) : Dev := forAll ((d.alm.ops.map fun e => e.2.die).eraseDups) almPump d

/-! ### Periods and slots (R192-R194, R201) -/

/-- Slots claimed for accords on every die (R194). -/
def claimedSlots (d : Dev) : Nat := cdiv (loadOf d) 125

/-- Does a command of a tenant with a claim wait for a die (R201)? -/
def claimWaits (d : Dev) (die : Nat) : Bool := (waitingOps d die).any fun e => decide (1 ≤ shareOf d e.2.tenant)

/-- Is the slot of a die one for background work: beyond the claimed ones, which come first in the period (notes/assumptions/18.md) and are no more than the ceiling plans (R193), or a claimed
one lent? -/
def slotIsBg (d : Dev) (slot die : Nat) : Bool := decide (min (claimedSlots d) (min (plannedSlots d) (8 - bgReserve d)) ≤ slot) || !claimWaits d die

end Sys2Proof.Machine
end

