-- ==== Sys2Proof/Machine/ReadPath.lean ====
section
/-!
DEFINITION. Reading blocks (spec/06_placement_and_almanac.md R203-R205, spec/08_rows_and_parity.md R268, R273, R280-R282, spec/11_integrity_and_memory.md R376,
R380, R389-R392): where each block is, the codewords read for it, reconstruction from the row, soft decode, lost blocks, and egress.
-/

namespace Sys2Proof.Machine

/-! ### Lost blocks (R48, R281, R282) -/

/-- The zone a stripe belongs to. -/
def zoneOfStripe (d : Dev) (row s : Nat) : Option Nat := match rowAt d row with
  | none => none
  | some r => (d.maps.zones.find? fun e => decide (e.2.row = some row) && decide (e.1 / 2 ^ 32 = r.plot) && (r.assigned.getD e.2.slot []).contains s).map (·.1)

/-- Lost blocks among a zone's written ones; the fillers that a finish leaves behind them do not count. -/
def lostOfZone (d : Dev) (z : Zone) : Nat := match z.row with
  | some row => match rowAt d row with
    | some r => sumL ((r.assigned.getD z.slot []).zipIdx.map fun e => ((tgetD d.maps.lost (skey row e.1) []).filter fun b => decide (e.2 * r.perStripe + b < z.written)).length)
    | none => 0
  | none => 0

/-- A zone with a lost stripe becomes Read-Only, and Offline when no written block is readable; its row share is released for writing (R48). -/
def zoneLost (key : Nat) (d : Dev) : Dev := match tget d.maps.zones key with
  | none => d
  | some z =>
    let off := decide (z.written ≤ lostOfZone d z) && decide (0 < z.written)
    let st : ZState := if z.st = .offline ∨ off then .offline else .readOnly
    let d := putZone (key / 2 ^ 32) (key % 2 ^ 32) { z with st := st, lost := true } d
    match z.st.active, z.row, tget d.maps.plots (key / 2 ^ 32) with
    | true, some row, some p => fillShare row z.slot (key / 2 ^ 32) (key % 2 ^ 32 * p.span) z.wp d
    | _, _, _ => d

/-- Record blocks of a stripe as lost, with EV_STRIPE_LOST. -/
def markLost (row s : Nat) (blocks : List Nat) (d : Dev) : Dev :=
  let old := tgetD d.maps.lost (skey row s) []
  let new := sortBy (fun a b => decide (a < b)) (blocks.filter fun b => !old.contains b) 
  if new = [] then d else
    let d := raise .stripeLost [row, s, new.length] (record (.lost (skey row s) (sortBy (fun a b => decide (a < b)) (old ++ new))) d)
    match zoneOfStripe d row s with
    | some z => zoneLost z d
    | none => d

/-! ### Where a block is read from -/

/-- Where a block to be read lies. -/
inductive Source where
  | beyond | offline | unwritten | zeros | buffer (p : Payload) | media (row s b : Nat) | lost
  deriving DecidableEq, Repr

/-- A block at a slot's data offset. -/
def mediaSource (d : Dev) (row slot o : Nat) : Source := match rowAt d row with
  | none => .unwritten
  | some r => match placeOf r slot o with
    | some (s, b) => if isLost d row s b then .lost else .media row s b
    | none => .unwritten

/-- The map entry of a region block: region-row slot and offset (R231). -/
def regionSource (d : Dev) (plot lba : Nat) : Source := match tget d.maps.cmap (lkey plot lba) with
  | none => .zeros
  | some e => match tget d.maps.rslots (plot * 16384 + e / 2 ^ 22) with
    | some row => mediaSource d row 0 (e % 2 ^ 22)
    | none => .zeros

/-- A block of the write buffer, or the rescue row that holds it (R271). -/
def bufSource (d : Dev) (b : BufBlk) : Source := match (if b.spilled then b.at_ else none) with
  | some (row, o) => (match mediaSource d row 0 o with | .media x s i => .media x s i | _ => .buffer b.pay)
  | none => .buffer b.pay

/-- Where block lba of a plot lies, for a read (R26, R56, R57, R65). held: where a read fetched before a move finds what the move took away (R246). -/
def source (d : Dev) (held : Tbl (Nat × Nat)) (plot : Nat) (p : Plot) (lba : Nat) : Source :=
  if p.region then
    (if p.cap ≤ lba then .beyond else match buffered d plot lba, tget held (2 ^ 63 + lkey plot lba) with
      | some b, _ => bufSource d b
      | none, some x => mediaSource d x.1 0 x.2
      | none, none => regionSource d plot lba)
  else
    let z := zoneOf d plot (lba / p.span)
    if p.count ≤ lba / p.span ∨ p.cap ≤ lba % p.span then .beyond
    else if z.st = .offline then .offline
    else if z.wp ≤ lba % p.span then .unwritten
    else match buffered d plot lba, tget held (zkey plot (lba / p.span)) with
      | some b, _ => bufSource d b
      | none, some x => mediaSource d x.1 x.2 (lba % p.span)
      | none, none => match z.row with | some row => mediaSource d row z.slot (lba % p.span) | none => .unwritten

/-- Does a read, or a COPY, take blocks from a row? -/
def readsRow (d : Dev) (c : Cmd) (row : Nat) : Bool := (decide (dOpc c.desc = 1) || decide (dOpc c.desc = 6) || decide (dOpc c.desc = 7)) && !c.past &&
  (match tget d.maps.plots (dPlot c.desc) with
    | some p => (List.range (dNblk c.desc)).any fun i => match source d c.held (dPlot c.desc) p (dLba c.desc + i) with | .media x _ _ => decide (x = row) | _ => false
    | none => false)

/-- A move takes effect: reads fetched before it and not begun keep the old place (R246). A later reset or rewrite of what it was ends that. -/
def holdOld (key : Nat) (place : Nat × Nat) (d : Dev) : Dev :=
  { d with qm := { d.qm with cmds := tmap d.qm.cmds fun _ c =>
      if (readsRow d c place.1 ∧ c.got = [] ∧ !thas c.held key) then { c with held := tset c.held key place } else c } }
/-- A row position gets another bed: reads fetched before keep the old bed where a transplant changed it, else rebuild the position from the row (R252, R279). -/
def posKey (row pos : Nat) : Nat := 2 ^ 62 + pkey row pos
def holdPos (row pos : Nat) (old : Option (Nat × Nat)) (d : Dev) : Dev :=
  { d with qm := { d.qm with cmds := tmap d.qm.cmds fun _ c =>
      if (readsRow d c row ∧ !thas c.held (posKey row pos)) then { c with held := tset c.held (posKey row pos) (row, old.elim 0 fun p => 1 + bkey p.1 p.2) } else c } }
def heldPos (d : Dev) (cmd row pos : Nat) : Option Nat := (tget d.qm.cmds cmd).bind fun c => (tget c.held (posKey row pos)).map (·.2)
/-- The bed of a row position that a read goes to, and whether it reads the position at all. -/
def bedFor (d : Dev) (cmd row : Nat) (r : Row) (pos : Nat) : Nat × Nat := match heldPos d cmd row pos with
  | some (x + 1) => (x / 4096, x % 4096)
  | _ => r.dieBed pos
def deadFor (d : Dev) (cmd row : Nat) (r : Row) (pos : Nat) : Bool := memberDead d row pos (bedFor d cmd row r pos).1 || decide (heldPos d cmd row pos = some 0)
def unhold (key : Nat) (d : Dev) : Dev := { d with qm := { d.qm with cmds := tmap d.qm.cmds fun _ c => { c with held := tdel c.held key } } }

/-- What a payload that passed its guard gives the reader (R376). -/
def gotOf (p : Payload) : Got := if pLost p then .lost else if pFill p then .filler else .have p

/-! ### Jobs -/

def onJob (i : Nat) (f : Job → Job) (d : Dev) : Dev := { d with alm := { d.alm with jobs := tmod d.alm.jobs i f } }

/-- Jobs that read siblings for a job and have not ended. -/
def siblingsOf (d : Dev) (i : Nat) : Tbl Job := tfilter d.alm.jobs fun _ j => decide (j.parent = some i) && decide (j.st ≠ .finished) && decide (j.st ≠ .aside)
/-- The first member put aside after a failed hard decode (R205). -/
def asideOf (d : Dev) (i : Nat) : Option (Nat × Job) := tfind d.alm.jobs fun _ j => decide (j.parent = some i) && decide (j.st = .aside)

/-- A job and its siblings end. A soft buffer is given back (R392). -/
def endJob (i : Nat) (d : Dev) : Dev :=
  let mine := tfilter d.alm.jobs fun k j => decide (k = i) || decide (j.parent = some i)
  let d := forAll mine (fun e d => if e.2.st = .soft then { d with ecc := { d.ecc with softUse := tset d.ecc.softUse e.2.cluster (tgetD d.ecc.softUse e.2.cluster 0 - 1) } } else d) d
  { d with
    alm := { d.alm with jobs := tfilter d.alm.jobs fun k j => decide (k ≠ i) && decide (j.parent ≠ some i)
                        ops := tfilter d.alm.ops fun _ o => o.sent || !(decide (o.jobs ≠ []) && o.jobs.all fun k => thas mine k) }
    ecc := { d.ecc with softWait := d.ecc.softWait.filter fun k => !thas mine k } }

/-- A block has its outcome. -/
def deliver (j : Job) (g : Got) (d : Dev) : Dev := onCmd j.cmd (fun c => { c with got := c.got.set j.idx g }) d

/-- Is a READ of a row bounded (the Terms of chapter 6, R191)? -/
def bounded (d : Dev) (c : Cmd) (r : Row) : Bool :=
  decide (dOpc c.desc = 1) && r.bset.isSome && (match tenantOf d c with | some t => boundTenant d t | none => false)

/-- Level and deadline of a command's reads (R195). -/
def readLevel (d : Dev) (c : Cmd) (r : Row) : Nat × Nat := match targets c.lat with
  | some (t, _) => if bounded d c r then (3, 0) else (4, c.arrived + 1000 * t)
  | none => (5, 0)

/-- Add a job to a read of its page that still waits, or queue a read for it. Jobs of one command share a page's read. -/
def queueRead (i : Nat) (retry : Bool) (d : Dev) : Dev := match tget d.alm.jobs i with
  | none => d
  | some j => match rowAt d j.row, tget d.qm.cmds j.cmd with
    | some r, some c =>
      let p := bedFor d j.cmd j.row r j.pos
      let same := tfind d.alm.ops fun _ o => decide (o.die = p.1) && decide (o.bed = p.2) && decide (o.page = j.stripe) && decide (o.plane = j.q) && !o.sent &&
        decide (o.kind = .readPage) && decide (o.retry = retry) && !retry && o.jobs.any fun k => match tget d.alm.jobs k with | some x => decide (x.cmd = j.cmd) | none => false
      match same with
      | some (k, _) => onOp k (fun o => { o with jobs := o.jobs ++ [i] }) d
      | none =>
        let l := readLevel d c r
        queueOp { die := p.1, kind := .readPage, bed := p.2, page := j.stripe, plane := j.q, level := l.1, deadline := l.2, retry := retry, tenant := tenantOf d c, jobs := [i], row := j.row, stripe := j.stripe, pos := j.pos } d
    | _, _ => d

/-- Start a job; its number and the part with it. -/
def newJob (j : Job) (d : Dev) : Nat × Dev :=
  (d.alm.nextJob, { d with alm := { d.alm with jobs := tset d.alm.jobs d.alm.nextJob j, nextJob := d.alm.nextJob + 1 } })

/-- Re-examine the die of a job. -/
def pumpJob (i : Nat) (d : Dev) : Dev := match tget d.alm.jobs i with
  | some j => (match rowAt d j.row with | some r => almPump (bedFor d j.cmd j.row r j.pos).1 d | none => d)
  | none => d

/-- Re-examine the dies of a row. -/
def pumpRow (row : Nat) (d : Dev) : Dev := match rowAt d row with
  | some r => forAll r.pos (fun p => almPump p.1) d
  | none => d

/-! ### Soft decode (R390-R392) -/

/-- LDC_SOFT_CFG. -/
def softRetries (d : Dev) : Nat := min 16 (fld (rd d 0x62000) 0 5)
def softOn (d : Dev) : Bool := bit (rd d 0x62000) 8

/-- The decoder cluster of a link group; a fenced one gives way to its neighbour (R387, R388). -/
def clusterOf (d : Dev) (g : Nat) : Nat :=
  let c := if 64 ≤ linkGroups d then g / 2 else g
  if d.ecc.fenced.contains c then c ^^^ 1 else c
/-- Fence a cluster until the next start (R388). -/
def fenceCluster (c : Nat) (d : Dev) : Dev :=
  if d.ecc.fenced.contains c then d else raise .ldcFence [c] { d with ecc := { d.ecc with fenced := d.ecc.fenced ++ [c] } }
def jobCluster (d : Dev) (j : Job) : Nat := match rowAt d j.row with | some r => clusterOf d (lgOf (bedFor d j.cmd j.row r j.pos).1) | none => 0

/-- The link groups a cluster serves (R387), and whether its domain is off: each of them in P2 (R448, R465). -/
def clusterGroups (d : Dev) (c : Nat) : List Nat := if 64 ≤ linkGroups d then [2 * c, 2 * c + 1] else [c]
def clusterOff (d : Dev) (c : Nat) : Bool := (clusterGroups d c).all d.pwr.lgParked.contains

/-- A free soft buffer: the home cluster's, else the lowest cluster's with one (8 each) (R392); clusters that are off or fenced lend none (R388, R451). -/
def freeSoft (d : Dev) (home : Nat) : Option Nat :=
  if tgetD d.ecc.softUse home 0 < 8 then some home
  else (List.range 32).find? fun c => decide (tgetD d.ecc.softUse c 0 < 8) && !clusterOff d c && !d.ecc.fenced.contains c

/-- Give the first waiting soft decode a buffer, and sense three times: foreground decodes in arrival order, then members of a reconstruct-around. -/
def softGrant (d : Dev) : Dev :=
  let fg := d.ecc.softWait.filter fun i => match tget d.alm.jobs i with | some j => j.parent.isNone | none => false
  match (fg ++ d.ecc.softWait).head? with
  | none => d
  | some i => match tget d.alm.jobs i with
    | none => { d with ecc := { d.ecc with softWait := d.ecc.softWait.filter (· ≠ i) } }
    | some j => match freeSoft d (jobCluster d j) with
      | none => d
      | some c =>
        let d := { d with ecc := { d.ecc with softWait := d.ecc.softWait.filter (· ≠ i), softUse := tset d.ecc.softUse c (tgetD d.ecc.softUse c 0 + 1) } }
        pumpJob i (queueRead i true (onJob i (fun j => { j with st := .soft, cluster := c, senses := 0 }) d))

/-- Step A while retries remain, then step B, for a codeword whose decode failed; its bed is to be transplanted (R248 cause 1). none: neither is left. -/
def softSteps (i : Nat) (j : Job) (d : Dev) : Option Dev :=
  let e := queueXpl j.row j.pos 1 true d
  if ¬(j.st = .decoding ∨ j.st = .retrying) then none
  else if j.retries < softRetries d then
    some (pumpJob i (queueRead i true (onJob i (fun j => { j with st := .retrying, retries := j.retries + 1, senses := 0 }) e)))
  else if softOn d then
    some (softGrant (onJob i (fun j => { j with st := .softWait }) { e with ecc := { e.ecc with softWait := e.ecc.softWait ++ [i] } }))
  else none

/-! ### Reconstruction (R203, R204, R268, R273) -/

/-- Is a read of level 3 waiting at a die (the Terms of chapter 6)? -/
def boundedWaits (d : Dev) (die : Nat) : Bool := (waitingOps d die).any fun e => decide (e.2.kind = .readPage) && decide (e.2.level = 3)

/-- A running operation that may not be suspended makes its die count as blocked (R196). -/
def unsuspendable (d : Dev) (die : Nat) : Bool := match runningOp d die with
  | some (_, o) => decide (o.kind ≠ .readPage) && decide (levelOf d o ≤ 2)
  | none => false

/-- Unavailable for reconstruct-around. -/
def unavailable (d : Dev) (die : Nat) : Bool := blockedNow d die || dieFailed d die || boundedWaits d die || unsuspendable d die

/-- What the running parity and the buffer give of a column of an incomplete stripe: a member not yet placed counts as zero, as in the parity itself. -/
def columnNow (d : Dev) (row : Nat) (r : Row) (s q c target : Nat) : Column := match tget d.med.stripes (skey row s) with
  | none => []
  | some st => (List.range r.n).foldl (fun t pos =>
      let role := roleAt r.n pos s
      if pos = target ∨ st.progd.contains pos then t else match pagePayload d row r s pos q c with
      | some v => tset t role v
      | none => if role < r.k ∧ st.blocks.length ≤ blockOf (theProfile r.profile) r.k role q c then tset t role 0 else t) []

/-- Read the siblings of a job's block. out: positions not to read. -/
def startAround (i : Nat) (out : List Nat) (d : Dev) : Dev := match tget d.alm.jobs i with
  | none => d
  | some j => match rowAt d j.row with
    | none => d
    | some r =>
      let col := columnNow d j.row r j.stripe j.q j.c j.target
      let d := onJob i (fun j => { j with around := true, gotp := col }) d
      let todo := (List.range r.n).filter fun pos => decide (pos ≠ j.target) && !out.contains pos && !deadFor d j.cmd j.row r pos &&
        !isFixed d (bedFor d j.cmd j.row r pos).1 (bedFor d j.cmd j.row r pos).2 j.stripe j.q j.c && !thas col (roleAt r.n pos j.stripe) && !j.bad.contains pos
      -- the dies are examined when every block of the read has asked, so that blocks of one page share its read (R265)
      forAll todo (fun pos d =>
        let x := newJob { cmd := j.cmd, idx := j.idx, plot := j.plot, lba := j.lba, row := j.row, stripe := j.stripe, q := j.q, c := j.c, pos := pos, target := j.target, parent := some i } d
        queueRead x.1 false x.2) d

/-- Count a reconstructed page once (R204). -/
def countRca (i : Nat) (d : Dev) : Dev := match tget d.alm.jobs i with
  | some j => if d.alm.jobs.any fun e => decide (e.1 ≠ i) && decide (e.2.cmd = j.cmd) && e.2.around && e.2.parent.isNone && decide (e.2.row = j.row) && decide (e.2.stripe = j.stripe) && decide (e.2.q = j.q) && decide (e.2.target = j.target)
      then d else { d with alm := { d.alm with rcaCnt := satInc 32 d.alm.rcaCnt } }
  | none => d

/-- Positions of a row that are unavailable to a read of one of them, that one included (R203). -/
def awayFrom (d : Dev) (row : Nat) (r : Row) (target : Nat) : List Nat :=
  (List.range r.n).filter fun pos => decide (pos = target) || thas d.med.rebuilds (pkey row pos) || unavailable d (r.dieBed pos).1

/-- Does a waiting read want to go around its die (R203): 0 no, 1 more members are unavailable than may be, 2 yes? A rescue row and a spilled stripe are not read around (R271). -/
def rcaFires (d : Dev) (i : Nat) (o : DieOp) : Nat := match o.jobs.head?.bind (tget d.alm.jobs) with
  | none => 0
  | some j => match rowAt d j.row, tget d.qm.cmds j.cmd with
    | some r, some c =>
      let left := match tget d.alm.dies o.die with | some x => decide (d.io.now + 1000 * rcaSkip d o.die < x.blockedUntil) | none => false
      let ahead := (waitingOps d o.die).any fun e => decide (e.1 < i) && decide (e.2.level = 3) && decide (opCmd d e.2 ≠ some j.cmd)
      let want := rcaOn d && decide (c.lat ≤ 6) && j.parent.isNone && !j.around && !o.retry && ((blockedNow d o.die && left) || ahead || unsuspendable d o.die) &&
        decide (r.kind ≠ 2) && !(stripeAt d j.row j.stripe).spilled
      if !want then 0 else if (awayFrom d j.row r j.target).length ≤ (if r.durable then 2 else 1) then 2 else 1
    | _, _ => 0

/-- Fire it: the read is taken from the target's queue, and for each of its blocks every member is read that was available when it fired. -/
def fireRca (o : Nat × DieOp) (d : Dev) : Dev := match o.2.jobs.head?.bind (tget d.alm.jobs) with
  | none => d
  | some j => match rowAt d j.row with
    | none => d
    | some r =>
      let out := awayFrom d j.row r j.target
      pumpRow j.row (forAll o.2.jobs (fun i d => startAround i out (blame j.cmd 5 0 (onCmd j.cmd (fun c => { c with rc := true }) (countRca i d)))) (dropOp o.1 d))

/-- Examine the waiting reads of a command, or of all (none), for R203. -/
def rcaCheck (cmd : Option Nat) (d : Dev) : Dev :=
  forAll (d.alm.ops.filter fun e => !e.2.sent && decide (e.2.kind = .readPage) && decide (e.2.level ≤ 4)) (fun e d =>
    let mine : Bool := match cmd, e.2.jobs.head?.bind (tget d.alm.jobs) with
      | some c, some j => decide (j.cmd = c)
      | none, _ => true
      | _, none => false
    match mine, rcaFires d e.1 e.2 with
    | true, 2 => fireRca e d
    | true, 1 => onOp e.1 (fun o => { o with crowded := true }) d
    | _, _ => d) d

/-- The aligned groups of k x w data offsets on flash that a bounded READ touches (R265): row, stripe, plane. -/
def boundedGroups (d : Dev) (c : Cmd) : List (Nat × Nat × Nat) := match tget d.maps.plots (dPlot c.desc) with
  | some p => ((List.range c.got.length).filterMap fun i => match source d c.held (dPlot c.desc) p (dLba c.desc + i) with
      | .media row s b => (match rowAt d row with
        | some r => if bounded d c r then some (row, s, (spotOf (theProfile r.profile) r.k b).q) else none
        | none => none)
      | _ => none).eraseDups
  | none => []

/-- The bound of a bounded READ, µs (R206): B and an increment for each further page read from one die; none: it reads no bound row. -/
def readBound (d : Dev) (c : Cmd) : Option Nat :=
  let l := boundedGroups d c
  l.head?.map fun e =>
    let p := theProfile (match rowAt d e.1 with | some r => r.profile | none => 0)
    p.bound + (l.length - 1) * p.pageInc

/-- ALM_BOUND_MISS: the last block of a bounded READ reaches staging later than its bound (R206). -/
def countBound (c : Cmd) (d : Dev) : Dev :=
  if dOpc c.desc = 1 ∧ (match readBound d c with | some b => decide (1000 * b < d.io.now - c.arrived) | none => false) = true
  then { d with alm := { d.alm with boundMiss := satInc 32 d.alm.boundMiss } } else d

/-! ### Egress (R57, R85, R104, R112, R148) -/

/-- Time since a command arrived, counted for a reason of a miss. -/
def sinceArrival (d : Dev) (id : Nat) : Nat := match tget d.qm.cmds id with | some c => d.io.now - c.arrived | none => 0

/-- Write a read's blocks and host tags, and end it. A READ that lost blocks completes with ST_MEDIA_LOST; one that meets a filler stops before it. HT tells of the blocks transferred (R85). A
block written with HTAG = 0 has no stored tag; where lost blocks lie before the first unwritten one, the result of ST_UNWRITTEN_BLOCK counts them too (R57): both DESIGN CHOICE, notes/assumptions/66.md. -/
def egress (id : Nat) (c : Cmd) (d : Dev) : Dev :=
  let stop := (c.got.findIdx? fun g => decide (g = .filler)).getD c.got.length
  let got := c.got.take stop
  let ok := got.map fun g => match g with | .have _ => true | .zeros => true | _ => false
  let bytesOfGot := fun (g : Got) => match g with | .have p => leBytes 4096 (pData p).toNat | _ => List.replicate 4096 (0 : Byte)
  let tagOfGot := fun (g : Got) => match g with | .have p => leBytes 16 (pTag p).toNat | _ => List.replicate 16 (0 : Byte)
  let d := forAll (runs 0 ok) (fun r d =>
    let bytes := ((got.drop r.1).take r.2).flatMap bytesOfGot
    forAll (pieces (4096 * r.1) (4096 * r.2) 0 c.segs) (fun p d => hostWrite d c (some id) p.1 p.2.2.1 (slice bytes (p.2.2.2 - 4096 * r.1) p.2.1)) d) d
  let d := if dHtag c.desc then forAll (runs 0 ok) (fun r d => hostWrite d c (some id) (dTptr c.desc + 16 * r.1) (dRkey c.desc) (((got.drop r.1).take r.2).flatMap tagOfGot)) d else d
  let ht := dHtag c.desc && ok.any (fun b => b) && got.all fun g => match g with | .have p => pTagged p | .zeros => false | _ => true
  let lost := got.any fun g => decide (g = .lost)
  let st : Status := if c.status ≠ .ok then c.status else if stop < c.got.length then .unwrittenBlock else if lost then .mediaLost else .ok
  let res := if c.status = .lbaRange ∨ st = .unwrittenBlock then stop else 0
  lockRelease id (onCmd id (fun c => { c with past := true, waitFrom := d.io.now, ht := ht, got := [], status := st, stage := .done, result := BitVec.ofNat 64 res, field := 0xFF }) (stagingDone (some id) d))

/-- A read's data goes out; over Smiast it is staged in a pool buffer first (R115). -/
def goOut (id : Nat) (c : Cmd) (d : Dev) : Dev := match connOf d c with
  | some (_, k) => if k.st = .failed ∨ k.st = .shut then egress id c d else askBuffer (dataLen c) (.staging id) (onCmd id (fun c => { c with stage := .posting }) d)
  | none => egress id c d

/-- What becomes of a command whose blocks are all there: a read goes out; a COPY is ready to commit. -/
def whenRead (id : Nat) (d : Dev) : Dev := match tget d.qm.cmds id with
  | some c => if c.stage = .reading ∧ c.got.all (fun g => decide (g ≠ .pending)) then
      (if dOpc c.desc = 7 then onCmd id (fun c => { c with stage := .transfer }) d else goOut id c (countBound c d))
    else d
  | none => d

/-- A job has a payload. soft, rebuilt: how. -/
def jobHas (i : Nat) (p : Payload) (d : Dev) : Dev := match tget d.alm.jobs i with
  | some j => whenRead j.cmd (deliver j (gotOf p) (endJob i d))
  | none => d

/-- A block that nothing can rebuild (R27, R280): its erased data block is recorded lost. -/
def jobLost (i : Nat) (d : Dev) : Dev := match tget d.alm.jobs i with
  | some j => match rowAt d j.row with
    | some r => whenRead j.cmd (deliver j .lost (endJob i (markLost j.row j.stripe [blockOf (theProfile r.profile) r.k (roleAt r.n j.target j.stripe) j.q j.c] d)))
    | none => d
  | none => d

/-- Try to rebuild a job's block from what its siblings have brought. -/
def tryRebuild (i : Nat) (d : Dev) : Dev := match tget d.alm.jobs i with
  | none => d
  | some j => match rowAt d j.row with
    | none => d
    | some r =>
      let got := if j.around then rebuildRole r.k j.gotp (roleAt r.n j.target j.stripe) else none
      match got with
      | some p => if guardOk p j.plot j.lba then jobHas i p (blame j.cmd 5 (sinceArrival d j.cmd) (onCmd j.cmd (fun c => { c with rc := true }) d))
          else if siblingsOf d i = [] then jobLost i d else d
      | none =>
        if siblingsOf d i ≠ [] ∨ j.st = .retrying ∨ j.st = .soft ∨ j.st = .softWait then d
        else match (asideOf d i).bind fun e => softSteps e.1 { e.2 with st := .decoding } d with
        | some d => d
        | none =>
        if !j.bad.contains j.target ∧ !deadFor d j.cmd j.row r j.target then
          pumpJob i (queueRead i false (onJob i (fun j => { j with st := .sensing, bad := j.bad ++ [j.target] }) d))
        else jobLost i d

/-- Has a reconstruct-around enough members without a job: those brought, and those still under way (R205)? -/
def enoughWithout (d : Dev) (k i : Nat) : Bool := match tget d.alm.jobs k with
  | some x => (match rowAt d x.row with
    | some r => decide (r.k ≤ x.gotp.length + ((siblingsOf d k).filter fun e => decide (e.1 ≠ i)).length)
    | none => false)
  | none => false

/-- A job ends without its codeword; the read goes on with the row's other members, all of them read where none was before. -/
def jobDead (i : Nat) (d : Dev) : Dev := match tget d.alm.jobs i with
  | none => d
  | some j =>
    let d := onJob i (fun j => { j with st := .finished, bad := if j.bad.contains j.pos then j.bad else j.bad ++ [j.pos] }) d
    match j.parent with
    | some k => tryRebuild k (onJob k (fun x => { x with bad := x.bad ++ [j.pos] }) d)
    | none => if j.around then tryRebuild i d else pumpRow j.row (tryRebuild i (startAround i [] d))

/-- The next means after a failed decode: a member of a reconstruct-around that fails hard decode is set aside while the row has enough others (R205); steps A and B; then the row. -/
def nextMeans (i : Nat) (j : Job) (d : Dev) : Dev :=
  let wait := match j.parent with
    | some k => decide (j.st = JobSt.decoding) && enoughWithout d k i
    | none => false
  if wait then onJob i (fun j => { j with st := .aside }) d else match softSteps i j d with
  | some d => d
  | none =>
    let d := { d with ecc := { d.ecc with softFail := satInc 32 d.ecc.softFail } }
    jobDead i (if j.st = JobSt.soft then { d with ecc := { d.ecc with softUse := tset d.ecc.softUse j.cluster (tgetD d.ecc.softUse j.cluster 0 - 1) } } else d)

/-- Start every block of a read at its source. -/
def startBlock (id idx plot lba : Nat) (s : Source) (d : Dev) : Dev :=
  let put := fun g => onCmd id (fun c => { c with got := c.got.set idx g }) d
  match s with
  | .buffer p => if guardOk p plot lba then put (gotOf p) else put .lost
  | .zeros => put .zeros
  | .lost => put .lost
  | .media row s b => match rowAt d row with
    | none => put .filler
    | some r =>
      let p := theProfile r.profile
      let x := spotOf p r.k b
      let pos := posOfRole r.n x.j s
      let j : Job := { cmd := id, idx := idx, plot := plot, lba := lba, row := row, stripe := s, q := x.q, c := x.c, pos := pos, target := pos }
      let at_ := bedFor d id row r pos
      let dead := deadFor d id row r pos || isFixed d at_.1 at_.2 s x.q x.c
      let n := newJob (if dead then { j with bad := [pos], st := .finished } else j) d
      if dead then tryRebuild n.1 (startAround n.1 [] n.2) else queueRead n.1 false n.2
  | _ => put .filler

/-- Start the reads of a command's blocks, examine them for R203, and let the dies choose. -/
def startBlocks (id plot first : Nat) (l : List Source) (d : Dev) : Dev :=
  let d := onCmd id (fun c => { c with stage := .reading, got := l.map fun _ => .pending, waitFrom := d.io.now }) d
  let d := forAll l.zipIdx (fun e => startBlock id e.2 plot (first + e.2) e.1) d
  whenRead id (rcaCheck (some id) (pumpAll d))

end Sys2Proof.Machine
end

