-- ==== Sys2Proof/Machine/Buffers.lean ====
section
/-!
DEFINITION. The buffer pool manager (spec/03_command_rings.md R115-R117): grants in arrival order from the smallest fitting pool, returns checked.
-/

namespace Sys2Proof.Machine

/-- The first waiting request that a pool can serve, in arrival order (R115). -/
def servable (d : Dev) : Option ((Nat × BufUser) × Nat × Nat) := d.bpm.waiting.findSome? fun w => (poolWith d w.1).map fun g => (w, g)

/-- Give it its buffer. -/
def grantBuffer (w : Nat × BufUser) (pool ptr : Nat) (d : Dev) : Dev :=
  { d with bpm := { d.bpm with pools := takeFrom w.1 pool d.bpm.pools, waiting := d.bpm.waiting.erase w, granted := d.bpm.granted ++ [(w.2, pool, ptr)] } }

/-- Bytes of an admin command's parameter block (R91, R92, R125, R419). -/
def blockLen (c : Cmd) : Nat := match dOpc c.desc with
  | 0x80 | 0x81 => 32
  | 0x8A => 320
  | 0x8C => 40
  | _ => 64

/-- What the user of a buffer does with it: a packet may be sent; read data goes out; a parameter block is read; a COPY reads its source. -/
def useGrant (u : BufUser) (d : Dev) : Dev := match u with
  | .packet conn _ => smtPump conn d
  | .staging id => withSome (tget d.qm.cmds id) (egress id) d
  | .block id => (match tget d.qm.cmds id with
    | some c => (match readBlk d c (blockLen c) [] with
      | .away => askBlk id c (blockLen c) d
      | _ => onCmd id (fun c => { c with stage := .fetched }) d)
    | none => d)
  | .copy id => match tget d.qm.cmds id with
    | some c => match plotFor d id (tenantOf d c) (dPlot c.desc) with
      | some p => startBlocks id (dPlot c.desc) (dLba c.desc) ((List.range (dNblk c.desc)).map fun i => source d c.held (dPlot c.desc) p (dLba c.desc + i)) d
      | none => lockRelease id (finishErr id .plotInvalid d)
    | none => d

/-- BUFFER_GRANT. -/
def execBufferGrant (s : State) : Host.Outcome State Fault Refusal :=
  s.on fun d => withSome (servable d) (fun g d => useGrant g.1.2 (grantBuffer g.1 g.2.1 g.2.2 d)) d

/-- BUFFER_RETURN. -/
def execBufferReturn (pool ptr : Nat) (s : State) : Host.Outcome State Fault Refusal := s.on (onlyIf (mainUp s.dev) (returnBuffer pool ptr))

end Sys2Proof.Machine
end

