-- ==== Sys2Proof/Machine/Zones.lean ====
section
/-!
DEFINITION. Zones and their commands (spec/02_zones_and_tenants.md R47-R61, R64, R65, R72, spec/03_command_rings.md R87, R88, R111-R113): admission and row
shares, ZMGMT, READ and CREAD, writes up to their transfer, and the granting of range locks.
-/

namespace Sys2Proof.Machine

/-! ### Row shares (R50, R189, R239) -/

/-- What a zone's row share is wanted for: the plot's geometry, or the graft's (R288). -/
def shareWant (d : Dev) (plot : Nat) (p : Plot) (desc : BitVec 512) : Want :=
  let h := hintsOf desc p
  let g := match tget d.maps.grafts plot with | some g => (if g.st = 1 then some g else none) | none => none
  { profile := some p.profile, k := (match g with | some g => g.k | none => p.k), durable := (match g with | some g => g.durable | none => p.durable),
    mc := (match g with | some g => g.mc | none => p.mc), life := hLife h, heat := hHeat h, colo := hColo h, stream := hStream h, pack := packOf desc p,
    tenant := some p.tenant, plot := plot, kind := 0, role := 0 }

/-- Zone slots of a row that no zone holds; the lowest. -/
def freeSlots (r : Row) : List Nat := (List.range (slotsOf r.mc)).filter fun i => !bit r.claimed i && decide (r.assigned.getD i [] = [])
def freeSlot (r : Row) : Option Nat := (freeSlots r).head?

/-- An untouched slot is released unclaimed; its wait begins (R189, R266). -/
def unclaim (row slot : Nat) (d : Dev) : Dev := match rowAt d row with
  | some r => record (.row row (some { r with claimed := r.claimed &&& (255 ^^^ 2 ^ slot), since := r.since.set slot d.io.now })) d
  | none => d

/-- Open rows of the plot and geometry with an unclaimed slot; not those given up of a deleted plot that had the id. -/
def shareRows (d : Dev) (w : Want) : List (Nat × Row) :=
  d.maps.rows.filter fun e => decide (e.2.kind = 0) && decide (e.2.plot = w.plot) && e.2.openNow && decide (e.2.k = w.k) && decide (e.2.durable = w.durable) &&
    decide (e.2.mc = w.mc) && (freeSlot e.2).isSome && !d.med.oldRows.contains e.1

/-- TRL_GROUP.HOLD in ns. -/
def holdNs (d : Dev) : Nat := 1000000 * clampN 1 60000 (zeroAsOne (fld (rd d 0x30008) 0 16))

/-- The row a zone joins, by the rules of R189 in order, the oldest within each. -/
def joinRow (d : Dev) (w : Want) : Option (Nat × Row) :=
  let rows := shareRows d w
  let oldest := fun (l : List (Nat × Row)) => minBy (fun e => e.2.made) l
  match oldest (rows.filter fun e => decide (w.colo ≠ 0) && decide (e.2.colo = w.colo)) with
  | some e => some e
  | none => match oldest (rows.filter fun e => decide (e.2.stream = w.stream)) with
  | some e => some e
  | none => match oldest (rows.filter fun e => decide (e.2.life = w.life)) with
  | some e => some e
  | none => oldest (rows.filter fun e => (freeSlots e.2).any fun i => decide (e.2.since.getD i 0 + holdNs d < d.io.now))

/-- Claim a slot of a row. -/
def claim (row slot : Nat) (d : Dev) : Dev := match rowAt d row with
  | some r => record (.row row (some { r with claimed := r.claimed ||| 2 ^ slot })) d
  | none => d

/-- Take a row share: row, slot, and the part with it; none: no space (R50). Only a zone open that needs a new row meets the reserve (R239). With free rows below the reserve the hints thus
decide, through R189, whether the zone joins an open row or finds no space, while R66 says that hints change no status (DESIGN CHOICE, notes/assumptions/66.md). -/
def takeShare (w : Want) (d : Dev) : Option (Nat × Nat × Dev) := match joinRow d w with
  | some (row, r) => (freeSlot r).map fun s => (row, s, claim row s d)
  | none => match w.profile with
    | some p =>
      if freeRows d p (rowSize w.durable w.k) < reserveRows d p then none
      else (buildRow w d).map fun x => (x.1, 0, claim x.1 0 x.2)
    | none => none

/-- Give a row share back: an untouched slot is released unclaimed, a slot with stripes is filled and not used again (R266). -/
def releaseShare (plot : Nat) (p : Plot) (z : Nat) (v : Zone) (d : Dev) : Dev := match v.row with
  | none => d
  | some row => match rowAt d row with
    | none => d
    | some r =>
      if r.assigned.getD v.slot [] = [] then unclaim row v.slot d
      else
        let o := if v.wp = v.written then v.wp else p.cap
        loseValid row v.written (fillShare row v.slot plot (z * p.span) o (dropSpills row v.slot d))

/-! ### Admission (R49, R51) -/

/-- What admission answers: a status with its result, or the zone open with its row share. -/
inductive Admit where
  | no (st : Status) (result : Nat)
  | yes (d : Dev)
  deriving DecidableEq, Repr

/-- The zone the device would close for room: the tenant's Implicitly Open zone written longest ago (R51). -/
def victim (d : Dev) (t : Nat) : Option (Nat × Zone) := minBy (fun e => e.2.commit) ((tenantZones d t).filter fun e => decide (e.2.st = .iOpen))

/-- Is the open-zone grant used up? -/
def openFull (d : Dev) (t : Nat) : Bool := match tget d.maps.tenants t with | some x => decide (x.grants.openZones ≤ openZones d t) | none => true
def activeFull (d : Dev) (t : Nat) : Bool := match tget d.maps.tenants t with | some x => decide (x.grants.active ≤ activeZones d t) | none => true
def quotaFull (d : Dev) (t blocks : Nat) : Bool := match tget d.maps.tenants t with | some x => decide (x.grants.quota * gibBlocks < quotaUsed d t + blocks) | none => true

/-- Close the zone chosen for room, at the moment the open takes effect. -/
def makeRoom (t : Nat) (d : Dev) : Dev := if openFull d t then withSome (victim d t) (fun e => record (.zone e.1 (some { e.2 with st := .closed }))) d else d

/-- Open a zone that is Empty or Closed, to a given open state. With the grant lowered below present use, R40 refuses new opens until use falls while R49 and R51 let an open take the place of a
zone that is closed for it: the device closes one for each it opens (DESIGN CHOICE, notes/assumptions/66.md). -/
def admitTo (plot : Nat) (p : Plot) (z : Nat) (st : ZState) (desc : BitVec 512) (d : Dev) : Admit :=
  let v := zoneOf d plot z
  if openFull d p.tenant ∧ (victim d p.tenant).isNone then .no .tooManyOpen 0
  else if v.st ≠ .empty then .yes (putZone plot z { v with st := st } (makeRoom p.tenant d))
  else if activeFull d p.tenant then .no .tooManyActive 0
  else if quotaFull d p.tenant p.cap then .no .quotaExceeded 0
  else
    let w := shareWant d plot p desc
    match takeShare w (makeRoom p.tenant d) with
    | none => .no .noSpaceTransient (retryHint d p.profile (rowSize w.durable w.k))
    | some (row, slot, d) => .yes (putZone plot z { st := st, row := some row, slot := slot, wp := 0, written := 0, commit := d.clo.nextPos, lost := false } d)

/-! ### ZMGMT (R48, R49, R54, R58, R60, R61) -/

/-- A ZMGMT command of an action; an action that the table does not have is taken up by any of the rows, and refused (R87). -/
def zact (desc : BitVec 512) : Nat := fld (dArg desc 0) 0 4
def freshZ (d : Dev) (id act : Nat) : Option Cmd := match fresh d id 4 with
  | some c => if zact c.desc = act ∨ !([1, 2, 3, 4, 5].contains (zact c.desc)) then some c else none
  | none => none

/-- The checks every ZMGMT makes: the action, the plot, its kind, the zone index. -/
def onZone (id : Nat) (c : Cmd) (f : Plot → Dev → Dev) (d : Dev) : Dev :=
  if !([1, 2, 3, 4, 5].contains (zact c.desc)) then finishField id 44 d
  else match plotFor d id (tenantOf d c) (dPlot c.desc) with
  | none => finishErr id .plotInvalid d
  | some p => if p.region then finishErr id .wrongPlotKind d else if p.count ≤ dZone c.desc then finishErr id .lbaRange d else f p d

/-- ZMGMT open. -/
def zopen (id : Nat) (c : Cmd) (p : Plot) (d : Dev) : Dev :=
  let plot := dPlot c.desc
  let z := dZone c.desc
  let v := zoneOf d plot z
  let go := fun d => match admitTo plot p z .eOpen c.desc d with
    | .no st r => finish id st r 0xFF d
    | .yes d => finishOk id 0 d
  match v.st with
  | .offline => finishErr id .zoneOffline d
  | .readOnly => finishErr id .zoneReadOnly d
  | .full => finishErr id .zoneState d
  | .iOpen => finishOk id 0 (putZone plot z { v with st := .eOpen } d)
  | .eOpen => finishOk id 0 d
  | .empty => go d
  | .closed => go d

/-- ZMGMT close. -/
def zclose (id : Nat) (c : Cmd) (p : Plot) (d : Dev) : Dev :=
  let plot := dPlot c.desc
  let z := dZone c.desc
  let v := zoneOf d plot z
  let go := fun d => if 0 < v.wp then finishOk id 0 (putZone plot z { v with st := .closed } d)
    else finishOk id 0 (releaseShare plot p z v (putZone plot z emptyZone d))
  match v.st with
  | .offline => finishErr id .zoneOffline d
  | .readOnly => finishErr id .zoneReadOnly d
  | .full => finishErr id .zoneState d
  | .empty => finishErr id .zoneState d
  | .closed => finishOk id 0 d
  | .iOpen => go d
  | .eOpen => go d

/-- ZMGMT finish, once it holds the zone. -/
def zfinish (id : Nat) (c : Cmd) (p : Plot) (d : Dev) : Dev :=
  let plot := dPlot c.desc
  let z := dZone c.desc
  let v := zoneOf d plot z
  let go := fun d => match v.row with
    | some row => finishOk id 0 (fillShare row v.slot plot (z * p.span) v.wp (putZone plot z { v with st := .full, wp := p.cap } d))
    | none => finishOk id 0 (putZone plot z { v with st := .full, wp := p.cap } d)
  match v.st with
  | .offline => finishErr id .zoneOffline d
  | .readOnly => finishErr id .zoneReadOnly d
  | .full => finishOk id 0 d
  | .empty => if quotaFull d p.tenant p.cap then finishErr id .quotaExceeded d else finishOk id 0 (putZone plot z { emptyZone with st := .full, wp := p.cap } d)
  | .iOpen => go d
  | .eOpen => go d
  | .closed => go d

/-- A copy of a zone in progress is discarded: its destination slot's blocks count as invalid (R247, R289). -/
def dropCopy (plot z : Nat) (d : Dev) : Dev :=
  forAll (d.med.copies.filter fun e => decide (e.2.plot = plot) && decide (e.2.zone = z)) (fun e d =>
    let d := { d with med := { d.med with copies := tdel d.med.copies e.1 } }
    let d := dropWork (.copy e.1) d
    match rowAt d e.2.dst, tget d.maps.plots plot with
    | some r, some p => if r.assigned.getD e.2.slot [] = [] then unclaim e.2.dst e.2.slot d else
        fillShare e.2.dst e.2.slot plot (z * p.span) ((r.assigned.getD e.2.slot []).length * r.perStripe) d
    | _, _ => d) d

/-- Every block of a zone that still lies in the write buffer is discarded: no read finds it; its place in its stripe stands until that is programmed. -/
def dropBuffered (plot lo hi : Nat) (d : Dev) : Dev :=
  { d with clo := { d.clo with buf := tmap d.clo.buf fun _ b => if b.plot = plot ∧ lo ≤ b.lba ∧ b.lba < hi then { b with plot := 16384 } else b } }

/-- ZMGMT reset, once it holds the zone (R48, R61). -/
def zreset (id : Nat) (c : Cmd) (p : Plot) (d : Dev) : Dev :=
  let plot := dPlot c.desc
  let z := dZone c.desc
  let v := zoneOf d plot z
  if v.st = .empty then finishOk id 0 d
  else finishOk id 0 (releaseShare plot p z v (dropBuffered plot (z * p.span) ((z + 1) * p.span) (dropCopy plot z (unhold (zkey plot z) (putZone plot z emptyZone d)))))

/-! ### Reads (R56, R57, R64, R65) -/

/-- The status a read's sources give, in the order of R72, and how many blocks it transfers. -/
def readOutcome (region : Bool) (l : List Source) : Status × Nat :=
  let pre := (l.findIdx? fun s => decide (s = .beyond) || decide (s = .unwritten) || decide (s = .offline)).getD l.length
  if l.contains .beyond then (.lbaRange, if region then 0 else pre)
  else if l.contains .offline then (.zoneOffline, 0)
  else if l.contains .unwritten then (.unwrittenBlock, pre)
  else (.ok, l.length)

/-- Start a read that holds its range. -/
def startRead (id : Nat) (c : Cmd) (p : Plot) (d : Dev) : Dev :=
  let plot := dPlot c.desc
  let l := (List.range (dNblk c.desc)).map fun i => source d c.held plot p (dLba c.desc + i)
  let o := readOutcome p.region l
  let d := onCmd id (fun c => { c with status := o.1, result := BitVec.ofNat 64 (if o.1 = .ok then 0 else o.2) }) d
  if o.2 = 0 then lockRelease id (finish id o.1 0 0xFF d)
  else match regionFault d c c.segs with
    | some f => lockRelease id (finishField id f d)
    | none => startBlocks id plot (dLba c.desc) (l.take o.2) d

/-- What a command does once its range lock is granted. -/
def afterLock (id : Nat) (d : Dev) : Dev := match tget d.qm.cmds id with
  | none => d
  | some c => match plotFor d id (tenantOf d c) (dPlot c.desc) with
    | none => lockRelease id (finishErr id .plotInvalid d)
    | some p =>
      let o := dOpc c.desc
      if o = 1 ∨ o = 6 then startRead id c p d
      else if o = 7 then askBuffer (dataLen c) (.copy id) (onCmd id (fun c => { c with stage := .spaceWait }) d)
      else if o = 5 then (match regionFault d c c.segs with
        | some f => lockRelease id (finishField id f d)
        | none => askData id c c.segs (onCmd id (fun c => { c with stage := .transfer }) d))
      else lockRelease id (if zact c.desc = 3 then zfinish id c p d else zreset id c p d)

/-- Arrive at the range-lock table, and go on at once when the range is granted (R112, R113). -/
def lockRange (id : Nat) (tenant plot first last : Nat) (excl : Bool) (d : Dev) : Dev :=
  let d := lockArrive { cmd := id, tenant := tenant, plot := plot, first := first, last := last, excl := excl, entered := false, held := false }
    (onCmd id (fun c => { c with stage := .lockWait, waitFrom := d.io.now }) d)
  if lockHeld d.qm.locks id then afterLock id d else d

/-- RANGE_LOCK_GRANT. Time waited counts toward reason 0x08 (R216). -/
def execRangeLockGrant (id : Nat) (s : State) : Host.Outcome State Fault Refusal :=
  s.on fun d => withSome (tget d.qm.cmds id) (fun c => onlyIf (lockFree d.qm.locks id && decide (c.stage = .lockWait) && !halting d) fun d =>
    afterLock id (blame id 8 (d.io.now - c.waitFrom) (lockGrant id d))) d

/-- A data command's segments, before anything that depends on an object (R72 step 4). -/
def withSegs (id : Nat) (c : Cmd) (sg : List SgEntry) (f : List SgEntry → Dev → Dev) (d : Dev) : Dev := match readSegs d c sg with
  | .fault n => finishField id n d
  | .away => fetchList id c d
  | .segs l => f l (askList c l.length (onCmd id (fun c => { c with segs := l }) d))

/-- READ and CREAD up to the range lock. -/
def readCmd (id opc : Nat) (sg : List SgEntry) (d : Dev) : Dev :=
  withSome (fresh d id opc) (fun c => onlyIf (mainUp d) (withSegs id c sg fun _ d =>
    match plotFor d id (tenantOf d c) (dPlot c.desc) with
    | none => finishErr id .plotInvalid d
    | some p =>
      if opc = 6 ∧ !p.region then finishErr id .wrongPlotKind d
      else if p.region ∧ p.cap < dLba c.desc + dNblk c.desc then finishErr id .lbaRange d
      else lockRange id p.tenant (dPlot c.desc) (dLba c.desc) (dLba c.desc + dNblk c.desc - 1) false d)) d

/-- READ. -/
def execRead (id : Nat) (sg : List SgEntry) (s : State) : Host.Outcome State Fault Refusal := s.on (readCmd id 1 sg)
/-- CREAD. -/
def execCread (id : Nat) (sg : List SgEntry) (s : State) : Host.Outcome State Fault Refusal := s.on (readCmd id 6 sg)

/-- ZMGMT open: its commit point is its fetch (R111). -/
def execZmgmtOpen (id : Nat) (s : State) : Host.Outcome State Fault Refusal :=
  s.on fun d => withSome (freshZ d id 1) (fun c => onlyIf (mainUp d) (onZone id c (zopen id c))) d
/-- ZMGMT close. -/
def execZmgmtClose (id : Nat) (s : State) : Host.Outcome State Fault Refusal :=
  s.on fun d => withSome (freshZ d id 2) (fun c => onlyIf (mainUp d) (onZone id c fun p d => pumpAll (zclose id c p d))) d
/-- ZMGMT finish takes the lock over the whole zone (R60). -/
def execZmgmtFinish (id : Nat) (s : State) : Host.Outcome State Fault Refusal :=
  s.on fun d => withSome (freshZ d id 3) (fun c => onlyIf (mainUp d) (onZone id c fun p d =>
    pumpAll (lockRange id p.tenant (dPlot c.desc) (dZone c.desc * p.span) ((dZone c.desc + 1) * p.span - 1) true d))) d
/-- ZMGMT reset takes the lock over the whole zone (R60). -/
def execZmgmtReset (id : Nat) (s : State) : Host.Outcome State Fault Refusal :=
  s.on fun d => withSome (freshZ d id 4) (fun c => onlyIf (mainUp d) (onZone id c fun p d =>
    pumpAll (lockRange id p.tenant (dPlot c.desc) (dZone c.desc * p.span) ((dZone c.desc + 1) * p.span - 1) true d))) d
/-- ZMGMT query (R58): state and write pointer, in every state, without a lock. -/
def execZmgmtQuery (id : Nat) (s : State) : Host.Outcome State Fault Refusal :=
  s.on fun d => withSome (freshZ d id 5) (fun c => onlyIf (mainUp d) (onZone id c fun _ d =>
    let v := zoneOf d (dPlot c.desc) (dZone c.desc)
    finishOk id (v.wp + 2 ^ 32 * v.st.code) d)) d

/-! ### Writes, up to their transfer (R53, R54, R64, R72, R88) -/

/-- ZWRITE and ZAPPEND: plot, kind and zone index; then their data is fetched. -/
def writeCmd (id opc : Nat) (sg : List SgEntry) (d : Dev) : Dev :=
  withSome (fresh d id opc) (fun c => onlyIf (mainUp d) (withSegs id c sg fun l d =>
    match plotFor d id (tenantOf d c) (dPlot c.desc) with
    | none => finishErr id .plotInvalid d
    | some p =>
      if p.region then finishErr id .wrongPlotKind d
      else if p.count ≤ (if opc = 2 then dLba c.desc / p.span else dZone c.desc) then finishErr id .lbaRange d
      else match regionFault d c l with
        | some f => finishField id f d
        | none => askData id c l (onCmd id (fun c => { c with stage := .transfer, waitFrom := d.io.now }) d))) d

/-- ZWRITE. -/
def execZwrite (id : Nat) (sg : List SgEntry) (s : State) : Host.Outcome State Fault Refusal := s.on (writeCmd id 2 sg)
/-- ZAPPEND. -/
def execZappend (id : Nat) (sg : List SgEntry) (s : State) : Host.Outcome State Fault Refusal := s.on (writeCmd id 3 sg)

/-- CWRITE takes its range exclusively, then fetches its data. -/
def execCwrite (id : Nat) (sg : List SgEntry) (s : State) : Host.Outcome State Fault Refusal :=
  s.on fun d => withSome (fresh d id 5) (fun c => onlyIf (mainUp d) (withSegs id c sg fun _ d =>
    match plotFor d id (tenantOf d c) (dPlot c.desc) with
    | none => finishErr id .plotInvalid d
    | some p =>
      if !p.region then finishErr id .wrongPlotKind d
      else if p.cap < dLba c.desc + dNblk c.desc then finishErr id .lbaRange d
      else lockRange id p.tenant (dPlot c.desc) (dLba c.desc) (dLba c.desc + dNblk c.desc - 1) true d)) d

/-- COPY (R88): the source check comes first; both plots must be the tenant's. -/
def execCopy (id : Nat) (s : State) : Host.Outcome State Fault Refusal :=
  s.on fun d => withSome (fresh d id 7) (fun c => onlyIf (mainUp d) fun d =>
    let t := tenantOf d c
    let dst := fld (dArg c.desc 0) 0 14
    match plotFor d id t (dPlot c.desc) with
    | none => finishErr id .plotInvalid d
    | some p =>
      let o := readOutcome false ((List.range (dNblk c.desc)).map fun i => source d c.held (dPlot c.desc) p (dLba c.desc + i))
      if p.region then finishErr id .wrongPlotKind d
      else if o.1 ≠ .ok then finishErr id o.1 d
      else match plotFor d id t dst with
      | none => finishErr id .plotInvalid d
      | some q =>
        if q.region then finishErr id .wrongPlotKind d
        else if q.count ≤ dArg c.desc 1 then finishErr id .lbaRange d
        else lockRange id p.tenant (dPlot c.desc) (dLba c.desc) (dLba c.desc + dNblk c.desc - 1) false d) d

end Sys2Proof.Machine
end

