-- ==== Sys2Proof/Machine/Commit.lean ====
section
/-!
DEFINITION. Committing writes into the write buffer and acknowledging them from the budget queue (spec/02_zones_and_tenants.md R52-R55, R65,
spec/07_media_management.md R231, spec/09_power_loss_and_startup.md R290-R292, R306), and spilling stripes (spec/08_rows_and_parity.md R270).
-/

namespace Sys2Proof.Machine

/-! ### Whose turn it is (R52) -/

/-- The zone a write, append or COPY goes to. -/
def targetZone (d : Dev) (c : Cmd) : Option (Nat × Nat) :=
  let o := dOpc c.desc
  if o = 2 then (tget d.maps.plots (dPlot c.desc)).map fun p => (dPlot c.desc, dLba c.desc / p.span)
  else if o = 3 then some (dPlot c.desc, dZone c.desc)
  else if o = 7 then some (fld (dArg c.desc 0) 0 14, dArg c.desc 1)
  else none

/-- Is a write still before its commit point? -/
def uncommitted (c : Cmd) : Bool := !c.past && !decide (c.stage = .done)

/-- Commits to one zone go in fetch order (R52, R103). -/
def zoneTurn (d : Dev) (id : Nat) (c : Cmd) : Bool := match targetZone d c with
  | none => true
  | some z => !(d.qm.cmds.any fun e => decide (e.1 < id) && uncommitted e.2 && decide (targetZone d e.2 = some z))

/-- May a command commit now: everything is here, its turn has come, ingress runs (R305), the write buffer and the journal's have room (R316, R407)? -/
def mayCommit (d : Dev) (id : Nat) (c : Cmd) : Bool :=
  [2, 3, 5, 7].contains (dOpc c.desc) && (decide (c.stage = .transfer) || (decide (c.stage = .spaceWait) && decide (dOpc c.desc = 5))) &&
  mainUp d && !halting d && !journalFull d && zoneTurn d id c && bufRoom d (dNblk c.desc) && (decide (dOpc c.desc = 7) || dataHere d c)

/-! ### Blocks into the write buffer -/

/-- The payloads of a write, with the metadata of R374; of a COPY, the source blocks with new metadata (R378). -/
def blockPayload (d : Dev) (c : Cmd) (data : List Block) (tags : List HostTag) (plot lba i : Nat) : Payload :=
  let bpos := d.clo.nextPos + i
  match dOpc c.desc, c.got.getD i .pending with
  | 7, .have p => reMeta p plot lba bpos d.kpr.pwrcyc
  | _, _ => mkPayload (hostBlock d c data i) (hostTag d c tags i) plot lba (b2n (dHtag c.desc)) bpos d.kpr.pwrcyc

/-- Put committed blocks into the buffer, at the end of the budget queue (R291). -/
def intoBuffer (plot lba : Nat) (pays : List Payload) (d : Dev) : Dev :=
  { d with clo := { d.clo with
      buf := pays.zipIdx.foldl (fun t e => tset t (d.clo.nextPos + e.2) { plot := plot, lba := lba + e.2, pay := e.1, spilled := false }) d.clo.buf
      nextPos := d.clo.nextPos + pays.length } }

/-- The command is committed: it waits for its acknowledgement. Where dirty bytes up to its last block already pass the ceiling, it is one that waits (R292). -/
def committed (id pos n result : Nat) (d : Dev) : Dev :=
  let wait := decide (d.clo.ceil < blockBytes d (pos + n) + parityBytes d)
  onCmd id (fun c => {
    c with
    stage := .committed, past := true, pos0 := pos, npos := n, jseq := d.jnl.seq, result := BitVec.ofNat 64 result, got := [], staged := []
    waitFrom := d.io.now, dp := if wait then 1 else c.dp }) d

/-- Place n blocks of a zone from its write pointer on and move the pointer (R52). -/
def zoneWrite (id plot : Nat) (p : Plot) (z : Nat) (c : Cmd) (pays : List Payload) (result : Nat) (d : Dev) : Dev :=
  let v := zoneOf d plot z
  match v.row with
  | none => d
  | some row =>
    let n := pays.length
    let pos := d.clo.nextPos
    let d := intoBuffer plot (z * p.span + v.wp) pays d
    let d := forAll pays.zipIdx (fun e => placeBlock row v.slot (v.wp + e.2) (some (pos + e.2)) e.1) d
    let wp := v.wp + n
    let st : ZState := if wp = p.cap then .full else v.st
    let v2 := { v with st := st, wp := wp, written := v.written + n, commit := pos }
    let d := if st = v.st then onMaps (fun m => { m with zones := tset m.zones (zkey plot z) v2 }) d else putZone plot z v2 d
    let d := onRow row (fun r => { r with valid := r.valid + n }) d
    let d := withSome (rowAt d row) (heatBed (hHeat (hintsOf c.desc p))) d
    let d := if wp = p.cap then fillShare row v.slot plot (z * p.span) wp d else d
    committed id pos n result d

/-- Commit a write, append or COPY to a zone, with the checks of R48, R53, R54 in the order of R72. -/
def commitZone (id : Nat) (c : Cmd) (data : List Block) (tags : List HostTag) (plot : Nat) (p : Plot) (z : Nat) (d : Dev) : Dev :=
  let v := zoneOf d plot z
  let n := dNblk c.desc
  let o := dOpc c.desc
  let off := if o = 2 then dLba c.desc % p.span else v.wp
  let fail := fun st r (d : Dev) => freeBuffers (fun u => decide (u = .copy id)) (lockRelease id (finish id st r 0xFF d))
  let go := fun d =>
    let lba := z * p.span + (zoneOf d plot z).wp
    let pays := (List.range n).map fun i => blockPayload d c data tags plot (lba + i) i
    freeBuffers (fun u => decide (u = .copy id)) (lockRelease id (zoneWrite id plot p z c pays (if o = 2 then 0 else lba) d))
  match v.st with
  | .offline => fail .zoneOffline 0 d
  | .readOnly => fail .zoneReadOnly 0 d
  | .full => fail .zoneFull 0 d
  | st =>
    if p.cap < off + n then fail .zoneBoundary 0 d
    else if off ≠ v.wp then fail .zoneInvalidWrite 0 d
    else if st = .iOpen ∨ st = .eOpen then go d
    else match admitTo plot p z .iOpen c.desc d with
      | .no s r => fail s r d
      | .yes d => go d

/-! ### Region writes (R65, R231, R185) -/

/-- The open region row that takes blocks: the region's class now, not its weeding destination. -/
def regionRow (d : Dev) (plot : Nat) (p : Plot) : Option (Nat × Row) :=
  let durable := match tget d.maps.grafts plot with | some g => (if g.st = 1 then g.durable else p.durable) | none => p.durable
  tfind d.maps.rows fun row r => decide (r.kind = 1) && decide (r.role ≠ 1) && decide (r.plot = plot) && r.openNow && !d.med.oldRows.contains row && decide (r.durable = durable) && decide (r.filled < r.k * (theProfile r.profile).bedBlocks)
def regionRoom (d : Dev) (plot : Nat) (p : Plot) : Nat := match regionRow d plot p with
  | some (_, r) => r.k * (theProfile r.profile).bedBlocks - r.filled
  | none => 0

/-- Build a region row and give it the lowest free region-row slot. -/
def newRegionRow (plot : Nat) (p : Plot) (desc : BitVec 512) (d : Dev) : Option Dev :=
  (buildRow { shareWant d plot p desc with k := 16, mc := 0, kind := 1 } d).map fun x =>
    let slot := tfree ((x.2.maps.rslots.filter fun e => decide (e.1 / 16384 = plot)).map fun e => (e.1 % 16384, ())) 0
    record (.rslot (plot * 16384 + slot) (some x.1)) x.2

/-- The slot number of a region row. -/
def rslotOf (d : Dev) (plot row : Nat) : Nat := match d.maps.rslots.find? fun e => decide (e.1 / 16384 = plot) && decide (e.2 = row) with
  | some e => e.1 % 16384
  | none => 0

/-- Write one region block: the old copy becomes invalid, the map entry points to the new one (R65, R231). -/
def regionBlock (plot : Nat) (p : Plot) (lba pos life : Nat) (pay : Payload) (d : Dev) : Dev := match regionRow d plot p with
  | none => d
  | some (row, r) =>
    let d := match tget d.maps.cmap (lkey plot lba) with
      | some e => (match tget d.maps.rslots (plot * 16384 + e / 2 ^ 22) with | some old => loseValid old 1 d | none => d)
      | none => d
    let d := placeBlock row 0 r.filled (some pos) pay (unhold (2 ^ 63 + lkey plot lba) d)
    let d := onRow row (fun r => { r with filled := r.filled + 1, valid := r.valid + 1, life := max r.life life }) d
    trySeal row (record (.cmap (lkey plot lba) (some (rslotOf d plot row * 2 ^ 22 + r.filled))) d)

/-- Commit a CWRITE; without room, and a new row not to be had, it waits (R185). -/
def commitRegion (id : Nat) (c : Cmd) (data : List Block) (tags : List HostTag) (plot : Nat) (p : Plot) (d : Dev) : Dev :=
  let n := dNblk c.desc
  let lba := dLba c.desc
  let ready := if regionRoom d plot p < n then newRegionRow plot p c.desc d else some d
  match ready with
  | none => if c.stage = .spaceWait then d else onCmd id (fun c => { c with stage := .spaceWait, waitFrom := d.io.now }) d
  | some d =>
    let d := if c.stage = .spaceWait then blame id 0xB (d.io.now - c.waitFrom) d else d
    let pos := d.clo.nextPos
    let pays := (List.range n).map fun i => blockPayload d c data tags plot (lba + i) i
    let d := intoBuffer plot lba pays d
    let d := forAll pays.zipIdx (fun e => regionBlock plot p (lba + e.2) (pos + e.2) (hLife (hintsOf c.desc p)) e.1) d
    let d := withSome (regionRow d plot p) (fun e => heatBed (hHeat (hintsOf c.desc p)) e.2) d
    committed id pos n 0 (lockRelease id d)

/-- WRITE_COMMIT: all blocks of a command are in the write buffer. data and tags are what the DMA reads of a PCIe ring bring; a COPY whose source turned out lost or
never written appends nothing (R88). -/
def writeCommit (id : Nat) (data : List Block) (tags : List HostTag) (c : Cmd) (d : Dev) : Dev :=
  let plot := if dOpc c.desc = 7 then fld (dArg c.desc 0) 0 14 else dPlot c.desc
  match plotFor d id (tenantOf d c) plot with
  | none => lockRelease id (finishErr id .plotInvalid d)
  | some p =>
    if dOpc c.desc = 5 then commitRegion id c data tags plot p d
    else if dOpc c.desc = 7 ∧ c.got.any (fun g => match g with | .have _ => false | _ => true) = true then
      freeBuffers (fun u => decide (u = .copy id)) (lockRelease id
        (finishErr id (if c.got.contains .filler then .unwrittenBlock else .mediaLost) d))
    else match targetZone d c with
      | some z => commitZone id c data tags plot p z.2 d
      | none => d

/-- WRITE_COMMIT. -/
def execWriteCommit (id : Nat) (data : List (BitVec 32768)) (tags : List (BitVec 128)) (s : State) : Host.Outcome State Fault Refusal :=
  s.on fun d => withSome (tget d.qm.cmds id) (fun c d => onlyIf (mayCommit d id c) (fun d => pumpAll (writeCommit id data tags c d)) d) d

/-! ### Acknowledgement (R291, R292, R306) -/

/-- The committed command whose blocks come first in the unacknowledged part of the queue. -/
def ackHead (d : Dev) : Option (Nat × Cmd) := minBy (fun e => e.2.pos0) (d.qm.cmds.filter fun e => decide (e.2.stage = .committed))

/-- Is every block of a command programmed or spilled? -/
def onMedia (d : Dev) (c : Cmd) : Bool := (List.range c.npos).all fun i => match tget d.clo.buf (c.pos0 + i) with | some b => b.spilled | none => true

/-- Are the journal records a command's blocks need programmed in the journal area? -/
def recordsDone (d : Dev) (c : Cmd) : Bool := d.jnl.tail.all fun e => decide (c.jseq ≤ e.1)

/-- May the head of the queue be acknowledged (R291; R306 while the flush list is not armed)? -/
def mayAck (d : Dev) (c : Cmd) : Bool :=
  if listArmed d then onMedia d c || decide (blockBytes d (c.pos0 + c.npos) + parityBytes d ≤ d.clo.ceil)
  else onMedia d c && recordsDone d c

/-- WRITE_ACKNOWLEDGE: the head is acknowledged, or must wait for the ceiling and is marked so. The seal of R307 step 5 ends acknowledgements. -/
def writeAcknowledge (d : Dev) : Dev := match ackHead d with
  | none => { d with clo := { d.clo with ackPos := d.clo.nextPos } }
  | some (id, c) =>
    if mayAck d c then
      let d := if c.dp = 1 then blame id 3 (d.io.now - c.waitFrom) { d with clo := { d.clo with dpCnt := satInc 32 d.clo.dpCnt } } else d
      onCmd id (fun c => { c with stage := .done, status := .ok, field := 0xFF, waitFrom := d.io.now }) { d with clo := { d.clo with ackPos := c.pos0 + c.npos } }
    else onCmd id (fun c => { c with dp := 1 }) d

/-- WRITE_ACKNOWLEDGE. -/
def execWriteAcknowledge (t : Nat) (s : State) : Host.Outcome State Fault Refusal :=
  s.on fun d => onlyIf (mainUp d && !d.kpr.pf && d.kpr.flush.isNone) writeAcknowledge (tick t d)

/-! ### Spilling (R270) -/

/-- STRIPE_IDLE_SPILL: stripe names row x 65536 + stripe. -/
def execStripeIdleSpill (stripe t : Nat) (s : State) : Host.Outcome State Fault Refusal :=
  s.on fun d => withSome (tget d.med.stripes stripe) (fun st d => onlyIf (mainUp d && !st.spilled && !st.spilling && !st.fill && spillDue d stripe st && maySpill d) (fun d => pumpAll (spill stripe st d)) d) (tick t d)

end Sys2Proof.Machine
end

