-- ==== Sys2Proof/Machine/Herarn.lean ====
section
/-!
DEFINITION. The receiving side of the Herarn links (spec/10_herarn_links.md): frames and link-control blocks, training, parking, the answers to die operations
(R360-R373) with program and erase failures (R254, R255), and failed dies, links and link groups (R272, R368, R369, R561).
-/

namespace Sys2Proof.Machine

/-! ### Frames received (R337-R344) -/

/-- Sync errors counted on a link. -/
def countSync (l n : Nat) (d : Dev) : Dev := onLink l (fun k => { k with errSync := satAdd 16 k.errSync n }) d
def countCrc (l : Nat) (d : Dev) : Dev := onLink l (fun k => { k with errCrc := satInc 16 k.errCrc }) d

/-- A NAK, unless one for the same expected SEQ went out in the last 2 µs (R344). -/
def hlNak (l t : Nat) (d : Dev) : Dev :=
  if (seqAt d l).nakAt.all (fun x => decide (x + 2000 ≤ t)) then hlAckOut l 1 (onSeq l (fun q => { q with nakAt := some t }) d) else d

/-- Fields of an FS block. -/
def fsKind (fs : List Byte) : Nat := leAt fs 1 1 % 8
def fsTarget (fs : List Byte) : Nat := leAt fs 1 1 / 8 % 8
def fsSeq (fs : List Byte) : Nat := leAt fs 2 2
def fsLen (fs : List Byte) : Nat := leAt fs 4 2
def fsOk (fs : List Byte) : Bool := decide (leAt fs 0 1 = 0x1E) && decide (crc16 (slice fs 0 14) = leAt fs 14 2)

/-- A frame with a good FCRC, by its SEQ: accepted, a duplicate, or ahead (R341 step 5). -/
def hlAccept (l t : Nat) (fs pay fin : List Byte) (d : Dev) : Dev :=
  let q := seqAt d l
  if fsSeq fs = q.rxSeq then
    let f : HlFrame := { kind := fsKind fs, target := fsTarget fs, seq := fsSeq fs, len := fsLen fs, otag := leAt fs 6 1, offset := leAt fs 8 4, pay := pay }
    let d := onSeq l (fun q => { q with rxSeq := (q.rxSeq + 1) % 65536, nakAt := none, inbox := q.inbox ++ [f] }) d
    let d := if leAt fin 1 1 % 2 = 1 then hlAckTo l (leAt fin 2 2) t d else d
    hlAckOut l 0 (hlCredit l (leAt fin 4 2) d)
  else if seqLe (fsSeq fs) q.rxSeq then hlAckOut l 0 d
  else hlNak l t d

/-- The oldest accepted frame of a link that its row of the table takes up, and the part without it. -/
def takeFrame (l : Nat) (p : HlFrame → Bool) (d : Dev) : Option (HlFrame × Dev) := match (seqAt d l).inbox with
  | f :: rest => if p f then some (f, onSeq l (fun q => { q with inbox := rest }) d) else none
  | [] => none

/-- A link that is Active, for its events. -/
def onActive (l : Nat) (f : Dev → Dev) (d : Dev) : Dev := onlyIf (linkPresent d l && mainUp d && decide ((linkAt d l).st = lsActive)) f d

/-! ### Failures of members (R272, R274, R368) -/

/-- Rows with a failed member. -/
def degradedRows (d : Dev) : List Nat := ((d.maps.rows.filter fun e => e.2.pos.zipIdx.any fun p => memberDead d e.1 p.2 p.1.1).map (·.1))

/-- A fresh bed that was to replace another is not used: it may be given out again (R562). -/
def dropFresh (die bed : Nat) (d : Dev) : Dev :=
  if dieFailed d die then d else
    putBed die bed (fun b => { b with st := if b.st = .retired then .retired else .released, slc := false })
      { d with med := { d.med with toErase := d.med.toErase.filter fun p => decide (p ≠ (die, bed)) } }

/-- A transplant ends or is dropped: its operations not yet sent go, and the bed's entry no longer shows it (R227, R253). -/
def endXpl (key : Nat) (d : Dev) : Dev :=
  let d := dropWork (.xpl key) { d with med := { d.med with xpls := tdel d.med.xpls key } }
  match rowAt d (key / 32) with
  | some r =>
    let p := r.dieBed (key % 32)
    if (bedOf d p.1 p.2).xpl then putBed p.1 p.2 (fun b => { b with xpl := false }) d else d
  | none => d
def dropXpl (key : Nat) (d : Dev) : Dev := match tget d.med.xpls key with
  | some x => endXpl key (if x.running then dropFresh x.die x.bed d else d)
  | none => d

/-- A transplant or rebuild whose fresh bed is lost before it is installed starts again on another (R226, R562). -/
def restartXpl (key : Nat) (d : Dev) : Dev :=
  dropWork (.xpl key) { d with med := { d.med with xpls := tmod d.med.xpls key fun x => { x with running := false, writing := false, die := 0, bed := 0 } } }
def restartRebuild (key : Nat) (d : Dev) : Dev :=
  dropWork (.rebuild key) { d with med := { d.med with rebuilds := tmod d.med.rebuilds key fun _ => {} } }

/-- The moves that a fresh bed is for start again; whether there was one. -/
def freshLost (p : Nat → Nat → Bool) (d : Dev) : Dev :=
  forAll ((d.med.rebuilds.filter fun e => e.2.running && p e.2.die e.2.bed).map (·.1)) restartRebuild
    (forAll ((d.med.xpls.filter fun e => e.2.running && p e.2.die e.2.bed).map (·.1)) restartXpl d)
def isFresh (d : Dev) (die bed : Nat) : Bool :=
  (d.med.xpls.any fun e => e.2.running && decide (e.2.die = die) && decide (e.2.bed = bed)) ||
  (d.med.rebuilds.any fun e => e.2.running && decide (e.2.die = die) && decide (e.2.bed = bed))

/-- Queue the rebuild of a position; a transplant on it is dropped, and the row's patrol pass abandoned (R253, R275, R283). -/
def queueRebuild (row pos : Nat) (d : Dev) : Dev :=
  let d := abandonPatrol row (dropXpl (pkey row pos) d)
  { d with med := { d.med with rebuilds := if thas d.med.rebuilds (pkey row pos) then d.med.rebuilds else tset d.med.rebuilds (pkey row pos) {} } }

/-- Every position of some dies is to be rebuilt elsewhere; what was on its way onto them starts again (R562). -/
def queueRebuilds (p : Nat → Bool) (d : Dev) : Dev :=
  let d := forAll d.maps.rows (fun e => forAll e.2.pos.zipIdx fun x d => if p x.1.1 then queueRebuild e.1 x.2 d else d) d
  freshLost (fun die _ => p die) d

/-- The operations of failed dies end: reads are rebuilt from their rows, programs wait for the replacement. -/
def endOps (p : Nat → Bool) (d : Dev) : Dev :=
  let ops := tfilter d.alm.ops fun _ o => p o.die
  let d := { d with alm := { d.alm with ops := tfilter d.alm.ops fun _ o => !p o.die } }
  forAll ops (fun e d => forAll e.2.jobs jobDead d) d

/-- Declare a failure: kind 0 die, 1 link, 2 link group; the dies it fails (R272). set makes the state say so. -/
def declareFailed (kind index : Nat) (p : Nat → Bool) (set : Dev → Dev) (d : Dev) : Dev :=
  let before := degradedRows d
  let d := queueRebuilds p (set d)
  let n := ((degradedRows d).filter fun r => !before.contains r).length
  endOps p (raise .memberFailed [kind, index, n] d)

/-- A die fails on its own (R368, R561). -/
def failDie (die : Nat) (d : Dev) : Dev :=
  if tgetD d.maps.dieSvc die 0 = 1 then d else declareFailed 0 die (fun x => decide (x = die)) (record (.dieState die 1)) d

/-- Failed links of a group. -/
def failedLinks (d : Dev) (g : Nat) : Nat := ((List.range 8).filter fun i => decide ((linkAt d (8 * g + i)).failing ≠ 0)).length

/-- The dies of a link or group that failed with it. -/
def failWith (dies : List Nat) (d : Dev) : Dev :=
  forAll dies (fun die d => if thas d.alm.dies die ∧ tgetD d.maps.dieSvc die 0 = 0 then record (.dieState die 2) d else d) d

/-- A link group fails (R368). -/
def failGroup (g t : Nat) (d : Dev) : Dev :=
  if d.med.failedLg.contains g then d else
    let set := fun (d : Dev) =>
      let d := failWith ((List.range 64).map fun i => 64 * g + i) { d with med := { d.med with failedLg := d.med.failedLg ++ [g] } }
      forAll (List.range 8) (fun i d => onSeq (8 * g + i) (fun q => { q with retryAt := t + 1000000000 * cfgRetry d }) (onLink (8 * g + i) (fun k => { k with st := lsFailed, failing := 1 }) d)) d
    declareFailed 2 g (fun x => decide (lgOf x = g)) set d

/-- A link fails (R350, R368); with four failed links its group fails. -/
def failLink (l t : Nat) (d : Dev) : Dev :=
  let d := if (linkAt d l).failing ≠ 0 then onLink l (fun k => { k with st := lsFailed }) d
    else declareFailed 1 l (fun x => decide (linkOf x = l)) (fun d => failWith ((List.range 8).map fun i => 8 * l + i) (onLink l (fun k => { k with st := lsFailed, failing := 1 }) d)) d
  let d := onSeq l (fun q => { q with retryAt := t + 1000000000 * cfgRetry d, attempts := 0, ctrl := 0 }) d
  if 4 ≤ failedLinks d (l / 8) then failGroup (l / 8) t d else d

/-- More than RTMAX retrains in a second fail the link (R368). -/
def retrainCheck (l t : Nat) (d : Dev) : Dev :=
  if cfgRtmax d < ((seqAt d l).retrainAt.filter fun x => decide (t < x + 1000000000)).length then failLink l t d else d

/-! ### Program and erase failures (R226, R254, R255, R257) -/

/-- A die whose retired beds reach the profile's limit is worn out (R257). -/
def wornCheck (die : Nat) (d : Dev) : Dev := match tget d.alm.dies die with
  | some x => if !x.worn ∧ (theProfile x.profile).retire ≤ retiredBeds d die then raise .dieWorn [die] (onDie die (fun x => { x with worn := true }) d) else d
  | none => d

/-- Retire a bed for a cause (R226). -/
def retireBed (die bed cause : Nat) (d : Dev) : Dev := wornCheck die (raise .bedRetired [die, bed, cause] (putBed die bed (fun b => { b with st := .retired }) d))

/-- A word line is skipped: the bed is Suspect, a system bed stays in System (R226, R255, R256). -/
def wordLineSkipped (die bed w : Nat) (d : Dev) : Dev :=
  raise .bedSuspect [die, bed, w] (putBed die bed (fun b => { b with st := if b.st = .system then .system else .suspect, skips := b.skips ++ [w] }) d)

/-- A program failed: the word line is skipped and all its pages are programmed again at the next one; a third failure makes the bed a failed member, or, where it was to replace another, the
replacement start again (R255, R562). -/
def programFailed (i : Nat) (o : DieOp) (d : Dev) : Dev :=
  let b := bedOf d o.die o.bed
  let bpc := (theProfile (dieProfile d o.die)).bpc
  let w := physPage bpc b.skips o.page / zeroAsOne bpc
  if b.skips.length < 2 then
    let d := wordLineSkipped o.die o.bed w d
    let again := (List.range o.page).filter fun s => decide (o.page < s + bpc) && decide (physPage bpc b.skips s / zeroAsOne bpc = w)
    let o := { o with sent := false, suspended := false, suspending := false, suspends := 0 }
    forAll again (fun s => queueOp { o with page := s, stripe := s, work := .again }) (onOp i (fun _ => o) d)
  else
    let d := retireBed o.die o.bed 2 d
    let d := if isFresh d o.die o.bed then freshLost (fun x b => decide (x = o.die) && decide (b = o.bed)) d else queueRebuild o.row o.pos d
    { d with alm := { d.alm with ops := tfilter d.alm.ops fun k x => decide (k ≠ i) && !(decide (x.die = o.die) && decide (x.bed = o.bed) && decide (x.kind = .program)) } }

/-- A word line of a bed of a system area failed to program while the area was written (R255, R256): die, bed, word line. A third makes the bed a failed member, which is replaced
from the mirror or the row. -/
def sysFailed (role : Nat) (e : Nat × Nat × Nat) (d : Dev) : Dev :=
  let b := bedOf d e.1 e.2.1
  match rowAt d b.row with
  | some r =>
    if r.kind ≠ 2 ∨ r.role ≠ role ∨ r.dieBed b.pos ≠ (e.1, e.2.1) ∨ b.st ≠ .system then d
    else if b.skips.length < 2 then wordLineSkipped e.1 e.2.1 e.2.2 d
    else queueRebuild b.row b.pos (retireBed e.1 e.2.1 2 d)
  | none => d

/-- What the one fresh bed of a row position is wanted for (R183, R186): the row's class of data and the plot's default hints. -/
def bedWant (d : Dev) (r : Row) : Want :=
  let p := tget d.maps.plots r.plot
  { profile := some r.profile, k := r.k, durable := r.durable, mc := r.mc, life := r.life, heat := (match p with | some p => hHeat p.hints | none => 0), colo := r.colo, stream := r.stream,
    pack := (match p with | some p => packDefault p | none => false), tenant := plotTenant d r.plot, plot := r.plot, kind := r.kind, role := r.role }

/-- A bed given to a row could not be erased: Trellis chooses another die for the position (R226). -/
def replaceBed (row pos : Nat) (d : Dev) : Dev := match rowAt d row with
  | none => d
  | some r =>
    match pickOne d (bedWant d r) (groupsOf d row r) with
    | none => queueRebuild row pos d
    | some die => match chooseBed d die r.life with
      | none => queueRebuild row pos d
      | some (bed, _) =>
        let d := placeBed row pos die r.life (decide (r.kind = 2)) d
        let d := record (.pos row pos die bed (r.dieBed pos)) d
        rowBuilt row (forAll (d.alm.ops.filter fun e => decide (e.2.kind = .program) && decide (e.2.row = row) && decide (e.2.pos = pos)) (fun e d =>
          let d := onOp e.1 (fun o => { o with die := die, bed := bed }) d
          if d.med.toErase.contains (die, bed) then queueErase die bed 6 d else d) d)

/-- An erase ended well: the bed is Erased, or ready for its row's first program (R226). -/
def eraseDone (o : DieOp) (d : Dev) : Dev :=
  let placed := d.med.toErase.contains (o.die, o.bed)
  let d := clearFlash o.die o.bed { d with med := { d.med with toErase := d.med.toErase.filter fun p => decide (p ≠ (o.die, o.bed)) } }
  let d := putBed o.die o.bed (fun b => { b.erasedOnce with st := if placed then b.st else .erased, senses := 0, skips := [], slc := if placed then b.slc else false }) d
  if placed then rowBuilt (bedOf d o.die o.bed).row d else d

/-- An erase failed: the bed is retired at once (R254). -/
def eraseFailed (o : DieOp) (d : Dev) : Dev :=
  let b := bedOf d o.die o.bed
  let placed := d.med.toErase.contains (o.die, o.bed)
  let d := { d with med := { d.med with toErase := d.med.toErase.filter fun p => decide (p ≠ (o.die, o.bed)) } }
  let d := retireBed o.die o.bed 0 (putBed o.die o.bed Bed.erasedOnce d)
  if isFresh d o.die o.bed then freshLost (fun x b => decide (x = o.die) && decide (b = o.bed)) d
  else if placed then replaceBed b.row b.pos d else d

/-- An operation without an answer: a read is issued again, an erase repeated, a program treated as failed (R367). -/
def unanswered (i : Nat) (d : Dev) : Dev := match tget d.alm.ops i with
  | none => d
  | some o =>
    let d := onDie o.die (fun x => { x with blockedUntil := if o.kind = .readPage then x.blockedUntil else 0 }) d
    if o.kind = .program then programFailed i o d
    else onOp i (fun o => { o with sent := false, suspended := false, suspending := false, suspends := 0 }) d

/-! ### Answers to die operations (R360, R364, R371, R373) -/

/-- A codeword's sense has arrived: decode, or the next of the three senses of step B (R390). -/
def jobArrived (i : Nat) (d : Dev) : Dev := match tget d.alm.jobs i with
  | none => d
  | some j => match j.st with
    | .sensing => onJob i (fun j => { j with st := .decoding }) d
    | .retrying => onJob i (fun j => { j with senses := 1 }) d
    | .soft =>
      let d := onJob i (fun j => { j with senses := j.senses + 1 }) d
      if j.senses + 1 < 3 then queueRead i true d else d
    | _ => d

/-- Die time used: against the period, and against the tenant (R186, R195). -/
def useTime (o : DieOp) (us : Nat) (d : Dev) : Dev :=
  onDie o.die (fun x => { x with busy := x.busy + us, used := match o.tenant with | some t => tset x.used t (tgetD x.used t 0 + us) | none => x.used }) d

/-- The guard check of a committed block on its way to flash (R377, R379): what the buffer holds fails each of the three reads, so the block is written as a lost
marker and its zone becomes Read-Only. A block whose zone has been reset is checked under the plot it was written for. -/
def writeGuard (o : DieOp) (b i : Nat) (d : Dev) : Dev := match tget d.clo.buf i with
  | none => d
  | some x =>
    let plot := if x.plot = 16384 then pPlot x.pay else x.plot
    if guardOk x.pay plot x.lba then d
    else
      let d := { d with ecc := { d.ecc with guardW := satAdd 16 d.ecc.guardW 3 }
                        clo := { d.clo with buf := tset d.clo.buf i { x with pay := lostMarker plot x.lba } } }
      markLost o.row o.stripe [b] (raise .guardFail [0, plot, x.lba % 2 ^ 32, o.die, o.bed, o.page] d)

/-- The guard checks of the data blocks of a page. -/
def writeGuards (o : DieOp) (d : Dev) : Dev := match rowAt d o.row with
  | none => d
  | some r =>
    let p := theProfile r.profile
    let j := roleAt r.n o.pos o.stripe
    if j < r.k then forAll (columns p) (fun e d => match (stripeAt d o.row o.stripe).blocks[blockOf p r.k j e.1 e.2]? with
      | some (some i) => writeGuard o (blockOf p r.k j e.1 e.2) i d
      | _ => d) d
    else d

/-- The end of an Almanac operation with a good or failed answer. ok: STATUS OK. -/
def opAnswered (i : Nat) (o : DieOp) (ok : Bool) (busy : Nat) (d : Dev) : Dev :=
  let d := useTime o busy d
  match o.kind with
  | .readPage =>
    -- more than one read ahead: the wait is a cause of a miss (R208, CB_REASON 6)
    let d := if 2 ≤ o.ahead then withSome (opCmd d o) (fun c => blame c 6 (o.since - o.ready)) d else d
    -- a read of a spilled stripe is not read around its die (R271)
    let spilled := (stripeAt d o.row o.stripe).spilled || (match rowAt d o.row with | some r => decide (r.kind = 2) | none => false)
    let d := if spilled ∨ o.crowded then withSome (opCmd d o) (fun c => blame c 5 (o.since - o.ready)) d else d
    -- nor is one that its link replayed more than three times, or retrained under twice, inside the bound (R208)
    let d := if 3 < o.replays ∨ 2 ≤ o.retrains then withSome (opCmd d o) (fun c => blame c 5 (d.io.now - o.since)) d else d
    forAll o.jobs jobArrived (dropOp i d)
  | .program =>
    let d := onDie o.die (fun x => { x with blockedUntil := 0 }) d
    if !ok then programFailed i o d else match o.work with
    | .host => pageDone o.row o.stripe o.pos o.die o.bed (writeGuards o (dropOp i d))
    | .spill key => spilled key o.row (dropOp i d)
    | _ => dropOp i d
  | .erase =>
    let d := onDie o.die (fun x => { x with blockedUntil := 0 }) (dropOp i d)
    if ok then eraseDone o d else eraseFailed o d

/-- Time-outs and bridge faults of a die in the last 10 minutes (R368): three fail it, else it is reset. -/
def dieTrouble (l target t : Nat) (d : Dev) : Dev :=
  let die := 8 * l + target
  let d := onLink l (fun k => { k with timeouts := satInc 8 k.timeouts }) d
  let d := onDie die (fun x => { x with timeouts := (x.timeouts.filter fun y => decide (t < y + 600000000000)) ++ [t] }) d
  if (match tget d.alm.dies die with | some x => decide (3 ≤ x.timeouts.length) | none => false) then failDie die d
  else
    let otag := freeOtag (seqAt d l)
    onDie die (fun x => { x with resetting := some otag }) (hlReset l target d)

/-- Bridge faults among the statuses of R364, and NAND_TIMEOUT. -/
def isTrouble (st : Nat) : Bool := [5, 6, 7, 9, 10, 11].contains st

/-- GEOMETRY targets with suspend, SLC and offset reads (R365), against a qualification entry: the identity it reports, then its geometry (R220, R221). -/
def geoTarget (geo : List Byte) (t : Nat) : List Byte := slice geo (64 + 32 * t) 32
def geoProfile (g : List Byte) : Option Nat :=
  [1, 2].find? fun i => match profileOf i with
    | some p => decide (slice g 0 8 = leBytes 8 p.ident.toNat) && decide (leAt g 8 1 = p.bpc) && decide (leAt g 9 1 = p.planes) && decide (leAt g 10 2 = p.w * cwBytes p.code) &&
        decide (leAt g 12 2 = p.pages + p.spare * p.bpc) && decide (leAt g 14 2 = p.beds) && decide (leAt g 16 1 % 8 = 7)
    | none => false

/-- Rebuilds that found no link group are tried again: a link group returned, or beds were freed (R275). -/
def retryRebuilds (d : Dev) : Dev := { d with med := { d.med with rebuilds := tmap d.med.rebuilds fun _ b => { b with waiting := false } } }

/-- A die that failed with its link or group is in service again; the beds it had in rows are not read (R274). -/
def dieBack (die : Nat) (d : Dev) : Dev :=
  forAll ((listedBeds d die).filter fun e => d.maps.rows.any fun r => r.2.pos.contains (die, e.1)) (fun e => putBed die e.1 fun b => { b with gone := true }) (record (.dieState die 0) d)

/-- A failed link that trains and shows the identities it had returns to service (R369): its dies that failed with it are in service again. -/
def linkReturns (l : Nat) (d : Dev) : Dev :=
  let same := (List.range 8).all fun t => match tget d.hl.known (8 * l + t) with
    | some idn => decide (bit (linkAt d l).present t) && decide (slice (geoTarget (linkAt d l).geo t) 0 8 = idn)
    | none => true
  if (linkAt d l).failing = 0 ∨ !same then d else
    let d := raise .linkReturn [l] (onLink l (fun k => { k with failing := 0 }) d)
    let d := if failedLinks d (l / 8) < 4 then { d with med := { d.med with failedLg := d.med.failedLg.filter fun g => decide (g ≠ l / 8) } } else d
    retryRebuilds (forAll (List.range 8) (fun i d => if tgetD d.maps.dieSvc (8 * l + i) 0 = 2 then dieBack (8 * l + i) d else d) d)

/-- A GEOMETRY report: what it says, then RESET of each target present, and BADMAP of a target never seen (R365, R366). -/
def geometryDone (l : Nat) (geo : List Byte) (d : Dev) : Dev :=
  let present := leAt geo 1 1
  let d := onLink l (fun k => { k with geo := geo, present := present, buffer := leAt geo 2 2, fwVer := leAt geo 6 2 }) d
  let d := linkReturns l d
  forAll ((List.range 8).filter fun t => bit present t) (fun t d =>
    let d := hlReset l t d
    if thas d.hl.known (8 * l + t) then d else hlPlain l t opBadmap d) d

/-- The answer to a command: RSP bytes 1 STATUS, 3 TEMP, 12-13 BUSY. -/
def hlAnswer (l otag : Nat) (o : HlOp) (pay : List Byte) (t : Nat) (d : Dev) : Dev :=
  let st := leAt pay 1 1
  let die := 8 * l + o.target
  let d := onSeq l (fun q => { q with ops := tdel q.ops otag, idleFrom := t }) d
  if o.opc = opReset then (if o.all then forAll (List.range 8) (fun i => onDie (8 * l + i) fun x => { x with resetting := none }) d else onDie die (fun x => { x with resetting := none }) d)
  else if o.opc = opGeometry then (if st = 0 then geometryDone l o.data d else d)
  else if o.opc = opBadmap then (if st = 0 then onLink l (fun k => { k with badmaps := tset k.badmaps o.target o.data }) d else d)
  else if o.opc = opStatus then d
  else match o.op with
  | none => d
  | some i =>
    if o.opc = opSuspend then
      (if st = 3 then
        onOp i (fun x => { x with suspending := false, suspended := true, suspends := x.suspends + 1 }) (onSeq l (fun q => { q with ops := tmap q.ops fun _ h => if h.op = some i then { h with pausedAt := some t } else h }) d)
       else if isTrouble st then dieTrouble l o.target t d
       else onOp i (fun x => { x with suspending := false }) d)
    else if o.opc = opResume then
      (if st = 0 then onSeq l (fun q => { q with ops := tmap q.ops fun _ h => if h.op = some i then { h with pausedFor := h.pausedFor + (match h.pausedAt with | some p => t - p | none => 0), pausedAt := none } else h }) d
       else dieTrouble l o.target t d)
    else match tget d.alm.ops i with
    | none => d
    | some x =>
      if st = 0 then opAnswered i x true (leAt pay 12 2) d
      else if st = 1 ∨ st = 2 then opAnswered i x false (leAt pay 12 2) d
      else if st = 8 then unanswered i d
      else if isTrouble st then dieTrouble l o.target t (unanswered i d)
      else d

/-- TEMP of a response, signed (R251, R364). -/
def noteTemp (l : Nat) (pay : List Byte) (d : Dev) : Dev :=
  onLink l (fun k => { k with temp := leAt pay 3 1, tempSum := k.tempSum + signed 8 (leAt pay 3 1), tempN := k.tempN + 1 }) d

/-- HL_RSP_FRAME: then the die, its bound sets and its link are examined again. -/
def execHlRspFrame (link t : Nat) (s : State) : Host.Outcome State Fault Refusal :=
  s.on fun d => withSome (takeFrame link (fun f => decide (f.kind = kRsp) && decide (f.otag ≠ 0xFF)) (tick t d)) (fun f _ =>
    let d := noteTemp link f.1.pay f.2
    match tget (seqAt d link).ops f.1.otag with
    | none => d
    | some o => rcaCheck none (pumpLink link (pumpSets (8 * link + o.target) (hlAnswer link f.1.otag o f.1.pay t d)))) (tick t d)

/-- HL_DIN_FRAME: data of a read, or of a report, whose bytes are kept. -/
def execHlDinFrame (link t : Nat) (s : State) : Host.Outcome State Fault Refusal :=
  s.on fun d => withSome (takeFrame link (fun f => decide (f.kind = kDin)) (tick t d)) (fun f _ =>
    onSeq link (fun q => { q with ops := tmod q.ops f.1.otag fun o =>
      { o with din := o.din + f.1.len, data := if o.opc = opGeometry ∨ o.opc = opBadmap then o.data ++ f.1.pay else o.data } }) f.2) (tick t d)

/-- HL_ALERT (R364): the record, and STATUS to each target. -/
def execHlAlert (link t : Nat) (s : State) : Host.Outcome State Fault Refusal :=
  s.on fun d => withSome (takeFrame link (fun f => decide (f.kind = kRsp) && decide (f.otag = 0xFF)) (tick t d)) (fun f _ =>
    let d := raise .bridgeAlert [link, leAt f.1.pay 3 1] (noteTemp link f.1.pay f.2)
    forAll ((List.range 8).filter fun x => bit (linkAt d link).present x) (fun x => hlPlain link x opStatus) d) (tick t d)

/-- Every link of a group in P1: the group's idle time starts (R355). -/
def groupP1 (g t : Nat) (d : Dev) : Dev :=
  if (List.range 8).all fun i => decide ((linkAt d (8 * g + i)).st = lsP1) then { d with hl := { d.hl with groupIdle := tset d.hl.groupIdle g t } } else d

/-- PARK_ACK (R356): a link that asked is in P1; a command that became due wakes it at once. -/
def parkAcked (l t : Nat) (d : Dev) : Dev :=
  if (seqAt d l).parking then
    let d := groupP1 (l / 8) t (onLink l (fun k => { k with st := lsP1 }) (onSeq l (fun q => { q with parking := false }) d))
    if (seqAt d l).queue = [] then d else wakeLink l t d
  else d

/-- What an LCTL message does, by its code (R339): ACK (R342), NAK and replay (R345), PARK_ACK, PARK_NAK (R356). Every code carries the cumulative acknowledgement. -/
def lctlAct (l t code ack : Nat) (d : Dev) : Dev :=
  let d := hlAckTo l ack t d
  if code = 1 then retrainCheck l t (hlReplay l t d)
  else if code = 3 then parkAcked l t d
  else if code = 4 then hlPump l (onSeq l (fun q => { q with parking := false, idleFrom := t }) d)
  else d

/-! ### Blocks received (R331, R333, R334, R341) -/

/-- A frame in reception ends without being accepted; with a NAK, unless a FAB ended it (R340, R341 step 3, R344). -/
def breakFrame (l t : Nat) (nak : Bool) (d : Dev) : Dev := match (seqAt d l).rxPart with
  | none => d
  | some _ => let d := onSeq l (fun q => { q with rxPart := none }) d; if nak then hlNak l t d else d

/-- An FE block ends the frame in reception (R341 steps 3-5); outside a frame it has no effect. -/
def feIn (l t : Nat) (fin : List Byte) (d : Dev) : Dev := match (seqAt d l).rxPart with
  | none => d
  | some (fs, pay) =>
    let d := onSeq l (fun q => { q with rxPart := none }) d
    if pay.length < fsLen fs then hlNak l t d
    else if crc32c (fs ++ pay ++ slice fin 0 12) ≠ leAt fin 12 4 then hlNak l t (countCrc l d)
    else hlAccept l t fs pay fin d

/-- An FS block: with a good HCRC it begins a frame, otherwise it counts as a data block outside a frame (R341 step 2). -/
def fsIn (l : Nat) (fs : List Byte) (d : Dev) : Dev :=
  if fsOk fs then onSeq l (fun q => { q with rxPart := some (fs, []) }) d else countSync l 1 (countCrc l d)

/-- An LCTL block: ignored and counted where its CRC fails (R339). -/
def lctlIn (l t : Nat) (blk : List Byte) (d : Dev) : Dev :=
  if crc32c (slice blk 0 12) ≠ leAt blk 12 4 then countCrc l d
  else lctlAct l t (leAt blk 1 1) (leAt blk 2 2) (hlCredit l (leAt blk 4 2) d)

/-- A data block: payload of the frame in reception; outside one, or past its LEN, discarded and counted (R341 step 1; the spec does not say what comes of one past LEN:
notes/assumptions/69.md). -/
def dataIn (l : Nat) (x : List Byte) (d : Dev) : Dev := match (seqAt d l).rxPart with
  | none => countSync l 1 d
  | some (fs, pay) => if pay.length < fsLen fs then onSeq l (fun q => { q with rxPart := some (fs, pay ++ x) }) d else countSync l 1 d

/-- A control block, in its own right after it has ended a frame in reception (R341 step 3). DESIGN CHOICE (notes/assumptions/69.md): one other than FE and FAB ends a frame the same way after
its last data block too. -/
def ctlIn (l t : Nat) (x : List Byte) (d : Dev) : Dev :=
  if leAt x 0 1 = 0x2D then feIn l t x d else
  let d := breakFrame l t (decide (leAt x 0 1 ≠ 0xE1)) d
  if leAt x 0 1 = 0x1E then fsIn l x d
  else if leAt x 0 1 = 0x4B then lctlIn l t x d
  else d

/-- One block as it was read; a link that has left Active takes up none. -/
def hlBlock (l t : Nat) (b : LineBlk) (d : Dev) : Dev :=
  if (linkAt d l).st ≠ lsActive then d else match b with
  | .skp => d
  | .bad _ => countSync l 1 d
  | .data x => dataIn l x d
  | .ctl x => ctlIn l t x d

/-- The blocks that a link reads from the line, by its descrambler. -/
def lineRead (d : Dev) (l : Nat) (blocks : List (Nat × List Byte)) : List LineBlk := (lineAll (seqAt d l).rxScr blocks).1

/-- More than RTMAX retrains in a second fail the link; block lock is lost and a fast retrain begins (R335, R349, R368). -/
def loseLock (l t : Nat) (d : Dev) : Dev := retrainCheck l t (fastRetrain l t (onLink l (fun k => { k with locked := false, lockLosses := satInc 8 k.lockLosses }) d))

/-- Blocks arrive on a link, up to the one at which an Active link loses block lock (R335). -/
def hlBlocks (l t : Nat) (blocks : List (Nat × List Byte)) (d : Dev) : Dev :=
  let bs := lineRead d l blocks
  let d := onSeq l (fun q => { q with rxScr := (lineAll q.rxScr blocks).2 }) d
  match lockEnd bs with
  | none => forAll bs (hlBlock l t) d
  | some i => let d := forAll (bs.take (i + 1)) (hlBlock l t) d; if (linkAt d l).st = lsActive then loseLock l t d else d

/-- The last block read is an LCTL of a code, or one whose CRC fails. -/
def lctlLast (code : Nat) (bs : List LineBlk) : Bool := match bs.getLast? with
  | some (.ctl x) => decide (leAt x 0 1 = 0x4B) && (decide (leAt x 1 1 = code) || decide (crc32c (slice x 0 12) ≠ leAt x 12 4))
  | _ => false

/-- Blocks that end with an LCTL message of a code arrive on an Active link. -/
def lctlArrives (l code t : Nat) (blocks : List (Nat × List Byte)) (d : Dev) : Dev :=
  onActive l (fun d => onlyIf (lctlLast code (lineRead d l blocks)) (hlBlocks l t blocks) d) d

/-- HL_FRAME_RECEIVE (R341): the blocks up to the frame's FS, those after it, and those from its FE on. -/
def execHlFrameReceive (link : Nat) (fs pay fin : List (Nat × List Byte)) (t : Nat) (s : State) : Host.Outcome State Fault Refusal :=
  s.on fun d => onActive link (hlBlocks link t (fs ++ pay ++ fin)) (tick t d)

/-- HL_LCTL_ACK (R342). -/
def execHlLctlAck (link : Nat) (blocks : List (Nat × List Byte)) (t : Nat) (s : State) : Host.Outcome State Fault Refusal :=
  s.on fun d => lctlArrives link 0 t blocks (tick t d)

/-- HL_LCTL_NAK (R345). -/
def execHlLctlNak (link : Nat) (blocks : List (Nat × List Byte)) (t : Nat) (s : State) : Host.Outcome State Fault Refusal :=
  s.on fun d => lctlArrives link 1 t blocks (tick t d)

/-- HL_PARK_ACK (R356). -/
def execHlParkAck (link : Nat) (blocks : List (Nat × List Byte)) (t : Nat) (s : State) : Host.Outcome State Fault Refusal :=
  s.on fun d => lctlArrives link 3 t blocks (tick t d)

/-- HL_PARK_NAK (R356). -/
def execHlParkNak (link : Nat) (blocks : List (Nat × List Byte)) (t : Nat) (s : State) : Host.Outcome State Fault Refusal :=
  s.on fun d => lctlArrives link 4 t blocks (tick t d)

/-- HL_PARK: idle time in µs, enable. -/
def p1Idle (d : Dev) : Nat := clampN 20 60000 (fld (rd d 0x58004) 0 16)
def p1On (d : Dev) : Bool := bit (rd d 0x58004) 16

/-- Does a group hold a die of a bound set (R357)? -/
def groupBound (d : Dev) (g : Nat) : Bool := d.alm.bsets.any fun e => e.2.any fun x => decide (lgOf x = g)

/-- May a link park now (R356, R357)? -/
def mayPark (d : Dev) (l t : Nat) : Bool :=
  let q := seqAt d l
  p1On d && q.ops = [] && q.unacked = [] && q.queue = [] && !q.parking && decide (q.idleFrom + 1000 * p1Idle d ≤ t) &&
  !groupBound d (l / 8) && d.kpr.flush.isNone && d.clo.ready

/-- HL_P1_IDLE_TIMER: send PARK. -/
def execHlP1IdleTimer (link t : Nat) (s : State) : Host.Outcome State Fault Refusal :=
  s.on fun d => onActive link (fun d => onlyIf (mayPark d link t) (fun d => hlAckOut link 2 (onSeq link (fun q => { q with parking := true }) d)) d) (tick t d)

/-- HL_REPLAY_TIMER (R346): 2 µs with a frame unacknowledged. -/
def execHlReplayTimer (link t : Nat) (s : State) : Host.Outcome State Fault Refusal :=
  s.on fun d => onActive link (fun d => onlyIf (decide ((seqAt d link).unacked ≠ []) && decide ((seqAt d link).replayFrom + 2000 ≤ t)) (fun d => retrainCheck link t (hlReplay link t d)) d) (tick t d)

/-- HL_LOCK_LOSS (R335, R349). -/
def execHlLockLoss (link t : Nat) (s : State) : Host.Outcome State Fault Refusal :=
  s.on fun d => onActive link (loseLock link t) (tick t d)

/-- Reads that waited for a link to leave P1 or P2 count the time toward reason 0x07 (R358). -/
def blameExit (l t : Nat) (d : Dev) : Dev :=
  let from_ := (seqAt d l).phaseAt
  let cmds := ((d.alm.ops.filter fun e => decide (linkOf e.2.die = l) && decide (e.2.kind = .readPage)).flatMap fun e => e.2.jobs.filterMap fun j => (tget d.alm.jobs j).map (·.cmd)).eraseDups
  forAll cmds (fun c => blame c 7 (t - from_)) d

/-- HL_RETRAIN_DONE: replay resumes (R349, R350). -/
def execHlRetrainDone (link t : Nat) (s : State) : Host.Outcome State Fault Refusal :=
  s.on fun d => onlyIf (linkPresent d link && mainUp d && decide ((linkAt d link).st = lsRetrain)) (fun d =>
    let d := if (seqAt d link).waking then blameExit link t d else d
    let d := onSeq link (fun q => { seedLine q with waking := false, pll := 0, replayFrom := t, idleFrom := t, ctrl := 0 }) (onLink link (fun k => { k with st := lsActive, locked := true }) d)
    pumpLink link (hlPump link (hlResend link (seqAt d link).unacked d))) (tick t d)

/-- HL_RETRAIN_TIMEOUT: 40 µs without the retrain completing; from a wake out of P2 the PLL's lock time too (R350, R354). -/
def execHlRetrainTimeout (link t : Nat) (s : State) : Host.Outcome State Fault Refusal :=
  s.on fun d => onlyIf (linkPresent d link && mainUp d && decide ((linkAt d link).st = lsRetrain) && decide ((seqAt d link).phaseAt + 40000 + (seqAt d link).pll ≤ t)) (fullTraining link t) (tick t d)

/-- HL_TRAINING_DONE (R350, R352, R366): sequences start at 0, credit at the bridge's TS2, every operation of before is unanswered, GEOMETRY goes out. -/
def execHlTrainingDone (link txPre brPre eye credit t : Nat) (s : State) : Host.Outcome State Fault Refusal :=
  s.on fun d => onlyIf (linkPresent d link && mainUp d && decide ((linkAt d link).st = lsTraining)) (fun d =>
    let old := ((seqAt d link).ops.filterMap fun e => if e.2.opc = opSuspend ∨ e.2.opc = opResume then none else e.2.op)
    let d := onLink link (fun k => { k with st := lsActive, locked := true, txPre := txPre % 8, brPre := brPre % 8, eye := eye % 256 }) d
    let d := onSeq link (fun q => {
      seedLine q with
      txSeq := 0, rxSeq := 0, unacked := [], queue := [], sameReplay := 0, nakAt := none, doutUsed := 0, doutLimit := credit % 65536, attempts := 0
      parking := false, waking := false, inbox := [], ops := [], ctrl := 0, idleFrom := t }) d
    let d := forAll (List.range 8) (fun i => onDie (8 * link + i) fun x => { x with resetting := none }) d
    pumpLink link (forAll old unanswered (hlPlain link 0 opGeometry d))) (tick t d)

/-- HL_TRAINING_TIMEOUT: 2 ms; the third failed attempt in a row fails the link (R350). -/
def execHlTrainingTimeout (link t : Nat) (s : State) : Host.Outcome State Fault Refusal :=
  s.on fun d => onlyIf (linkPresent d link && mainUp d && decide ((linkAt d link).st = lsTraining) && decide ((seqAt d link).phaseAt + 2000000 ≤ t)) (fun d =>
    if 3 ≤ (seqAt d link).attempts + 1 then failLink link t d else fullTraining link t (onSeq link (fun q => { q with attempts := q.attempts + 1 }) d)) (tick t d)

/-- HL_BRIDGE_WAKE (R358). -/
def execHlBridgeWake (link t : Nat) (s : State) : Host.Outcome State Fault Refusal :=
  s.on fun d => onlyIf (linkPresent d link && mainUp d) (wakeLink link t) (tick t d)

/-- The limit of an operation, ns: the larger of OPTMO and 4 x the profile's tBERS (R368). -/
def opLimit (d : Dev) (die : Nat) : Nat := max (1000000 * cfgOptmo d) (4000 * (theProfile (dieProfile d die)).erase)

/-- Time an operation has been outstanding and not suspended. -/
def opTime (o : HlOp) (t : Nat) : Nat := t - o.sentAt - o.pausedFor - (match o.pausedAt with | some p => t - p | none => 0)

/-- HL_OP_TIMEOUT (R368): the target is reset and the operation treated as unanswered. -/
def execHlOpTimeout (link otag t : Nat) (s : State) : Host.Outcome State Fault Refusal :=
  s.on fun d => withSome (tget (seqAt d link).ops otag) (fun o d => onlyIf (decide (o.opc ≠ opReset) && decide (opLimit d (8 * link + o.target) < opTime o t)) (fun d =>
    let d := onSeq link (fun q => { q with ops := tdel q.ops otag }) d
    let d := if o.opc = opSuspend ∨ o.opc = opResume then d else match o.op with | some i => unanswered i d | none => d
    pumpLink link (dieTrouble link o.target t d)) d) (tick t d)

/-- HL_RESET_TIMEOUT (R368): a RESET without an answer for 10 ms fails the die; one of every target (ALL = 1), without an answer for 100 ms, the link. -/
def execHlResetTimeout (link otag t : Nat) (s : State) : Host.Outcome State Fault Refusal :=
  s.on fun d => withSome (tget (seqAt d link).ops otag) (fun o d => onlyIf (decide (o.opc = opReset) && decide (o.sentAt + (if o.all then 100000000 else 10000000) ≤ t)) (fun d =>
    let d := onSeq link (fun q => { q with ops := tdel q.ops otag }) d
    pumpLink link (if o.all then failLink link t d else failDie (8 * link + o.target) d)) d) (tick t d)

/-- HL_RETRY_TIMER (R369). -/
def execHlRetryTimer (link t : Nat) (s : State) : Host.Outcome State Fault Refusal :=
  s.on fun d => onlyIf (linkPresent d link && mainUp d && decide ((linkAt d link).st = lsFailed) && decide ((seqAt d link).retryAt ≤ t)) (fullTraining link t) (tick t d)

/-- A write of one bit of HL_LCTRL, held until done (R525). -/
def lctrl (path : Path) (link b : Nat) (ok : Dev → Bool) (f : Dev → Dev) (d : Dev) : Dev :=
  onlyIf (reachable d path (0x50004 + 0x40 * link) && linkPresent d link && mainUp d && ok d) (fun d => f (onSeq link (fun q => { q with ctrl := q.ctrl ||| 2 ^ b }) d)) d

/-- In P1 or P2? -/
def parkedLink (d : Dev) (l : Nat) : Bool := decide ((linkAt d l).st = lsP1) || decide ((linkAt d l).st = lsP2)

/-- RETRAIN: a parked link wakes, which is a fast retrain (R358, R525). -/
def lctrlRetrain (link t : Nat) (d : Dev) : Dev := if parkedLink d link then wakeLink link t d else retrainCheck link t (fastRetrain link t d)

/-- FULL: a parked link wakes first (R525). -/
def lctrlFull (link t : Nat) (d : Dev) : Dev := fullTraining link t (wakeLink link t d)

/-- HL_LCTRL.RETRAIN. -/
def execHlLctrlRetrain (path : Path) (link t : Nat) (s : State) : Host.Outcome State Fault Refusal :=
  s.onReg path fun d => lctrl path link 0 (fun d => decide ((linkAt d link).st = lsActive) || parkedLink d link) (lctrlRetrain link t) (tick t d)
/-- HL_LCTRL.FULL. -/
def execHlLctrlFull (path : Path) (link t : Nat) (s : State) : Host.Outcome State Fault Refusal :=
  s.onReg path fun d => lctrl path link 1 (fun d => decide ((linkAt d link).st ≠ lsFailed)) (lctrlFull link t) (tick t d)
/-- HL_LCTRL.RETURN: retry a failed link now (R369). -/
def execHlLctrlReturn (path : Path) (link t : Nat) (s : State) : Host.Outcome State Fault Refusal :=
  s.onReg path fun d => lctrl path link 2 (fun d => decide ((linkAt d link).st = lsFailed)) (fullTraining link t) (tick t d)

/-- LINK_GROUP_PLL_FAIL (R368). -/
def execLinkGroupPllFail (lg t : Nat) (s : State) : Host.Outcome State Fault Refusal :=
  s.on fun d => onlyIf (decide (lg < linkGroups d) && mainUp d) (fun d => pumpAll (failGroup lg t d)) (tick t d)

end Sys2Proof.Machine
end

