-- ==== Sys2Proof/Machine/Decoder.lean ====
section
/-!
DEFINITION. The decoder clusters (spec/11_integrity_and_memory.md R388-R392) and the clock events of the Almanac (spec/06_placement_and_almanac.md R192, R198,
R199): what follows the end of a codeword's decode, soft buffers, the end of a blocked time, and the period.
-/

namespace Sys2Proof.Machine

/-- Is a codeword in decode: its sense has arrived, or all three of step B? -/
def decodeReady (j : Job) : Bool :=
  decide (j.st = .decoding) || (decide (j.st = .retrying) && decide (j.senses = 1)) || (decide (j.st = .soft) && decide (3 ≤ j.senses))

/-- The largest corrected-bit count and its link group (R389). -/
def noteBits (g bits : Nat) (d : Dev) : Dev :=
  let b := min bits 1023
  if fld d.ecc.cbMax 0 10 < b then { d with ecc := { d.ecc with cbMax := b + 2 ^ 16 * g } } else d

/-- A codeword above the early-warning threshold: EW in the completion, one more against the bed, a transplant at the threshold count (R248, R250). -/
def earlyWarn (j : Job) (r : Row) (bits : Nat) (d : Dev) : Dev :=
  let p := bedFor d j.cmd j.row r j.pos
  if bits ≤ (theProfile r.profile).ew then d else
    ewCheck p.1 p.2 (noteBed p.1 p.2 (fun b => { b with ew := satInc 16 b.ew }) (onCmd j.cmd (fun c => { c with ew := true }) d))

/-- A guard failure after decryption (R376, R380): counted, recorded, and the block is rebuilt from its row. -/
def guardFailed (i : Nat) (j : Job) (r : Row) (d : Dev) : Dev :=
  let p := bedFor d j.cmd j.row r j.pos
  jobDead i (raise .guardFail [1, j.plot, j.lba % 2 ^ 32, p.1, p.2, j.stripe] { d with ecc := { d.ecc with guardR := satInc 16 d.ecc.guardR } })

/-- The payload at a job's place: what was programmed there, or a filler (notes/assumptions/10.md). A place listed for correction is an erasure. -/
def jobPayload (d : Dev) (j : Job) (r : Row) : Payload :=
  let p := bedFor d j.cmd j.row r j.pos
  (onFlash d p.1 p.2 j.stripe j.q j.c).getD (fillerBlock j.plot j.lba)

/-- A codeword recovered: a soft decode of any codeword the command needed sets SD (R205, R390), and is counted under its step. -/
def recovered (j : Job) (d : Dev) : Dev :=
  let d := if j.st ≠ .decoding then blame j.cmd 5 (sinceArrival d j.cmd) (onCmd j.cmd (fun c => { c with sd := true }) d) else d
  { d with ecc := { d.ecc with
    softA := if j.st = .retrying then satInc 16 d.ecc.softA else d.ecc.softA
    softB := if j.st = .soft then satInc 16 d.ecc.softB else d.ecc.softB } }

/-- A codeword decoded: recovered only when its block passes its guard too (R376, R390). -/
def decodedJob (i : Nat) (j : Job) (r : Row) (guard : Bool) (d : Dev) : Dev :=
  let v := jobPayload d j r
  match j.parent with
  | some k =>
    let role := roleAt r.n j.pos j.stripe
    -- P and Q payloads carry no guard of their own (R384)
    if role < r.k ∧ !guard then guardFailed i j r d
    else
      let d := recovered j d
      tryRebuild k (onJob k (fun x => { x with gotp := tset x.gotp role v }) (onJob i (fun x => { x with st := .finished }) d))
  | none => if guard ∧ guardOk v j.plot j.lba then jobHas i v (recovered j d) else guardFailed i j r d

/-- Does a hard failure start reconstruction at once, beside soft decode (R391): class L0-L6, and the row's other members available as R203 asks? -/
def parallelRebuild (d : Dev) (j : Job) (r : Row) : Bool := match tget d.qm.cmds j.cmd with
  | some c =>
    decide (c.lat ≤ 6) && decide ((awayFrom d j.row r j.target).length ≤ (if r.durable then 2 else 1)) && j.parent.isNone && !j.around
  | none => false

/-- A decode that found no codeword (R390): a hard failure is counted; then the next means. -/
def failedJob (i : Nat) (j : Job) (r : Row) (d : Dev) : Dev :=
  let hard := decide (j.st = .decoding)
  let d := if hard then { d with ecc := { d.ecc with hardFail := satInc 32 d.ecc.hardFail } } else d
  let par := hard && parallelRebuild d j r
  let d := nextMeans i j d
  if par then pumpRow j.row (tryRebuild i (startAround i (awayFrom d j.row r j.target) d)) else d

/-- A release refused is a cluster fault; the second within a second fences the cluster (R388). -/
def clusterFault (c t : Nat) (d : Dev) : Dev :=
  let l := ((tgetD d.ecc.faults c []).filter fun x => decide (t < x + 1000000000)) ++ [t]
  let d := { d with ecc := { d.ecc with faults := tset d.ecc.faults c l } }
  if 2 ≤ l.length then fenceCluster c d else d

/-- The end of a decode. -/
def decodeDone (i : Nat) (j : Job) (r : Row) (res : DecodeResult) (t : Nat) (d : Dev) : Dev :=
  let d := if j.st = .soft then d else { d with ecc := { d.ecc with cw := d.ecc.cw + 1 } }
  match res with
  | .decoded bits guard => decodedJob i j r guard (earlyWarn j r (min bits 1023) (noteBits (lgOf (bedFor d j.cmd j.row r j.pos).1) bits d))
  | .failed => failedJob i j r d
  | .refused => failedJob i j r (clusterFault (jobCluster d j) t d)

/-- LDPC_DECODE_DONE. -/
def execLdpcDecodeDone (job : Nat) (res : DecodeResult) (t : Nat) (s : State) : Host.Outcome State Fault Refusal :=
  s.on fun d => withSome (tget d.alm.jobs job) (fun j d => withSome (rowAt d j.row) (fun r => onlyIf (decodeReady j && mainUp d) fun d =>
    pumpAll (softGrant (decodeDone job j r res t d))) d) (tick t d)

/-- SOFT_BUFFER_GRANT (R392). -/
def execSoftBufferGrant (cluster : Nat) (s : State) : Host.Outcome State Fault Refusal :=
  s.on fun d => onlyIf (mainUp d && decide (tgetD d.ecc.softUse cluster 0 < 8)) (fun d => pumpAll (softGrant d)) d

/-- BLOCKED_TIME_EXPIRY: the die is no longer blocked, and the gate is examined again for its bound sets (R198, R199). -/
def execBlockedTimeExpiry (die t : Nat) (s : State) : Host.Outcome State Fault Refusal :=
  s.on fun d => withSome (tget d.alm.dies die) (fun x => onlyIf (decide (x.blockedUntil ≠ 0) && decide (x.blockedUntil ≤ t) && mainUp d) fun d =>
    rcaCheck none (almPump die (pumpSets die (onDie die (fun x => { x with blockedUntil := 0 }) d)))) (tick t d)

/-- ALMANAC_PERIOD (R192): every 2 ms the busy times of the period become those of the last one, and what tenants have used starts again. -/
def execAlmanacPeriod (t : Nat) (s : State) : Host.Outcome State Fault Refusal :=
  s.on fun d => onlyIf (mainUp d && decide (d.alm.periodAt + 2000000 ≤ t)) (fun d =>
    { d with alm := { d.alm with periodAt := t / 2000000 * 2000000, rbUsed := [], dies := tmap d.alm.dies fun _ x => { x with busyLast := x.busy, busy := 0, used := [] } } }) (tick t d)

end Sys2Proof.Machine
end

