-- ==== Sys2Proof/Machine/Moves.lean ====
section
/-!
DEFINITION. Moving data in the background (spec/07_media_management.md R245-R247, R252, spec/08_rows_and_parity.md R268, R277-R281, R289): what a member's page
holds or can be rebuilt from, the die operations of a move, laying whole stripes into a destination row, and the moves of zones and region blocks, which take effect at their switch
commands (notes/assumptions/19.md).
-/

namespace Sys2Proof.Machine

/-! ### Contents (R252, R268, R280, R285) -/

/-- Codewords that fail hard and soft decode during a move: position x 65536 x 16 + page x 16 + plane x 4 + codeword. -/
def cwKey (pos s q c : Nat) : Nat := pos * 2 ^ 20 + fixKey s q c

/-- A codeword of a member, where it can be read. -/
def readable (d : Dev) (row : Nat) (r : Row) (bad : List Nat) (s q c pos : Nat) : Option Payload :=
  let p := r.dieBed pos
  if memberDead d row pos p.1 ∨ isFixed d p.1 p.2 s q c ∨ bad.contains (cwKey pos s q c) then none
  else onFlash d p.1 p.2 s q c

/-- Has no member of a column contents on flash: a stripe of fillers alone (notes/assumptions/16.md)? -/
def blankColumn (d : Dev) (r : Row) (s q c : Nat) : Bool := r.pos.all fun p => (onFlash d p.1 p.2 s q c).isNone

/-- The column of a stripe: members on flash, and for an incomplete stripe what the buffer and the running parity give (R269). -/
def columnOf (d : Dev) (row : Nat) (r : Row) (bad : List Nat) (s q c : Nat) : Column :=
  (List.range r.n).foldl (fun t pos => match readable d row r bad s q c pos with
    | some v => tset t (roleAt r.n pos s) v
    | none => t) (columnNow d row r s q c r.n)

/-- A member's codeword, read or rebuilt; none: lost. -/
def memberPayload (d : Dev) (row : Nat) (r : Row) (bad : List Nat) (s q c pos : Nat) : Option Payload :=
  match readable d row r bad s q c pos with
  | some v => some v
  | none => rebuildRole r.k (columnOf d row r bad s q c) (roleAt r.n pos s)

/-- A data block of a slot at an offset, for a move: its payload, or lost (R245). plot, lba: what it should be. -/
def movedBlock (d : Dev) (row slot o plot lba : Nat) (bad : List Nat) : Payload := match buffered d plot lba with
  | some b => b.pay
  | none => match rowAt d row with
    | none => fillerBlock plot lba
    | some r => match placeOf r slot o with
      | none => fillerBlock plot lba
      | some (s, b) =>
        let x := spotOf (theProfile r.profile) r.k b
        if isLost d row s b then lostMarker plot lba
        else if blankColumn d r s x.q x.c ∧ !thas d.med.stripes (skey row s) then fillerBlock plot lba
        else
          let pos := posOfRole r.n x.j s
          let good := fun (v : Option Payload) => v.filter fun v => guardOk v plot lba
          -- a block that fails its guard is rebuilt from its row first
          match good (memberPayload d row r bad s x.q x.c pos), good (memberPayload d row r (cwKey pos s x.q x.c :: bad) s x.q x.c pos) with
          | some v, _ => v
          | none, some v => v
          | none, none => lostMarker plot lba

/-! ### The pages that moves read and program (R195, R249) -/

/-- Is the page of a position on flash: its stripe is complete, or it is programmed already? -/
def pageOnFlash (d : Dev) (row s pos : Nat) : Bool := match tget d.med.stripes (skey row s) with
  | some st => st.progd.contains pos
  | none => true

/-- Pages that the copy of the first wp blocks of a slot reads: stripe, position, plane. -/
def slotPages (d : Dev) (row slot wp : Nat) : List (Nat × Nat × Nat) := match rowAt d row with
  | none => []
  | some r =>
    let p := theProfile r.profile
    let ps := zeroAsOne r.perStripe
    (r.assigned.getD slot []).zipIdx.flatMap fun e => (List.range r.n).flatMap fun pos =>
      let j := roleAt r.n pos e.1
      if j < r.k ∧ pageOnFlash d row e.1 pos then
        ((List.range p.planes).filter fun q => decide (e.2 * ps + blockOf p r.k j q 0 < wp)).map fun q => (e.1, pos, q)
      else []

/-- Pages that the copy of blocks of a region row at some offsets reads. -/
def offsetPages (d : Dev) (row : Nat) (offs : List Nat) : List (Nat × Nat × Nat) := match rowAt d row with
  | none => []
  | some r => ((offs.filterMap fun o => (placeOf r 0 o).map fun x => let y := spotOf (theProfile r.profile) r.k x.2; (x.1, posOfRole r.n y.j x.1, y.q)).eraseDups).filter
      fun e => pageOnFlash d row e.1 e.2.1

/-- Queue reads of pages of a row, and programs of whole stripes or of one bed's pages, for a piece of work. -/
def queueReads (w : Work) (row : Nat) (pages : List (Nat × Nat × Nat)) (d : Dev) : Dev := forAll pages (fun e => queueWork w .readPage 7 row e.1 e.2.1 e.2.2) d
def queueStripe (w : Work) (row s n : Nat) (d : Dev) : Dev := forAll (List.range n) (fun pos => queueWork w .program 7 row s pos 0) d
def queueFresh (w : Work) (row pos die bed : Nat) (pages : List Nat) (d : Dev) : Dev :=
  forAll pages (fun s => queueOp { die := die, kind := .program, bed := bed, page := s, level := 6, row := row, stripe := s, pos := pos, work := w }) d

/-- The sibling senses of codewords that had to be rebuilt in a move: every other member's page once for each page position and plane (R249). -/
def siblingSenses (row : Nat) (bad : List Nat) (d : Dev) : Dev := match rowAt d row with
  | none => d
  | some r =>
    let pages := (bad.map fun k => (k / 2 ^ 20, k % 2 ^ 20 / 4)).eraseDups
    forAll ((pages.map (·.2)).eraseDups) (fun g d => forAll r.pos.zipIdx (fun x d =>
      if pages.contains (x.2, g) ∨ memberDead d row x.2 x.1.1 then d else countSense x.1.1 x.1.2 1 d) d) d

/-! ### Laying stripes -/

/-- Lay the stripe of a rank of a slot, from its blocks in order; blocks written as lost are entered in the lost-stripe table (R245, R281, R282). -/
def layStripe (row slot rank : Nat) (blocks : List Payload) (d : Dev) : Dev := match rowAt d row with
  | none => d
  | some r =>
    let p := theProfile r.profile
    let x := stripeFor row slot rank r d
    let d := forAll (columns p) (fun e => layColumn row x.1 e.1 e.2 ((List.range r.k).map fun j => blocks.getD (blockOf p r.k j e.1 e.2) 0)) x.2
    markLost row x.1 ((blocks.zipIdx.filter fun e => pLost e.1).map (·.2)) d

/-! ### Zones (R245, R246, R289) -/

/-- Blocks of a zone below its write pointer, as whole stripes of the destination, with the stripe's fillers where nothing more will be written. whole: the zone takes no
more blocks. -/
def zoneBlocks (d : Dev) (c : Copying) (p : Plot) (n : Nat) (bad : List Nat) : List Payload :=
  (List.range n).map fun o =>
    let lba := c.zone * p.span + o
    if o < c.wp then movedBlock d c.src ((zoneOf d c.plot c.zone).slot) o c.plot lba bad else fillerBlock c.plot lba

/-- Blocks of the tail of a Closed zone, in a stripe of the destination that stays incomplete, go back into the write buffer (notes/assumptions/20.md). -/
def tailBlocks (row slot from_ : Nat) (pays : List Payload) (d : Dev) : Dev :=
  let pos := d.clo.nextPos
  let d := { d with clo := { d.clo with
    buf := tfilter d.clo.buf fun _ b => !(pays.any fun v => decide (pPlot v = b.plot) && decide (pLba v = b.lba))
    nextPos := pos + pays.length } }
  let d := { d with clo := { d.clo with buf := pays.zipIdx.foldl (fun t e => tset t (pos + e.2) { plot := pPlot e.1, lba := pLba e.1, pay := e.1, spilled := false }) d.clo.buf } }
  forAll pays.zipIdx (fun e => placeBlock row slot (from_ + e.2) (some (pos + e.2)) e.1) d

/-- Whole stripes of a zone's copy: of a Closed zone those its blocks fill. -/
def copyStripes (c : Copying) (r : Row) : Nat := if c.st = .closed then c.wp / zeroAsOne r.perStripe else cdiv c.wp (zeroAsOne r.perStripe)

/-- Lay the whole stripes of a zone's copy into its destination slot. -/
def layZone (c : Copying) (p : Plot) (bad : List Nat) (d : Dev) : Dev := match rowAt d c.dst with
  | none => d
  | some r =>
    let ps := zeroAsOne r.perStripe
    let blocks := zoneBlocks d c p (copyStripes c r * ps) bad
    forAll (List.range (copyStripes c r)) (fun i => layStripe c.dst c.slot i ((blocks.drop (i * ps)).take ps)) d

/-- What a zone's copy still needs at the switch: a Closed zone's tail goes on in the write buffer, any other zone's slot is filled. tail: its blocks. -/
def endZone (c : Copying) (p : Plot) (tail : List Payload) (d : Dev) : Dev := match rowAt d c.dst with
  | none => d
  | some r =>
    let at_ := copyStripes c r * zeroAsOne r.perStripe
    if c.st = .closed then (if tail = [] then d else tailBlocks c.dst c.slot at_ tail d)
    else fillShare c.dst c.slot c.plot (c.zone * p.span) at_ d

/-- The tail of a Closed zone beyond its copy's whole stripes. -/
def tailOf (d : Dev) (c : Copying) (p : Plot) (bad : List Nat) : List Payload := match rowAt d c.dst with
  | some r => if c.st = .closed then (zoneBlocks d c p c.wp bad).drop (copyStripes c r * zeroAsOne r.perStripe) else []
  | none => []

/-- Valid blocks of a zone. -/
def validOf (z : Zone) (p : Plot) : Nat := min z.written (min z.wp p.cap)

/-- The incomplete stripes of a slot are given up, with their programs. -/
def dropStripes (row slot : Nat) (d : Dev) : Dev :=
  let mine := (d.med.stripes.filter fun e => decide (e.1 / 65536 = row) && decide (e.2.slot = slot)).map (·.1)
  let d := forAll (mine.filter fun k => thas d.maps.spills k) (fun k => record (.spill k none 0)) d
  { d with
    med := { d.med with stripes := tfilter d.med.stripes fun k _ => !mine.contains k }
    alm := { d.alm with ops := tfilter d.alm.ops fun _ o => o.sent || decide (o.kind ≠ .program) || !mine.contains (skey o.row o.stripe) } }

/-- The switch of a zone: one record moves it to its destination; reads fetched before keep the old row, which loses its blocks (R246). A zone that gained a lost block is Read-Only. -/
def switchZone (c : Copying) (p : Plot) (bad : List Nat) (d : Dev) : Dev :=
  let z := zoneOf d c.plot c.zone
  let n := validOf z p
  let tail := tailOf d c p bad
  let d := layZone c p bad (siblingSenses c.src bad d)
  let lost : Bool := match rowAt d c.dst with | some r => (r.assigned.getD c.slot []).any fun s => thas d.maps.lost (skey c.dst s) | none => false
  let d := record (.move c.plot c.zone c.dst c.slot c.src c.kind) (holdOld (zkey c.plot c.zone) (c.src, z.slot) d)
  let d := endZone c p tail (dropStripes c.src z.slot d)
  let d := loseValid c.src n (onRow c.dst (fun r => { r with valid := r.valid + n }) d)
  if lost ∧ z.st ≠ .offline ∧ z.st ≠ .readOnly then zoneLost (zkey c.plot c.zone) d else d

/-! ### Region blocks (R231, R245, R247) -/

/-- The LBAs of a region whose blocks lie in a row, in order. -/
def regionLbas (d : Dev) (plot row : Nat) : List (Nat × Nat) :=
  d.maps.cmap.filterMap fun e =>
    if e.1 / 2 ^ 48 = plot ∧ tget d.maps.rslots (plot * 16384 + e.2 / 2 ^ 22) = some row then some (e.1 % 2 ^ 48, e.2 % 2 ^ 22) else none

/-- The region row that weeding and grafting write into. -/
def weedDest (d : Dev) (plot : Nat) (durable : Bool) : Option (Nat × Row) :=
  tfind d.maps.rows fun _ r => decide (r.kind = 1) && decide (r.role = 1) && decide (r.plot = plot) && r.openNow && decide (r.durable = durable) &&
    decide (r.given < (theProfile r.profile).pages)

/-- Lay the blocks of a region copy's stripe into its rank of the destination. -/
def layRegion (c : Copying) (bad : List Nat) (d : Dev) : Dev := match rowAt d c.dst with
  | none => d
  | some r => layStripe c.dst 0 c.slot ((List.range (zeroAsOne r.perStripe)).map fun i => match c.blks[i]? with
      | some e => movedBlock d c.src 0 e.2 c.plot e.1 bad
      | none => fillerBlock c.plot 0) d

/-- Does the map entry of a region block still point to the place its copy was read from (R247)? -/
def stillAt (d : Dev) (plot src : Nat) (e : Nat × Nat) : Bool := match tget d.maps.cmap (lkey plot e.1) with
  | some x => decide (x % 2 ^ 22 = e.2) && decide (tget d.maps.rslots (plot * 16384 + x / 2 ^ 22) = some src)
  | none => false

/-- The switch of a region copy's stripe: a map record for each block that is where it was (R246, R247). How many there are, and the part after it. -/
def switchRegion (c : Copying) (bad : List Nat) (d : Dev) : Nat × Dev := match rowAt d c.dst with
  | none => (0, d)
  | some r =>
    let d := layRegion c bad (siblingSenses c.src bad d)
    let slot := match d.maps.rslots.find? fun e => decide (e.1 / 16384 = c.plot) && decide (e.2 = c.dst) with | some e => e.1 % 16384 | none => 0
    let go := c.blks.zipIdx.filter fun e => stillAt d c.plot c.src e.1
    let d := forAll go (fun e d => record (.cmap (lkey c.plot e.1.1) (some (slot * 2 ^ 22 + c.slot * zeroAsOne r.perStripe + e.2))) (holdOld (2 ^ 63 + lkey c.plot e.1.1) (c.src, e.1.2) d)) d
    (go.length, trySeal c.dst (loseValid c.src go.length (onRow c.dst (fun r => { r with valid := r.valid + go.length }) d)))

/-! ### Beds that leave their rows -/

/-- A bed leaves its row, and is freed once the reads that use it drain (R252, R279). -/
def oldBed (row die bed cause : Nat) (next : BState) (d : Dev) : Dev :=
  { d with med := { d.med with old := d.med.old ++ [{ row := row, die := die, bed := bed, next := next, cause := cause }] } }

/-- Spare rescue beds: System beds that no row has (R235). -/
def spareBeds (d : Dev) : List (Nat × Nat) :=
  (d.maps.beds.filter fun e => decide (e.2.st = .system) && !(d.maps.rows.any fun r => r.2.pos.contains (e.1 / 4096, e.1 % 4096)) && !isFresh d (e.1 / 4096) (e.1 % 4096)).map fun e => (e.1 / 4096, e.1 % 4096)

/-- A spare rescue bed for a rescue row, of its profile and in a link group that it does not use. -/
def spareFor (d : Dev) (row : Nat) (r : Row) : Option (Nat × Nat) :=
  if r.kind = 2 ∧ r.role = 2 then (spareBeds d).find? fun p => decide (dieProfile d p.1 = r.profile) && diePresent d p.1 && !(groupsOf d row r).contains (lgOf p.1) else none

/-- Give a fresh bed to a row position, out of every link group the row uses (R183, R228, R260); none: no such bed. -/
def freshBed (row : Nat) (r : Row) (pos : Nat) (d : Dev) : Option (Nat × Nat × Dev) :=
  match spareFor d row r with
  | some (die, bed) => some (die, bed, putBed die bed (fun b => { b with row := row, pos := pos }) d)
  | none => match pickOne d (bedWant d r) (groupsOf d row r) with
  | none => none
  | some die => match chooseBed d die r.life with
    | none => none
    | some (bed, _) =>
      let d := placeBed row pos die r.life (decide (r.kind = 2)) d
      some (die, bed, if d.med.toErase.contains (die, bed) then queueErase die bed 6 d else d)

/-- The pages of a position that a copy of it has to make: those written. -/
def pagesToCopy (d : Dev) (row pos : Nat) (r : Row) : List Nat :=
  let p := theProfile r.profile
  let inc := fun s => thas d.med.stripes (skey row s)
  let filled := fun (s : Nat) => !(columns p).all fun e => blankColumn d r s e.1 e.2
  (List.range p.pages).filter fun s => if inc s then (stripeAt d row s).progd.contains pos else filled s

/-- The data blocks of a column that nothing gives, as offsets in the stripe (R280). -/
def columnLost (d : Dev) (row : Nat) (r : Row) (bad : List Nat) (s q c : Nat) : List Nat :=
  (List.range r.k).filterMap fun j => if (memberPayload d row r bad s q c (posOfRole r.n j s)).isNone then some (blockOf (theProfile r.profile) r.k j q c) else none

/-- The LBA of a block of a stripe of a zoned row. -/
def stripeLba (d : Dev) (row : Nat) (r : Row) (s b : Nat) : Nat := match zoneOfStripe d row s with
  | some key => (match tget d.maps.plots (key / 2 ^ 32), tget d.maps.zones key with
    | some p, some z => zoneLba p (key % 2 ^ 32) ((r.assigned.getD z.slot []).idxOf s * r.perStripe + b)
    | _, _ => 0)
  | none => 0

/-- Copy a position's pages to another bed. A codeword that cannot be had marks its stripe lost, with the column's erased data blocks, and is written as a lost marker where it is data (R252, R280,
R281). -/
def copyPages (row pos die bed : Nat) (bad : List Nat) (d : Dev) : Dev := match rowAt d row with
  | none => d
  | some r =>
    let p := theProfile r.profile
    let pages := pagesToCopy d row pos r
    let src := d
    forAll pages (fun s d => forAll (columns p) (fun e d => match memberPayload src row r bad s e.1 e.2 pos with
      | some v => putFlash die bed s e.1 e.2 v d
      | none =>
        let j := roleAt r.n pos s
        let d := if j < r.k then putFlash die bed s e.1 e.2 (lostMarker r.plot (stripeLba src row r s (blockOf p r.k j e.1 e.2))) d else d
        markLost row s (columnLost src row r bad s e.1 e.2) d) d) d

/-- Put a bed in a row position, by one journal record (R252, R279); one that met program failures is transplanted in its turn (R256). -/
def installBed (row pos die bed : Nat) (d : Dev) : Dev :=
  let d := record (.pos row pos die bed ((rowAt d row).elim (0, 0) fun r => r.dieBed pos)) d
  match rowAt d row with
  | some r =>
    if r.st = .isSealed ∧ r.kind ≠ 2 then
      let d := putBed die bed (fun b => { b with st := if b.st = .suspect then .suspect else .isSealed, stamp := effHour d (lgOf die) }) d
      if (bedOf d die bed).st = .suspect then queueXpl row pos 3 true d else d
    else d
  | none => d

end Sys2Proof.Machine
end

