-- ==== Sys2Proof/Machine/Media.lean ====
section
/-!
DEFINITION. Background work of media management and rows (spec/07_media_management.md R236, R242-R259, spec/08_rows_and_parity.md R274-R289, R562,
spec/06_placement_and_almanac.md R201, R202): what each slot starts, the switches that end moves, beds and rows that are freed, patrol, and the hourly work.
-/

namespace Sys2Proof.Machine

/-! ### Starting work at a slot (R201, R202) -/

/-- Is a die free for new background work: a background slot, and nothing queued on it? -/
def idleBg (d : Dev) (die : Nat) : Bool := bgNow d die && !(d.alm.ops.any fun e => decide (e.2.die = die))

/-- A Released bed to erase for stock: the least worn, the lowest index on ties (R226). -/
def stockBed (d : Dev) (die : Nat) (p : Profile) : Option Nat :=
  let beds := listedBeds d die
  let fresh := tfree (beds.map fun e => (e.1, ())) 0
  let rel := beds.filter fun e => decide (e.2.st = .released)
  (minBy (fun e => e.2.pe) (if fresh < p.beds then rel ++ [(fresh, newBed)] else rel)).map (·.1)

/-- Are erases of rescue beds outstanding? They go before any other background erase (R236). -/
def rescueErasing (d : Dev) : Bool := (rescueRows d).any fun e => e.2.pos.any fun p => d.med.toErase.contains p

/-- Keep two Erased beds in stock on each die (notes/assumptions/21.md). -/
def stockErases (d : Dev) : Dev :=
  if rescueErasing d then d else
    forAll d.alm.dies (fun e d =>
      if e.2.included ∧ !dieFailed d e.1 ∧ idleBg d e.1 ∧ ((listedBeds d e.1).filter fun b => decide (b.2.st = .erased)).length < 2 then
        (match stockBed d e.1 (theProfile e.2.profile) with | some b => queueErase e.1 b 7 d | none => d)
      else d) d

/-! #### Transplants -/

/-- A worn die's sealed beds are moved away (R257). -/
def wornBeds (d : Dev) : Dev :=
  forAll (d.alm.dies.filter fun e => e.2.worn && !dieFailed d e.1) (fun e d =>
    forAll (listedBeds d e.1) (fun b d => if b.2.st = .isSealed then queueXpl b.2.row b.2.pos 3 false d else d) d) d

/-- Change a transplant, and a rebuild. -/
def onXpl (key : Nat) (f : Xpl → Xpl) (d : Dev) : Dev := { d with med := { d.med with xpls := tmod d.med.xpls key f } }
def onRebuild (key : Nat) (f : Rebuild → Rebuild) (d : Dev) : Dev := { d with med := { d.med with rebuilds := tmod d.med.rebuilds key f } }

/-- Start the transplants that may run: hard ones in any slot, others in a background slot of their die (R248, R252). The pages of the old bed are read; without a fresh bed it waits for the next
weeding pass (R185). -/
def startXpls (d : Dev) : Dev :=
  forAll (d.med.xpls.filter fun e => !e.2.running && !e.2.waiting) (fun e d => match rowAt d (e.1 / 32) with
    | none => { d with med := { d.med with xpls := tdel d.med.xpls e.1 } }
    | some r =>
      let row := e.1 / 32
      let pos := e.1 % 32
      if r.st ≠ .isSealed ∨ d.med.oldRows.contains row ∨ !(e.2.hard || bgNow d (r.dieBed pos).1) then d
      else match freshBed row r pos d with
        | none => onXpl e.1 (fun x => { x with waiting := true }) d
        | some (die, bed, d) =>
          let pages := (pagesToCopy d row pos r).flatMap fun s => (List.range (theProfile r.profile).planes).map fun q => (s, pos, q)
          queueReads (.xpl e.1) row pages (onXpl e.1 (fun x => { x with running := true, writing := false, die := die, bed := bed }) d)) d

/-- Has a fresh bed nothing left to come: its pages are read, and it is erased? -/
def readyToWrite (d : Dev) (w : Work) (die bed : Nat) : Bool := decide (owed d w = 0) && !d.med.toErase.contains (die, bed) && !dieFailed d die

/-- Transplants whose pages are read: the fresh bed is programmed. -/
def writeXpls (d : Dev) : Dev :=
  forAll (d.med.xpls.filter fun e => e.2.running && !e.2.writing && readyToWrite d (.xpl e.1) e.2.die e.2.bed) (fun e d => match rowAt d (e.1 / 32) with
    | none => d
    | some r => queueFresh (.xpl e.1) (e.1 / 32) (e.1 % 32) e.2.die e.2.bed (pagesToCopy d (e.1 / 32) (e.1 % 32) r)
        (onXpl e.1 (fun x => { x with writing := true }) (copyPages (e.1 / 32) (e.1 % 32) e.2.die e.2.bed [] d))) d

/-! #### Rebuilds (R275-R277) -/

/-- The failed unit a position belongs to: its link group, its link, else its die; and how many rebuilds run for it. -/
def failedUnit (d : Dev) (die : Nat) : Nat × Nat :=
  if d.med.failedLg.contains (lgOf die) then (2, lgOf die) else if (linkAt d (linkOf die)).failing ≠ 0 then (1, linkOf die) else (0, die)
def rebuildsOf (d : Dev) (u : Nat × Nat) : Nat :=
  tcount d.med.rebuilds fun k b => b.running && (match rowAt d (k / 32) with | some r => decide (failedUnit d (r.dieBed (k % 32)).1 = u) | none => false)

/-- ROW_REBUILD: ROWS, WEED_PCT. -/
def rebuildMax (d : Dev) : Nat := zeroAsOne (fld (rd d 0x40200) 0 6)
def weedPct (d : Dev) : Nat := min 50 (fld (rd d 0x40200) 8 6)

/-- Failed members of a row. -/
def failedMembers (d : Dev) (row : Nat) (r : Row) : Nat := (r.pos.zipIdx.filter fun e => memberDead d row e.2 e.1.1).length
/-- No redundancy left (R276). -/
def critical (d : Dev) (row : Nat) (r : Row) : Bool := decide ((if r.durable then 2 else 1) ≤ failedMembers d row r)
/-- Order of a row's rebuild: its class, then system, bound and other rows, then its id (R276). -/
def rebuildRank (d : Dev) (row : Nat) (r : Row) : List Nat :=
  [if r.openNow then 1 else if critical d row r then 2 else 3, if r.kind = 2 then 0 else if r.bset.isSome then 1 else 2, row]
/-- Data capacity of a row. -/
def rowCap (r : Row) : Nat := r.k * (theProfile r.profile).bedBlocks
/-- Is a row weeded in place of rebuilding (R276)? -/
def weedInstead (d : Dev) (r : Row) : Bool := decide (r.st = .isSealed) && decide (r.kind ≠ 2) && decide (100 * r.valid < weedPct d * rowCap r)

def sortedRebuilds (d : Dev) : List (Nat × Rebuild) :=
  sortBy (fun a b => match rowAt d (a.1 / 32), rowAt d (b.1 / 32) with
    | some x, some y => lexLt (rebuildRank d (a.1 / 32) x ++ [a.1 % 32]) (rebuildRank d (b.1 / 32) y ++ [b.1 % 32])
    | _, _ => false) d.med.rebuilds

/-- The members that the rebuild of a page reads: the fewest that R268 needs, data first and P before Q; of an incomplete stripe those on flash, for HBM has the rest (R269, R277). -/
def rebuildFrom (d : Dev) (row : Nat) (r : Row) (s pos : Nat) : List Nat :=
  let live := (List.range r.n).filter fun i => decide (i ≠ pos) && !memberDead d row i (r.dieBed i).1 && pageOnFlash d row s i
  let byRole := sortBy (fun a b => decide (roleAt r.n a s < roleAt r.n b s)) live
  if thas d.med.stripes (skey row s) then byRole else byRole.take r.k

/-- Start the rebuilds that may run; a row for which there is no link group stays degraded, and is tried again when a link group returns or beds are freed (R275). -/
def startRebuilds (d : Dev) : Dev :=
  forAll ((sortedRebuilds d).filter fun e => !e.2.running && !e.2.waiting) (fun e d => match rowAt d (e.1 / 32) with
    | none => { d with med := { d.med with rebuilds := tdel d.med.rebuilds e.1 } }
    | some r =>
      let row := e.1 / 32
      if weedInstead d r ∨ d.med.oldRows.contains row ∨ rebuildMax d ≤ rebuildsOf d (failedUnit d (r.dieBed (e.1 % 32)).1) then d
      else match freshBed row r (e.1 % 32) d with
        | some (die, bed, d) =>
          let pages := (pagesToCopy d row (e.1 % 32) r).flatMap fun s => (rebuildFrom d row r s (e.1 % 32)).flatMap fun i => (List.range (theProfile r.profile).planes).map fun q => (s, i, q)
          queueReads (.rebuild e.1) row pages { d with med := { d.med with
            rebuilds := tset d.med.rebuilds e.1 { running := true, die := die, bed := bed }
            noGroup := d.med.noGroup.filter fun x => decide (x ≠ row) } }
        | none =>
          let d := onRebuild e.1 (fun b => { b with waiting := true }) d
          if d.med.noGroup.contains row then d
            else raise .rebuildNoGroup [row] { d with med := { d.med with noGroup := d.med.noGroup ++ [row] } }) d

/-- Rebuilds whose members are read: the replacement is programmed in stripe order (R277, R278). -/
def writeRebuilds (d : Dev) : Dev :=
  forAll (d.med.rebuilds.filter fun e => e.2.running && !e.2.writing && readyToWrite d (.rebuild e.1) e.2.die e.2.bed) (fun e d => match rowAt d (e.1 / 32) with
    | none => d
    | some r => queueFresh (.rebuild e.1) (e.1 / 32) (e.1 % 32) e.2.die e.2.bed (pagesToCopy d (e.1 / 32) (e.1 % 32) r)
        (onRebuild e.1 (fun b => { b with writing := true }) (copyPages (e.1 / 32) (e.1 % 32) e.2.die e.2.bed [] d))) d

/-! #### Weeding (R242-R245, R258) -/

/-- A row on which other background work runs (R242, R283). A queued transplant does not stand in the way: it is dropped (R247). -/
def rowBusy (d : Dev) (row : Nat) : Bool :=
  (d.med.xpls.any fun e => decide (e.1 / 32 = row) && e.2.running) || (d.med.rebuilds.any fun e => decide (e.1 / 32 = row) && e.2.running) ||
  (d.med.copies.any fun e => decide (e.2.src = row))
/-- Zones whose share lies in a row. -/
def zonesIn (d : Dev) (row : Nat) : Tbl Zone := tfilter d.maps.zones fun _ z => decide (z.row = some row)
/-- A weeding candidate (R242). -/
def weedable (d : Dev) (row : Nat) (r : Row) : Bool :=
  decide (r.kind ≠ 2) && decide (r.st = .isSealed) && !rowBusy d row && decide (0 < r.valid) && !d.med.oldRows.contains row &&
  !(decide (d.med.patrolRow = row) && decide (0 < d.med.patrolFrom)) &&
  (decide (r.kind = 1) || decide (r.claimed % 2 ^ slotsOf r.mc = 2 ^ slotsOf r.mc - 1)) && (zonesIn d row).all fun e => !e.2.st.active

/-- Weeding's choice: fewest valid blocks, then the highest age weight, then the lower id (R243). -/
def weedChoice (d : Dev) : Option (Nat × Row) :=
  let age := fun (r : Row) => (opHours d - r.sealHour) * (8 - r.life)
  (sortBy (fun a b => decide (a.2.valid < b.2.valid) || (decide (a.2.valid = b.2.valid) && decide (age b.2 < age a.2)))
    (d.maps.rows.filter fun e => weedable d e.1 e.2)).head?

/-- Mean P/E of a row's beds. -/
def rowPe (d : Dev) (r : Row) : Nat := sumL (r.pos.map fun p => (bedOf d p.1 p.2).pe) / zeroAsOne r.pos.length

/-- Static levelling's choice (R258): long-lived rows of the profile on the least worn beds, the oldest first. -/
def levelChoice (d : Dev) : Option (Nat × Row) :=
  (sortBy (fun a b => decide (rowPe d a.2 < rowPe d b.2) || (decide (rowPe d a.2 = rowPe d b.2) && decide (a.2.sealHour < b.2.sealHour)))
    (d.maps.rows.filter fun e => weedable d e.1 e.2 && decide (4 ≤ e.2.life) && d.med.levelling.contains e.2.profile)).head?

/-- A row that is weeded in place of rebuilding. -/
def rescueChoice (d : Dev) : Option (Nat × Row) := d.maps.rows.find? fun e =>
  (d.med.rebuilds.any fun x => decide (x.1 / 32 = e.1)) && weedInstead d e.2 && weedable d e.1 e.2

/-- MED_WEED.START. -/
def weedStart (d : Dev) : Nat := max 8 (fld (rd d 0x40044) 0 8)

/-- Profiles with an included die. -/
def profilesHere (d : Dev) : List Nat := [1, 2].filter fun p => d.alm.dies.any fun e => e.2.included && decide (e.2.profile = p)

/-- Which profiles weeding runs for (R244). -/
def weedMargins (d : Dev) : Dev :=
  let next := (profilesHere d).filter fun p =>
    let f := freeRows d p (profileSize d p)
    let r := reserveRows d p + weedStart d
    decide (f < r) || (d.med.weeding.contains p && decide (f < r + 8))
  { d with med := { d.med with weeding := next } }

/-- A row share for a moved zone, below the reserve (R239): a slot of an open row of the plot other than the source, or a new row. -/
def moveShare (w : Want) (src : Nat) (d : Dev) : Option (Nat × Nat × Dev) := match (joinRow d w).filter fun e => decide (e.1 ≠ src) with
  | some (row, r) => (freeSlot r).map fun s => (row, s, claim row s d)
  | none => (buildRow w d).map fun x => (x.1, 0, claim x.1 0 x.2)

/-- Erase a new destination's beds that need it; erases of rescue beds go first (R236). -/
def eraseDest (row : Nat) (d : Dev) : Dev := if rescueErasing d then d else match rowAt d row with
  | some r => forAll r.pos (fun p d => if d.med.toErase.contains p then queueErase p.1 p.2 7 d else d) d
  | none => d

/-- What a moved zone's destination is wanted for: the source row's class of data, in the plot's geometry or its graft's (R245, R288). -/
def moveWant (d : Dev) (plot : Nat) (p : Plot) (r : Row) : Want :=
  { shareWant d plot p 0 with life := r.life, colo := r.colo, stream := r.stream }

/-- Begin the copy of a zone: key plot x 2^32 + zone. -/
def beginCopy (plot : Nat) (p : Plot) (zone : Nat) (z : Zone) (src : Nat) (r : Row) (kind : Nat) (d : Dev) : Option Dev :=
  (moveShare (moveWant d plot p r) src d).map fun x =>
    let d := eraseDest x.1 x.2.2
    queueReads (.copy (zkey plot zone)) src (slotPages d src z.slot z.wp)
      { d with med := { d.med with copies := tset d.med.copies (zkey plot zone) { plot := plot, zone := zone, src := src, dst := x.1, slot := x.2.1, wp := z.wp, st := z.st, kind := kind } } }

/-- The region's weeding destination, built where there is none; its lifetime class is the highest of what lies in it (R243). -/
def regionDest (plot : Nat) (p : Plot) (r : Row) (d : Dev) : Option (Nat × Dev) :=
  let w := { moveWant d plot p r with k := 16, mc := 0, kind := 1, role := 1 }
  match weedDest d plot w.durable with
  | some e => some (e.1, if e.2.life < r.life then record (.row e.1 (some { e.2 with life := r.life })) d else d)
  | none => (buildRow w d).map fun x =>
    let slot := tfree ((x.2.maps.rslots.filter fun e => decide (e.1 / 16384 = plot)).map fun e => (e.1 % 16384, ())) 0
    (x.1, eraseDest x.1 (record (.rslot (plot * 16384 + slot) (some x.1)) x.2))

/-- The next stripe's worth of a region row's valid blocks, lowest LBAs first; with none left, or no stripe left in the destination, the copy is over. -/
def regionNext (key : Nat) (c : Copying) (d : Dev) : Dev :=
  let blks := (regionLbas d c.plot c.src).take (zeroAsOne (((rowAt d c.dst).map (·.perStripe)).getD 0))
  let room : Bool := match rowAt d c.dst with | some r => decide (r.given < (theProfile r.profile).pages) | none => false
  if blks = [] ∨ !room then { d with med := { d.med with copies := tdel d.med.copies key } }
  else queueReads (.copy key) c.src (offsetPages d c.src (blks.map (·.2)))
    { d with med := { d.med with copies := tset d.med.copies key { c with blks := blks, writing := false } } }

/-- Begin the copy of a region row's blocks: key plot x 2^32 + 2^31 + row. -/
def beginRegion (plot : Nat) (p : Plot) (src : Nat) (r : Row) (kind : Nat) (d : Dev) : Option Dev :=
  (regionDest plot p r d).map fun x =>
    let c : Copying := { plot := plot, zone := 2 ^ 31 + src, src := src, dst := x.1, slot := 0, wp := 0, st := .full, kind := kind }
    regionNext (zkey plot (2 ^ 31 + src)) c { x.2 with med := { x.2.med with copies := tset x.2.med.copies (zkey plot (2 ^ 31 + src)) { plot := plot, zone := 2 ^ 31 + src, src := src, dst := x.1, slot := 0, wp := 0, st := .full, kind := kind } } }

/-- Transplants of a row are dropped (R247). -/
def dropXpls (row : Nat) (d : Dev) : Dev := forAll ((d.med.xpls.filter fun e => decide (e.1 / 32 = row)).map (·.1)) dropXpl d

/-- Begin a weeding pass on a row (R244, R247): its zones with valid blocks get destinations; without room the pass is tried again at the next slot
(DEDUCED: R185 retries after a weeding pass, and here none runs; notes/assumptions/19.md). -/
def beginPass (row : Nat) (r : Row) (d : Dev) : Dev := match tget d.maps.plots r.plot with
  | none => d
  | some p =>
    let zs := (zonesIn d row).filter fun e => decide (0 < validOf e.2 p)
    let kind := if (tgetD d.maps.grafts r.plot { st := 0, durable := false, k := 0, mc := 0, waitSpace := false }).st = 1 then 1 else 0
    let made := if r.kind = 1 then beginRegion r.plot p row r kind d
      else zs.foldl (fun o e => o.bind fun d => beginCopy r.plot p (e.1 % 2 ^ 32) e.2 row r kind d) (some d)
    match made with
    | none => d
    | some d =>
      let d := dropXpls row { d with med := { d.med with weedRow := some row, weedFrom := d.io.now } }
      record (.row row (some { r with st := .weeding })) d

/-- Start a weeding pass when one is due and none runs. -/
def startWeeding (d : Dev) : Dev :=
  let d := weedMargins d
  if d.med.weedRow.isSome then d else
    let want := match rescueChoice d with
      | some e => some e
      | none => if d.med.weeding ≠ [] then weedChoice d else levelChoice d
    match want with
    | some e => if e.2.pos.any fun p => bgNow d p.1 then beginPass e.1 e.2 d else d
    | none => d

/-! #### Grafts (R288, R289) -/

/-- Does a row have a graft's geometry? A region's graft changes its class only. -/
def newGeometry (p : Plot) (g : Graft) (r : Row) : Bool :=
  decide (r.durable = g.durable) && (p.region || (decide (r.k = g.k) && decide (r.mc = g.mc)))

/-- Zones of a plot still in old rows. -/
def zonesLeft (d : Dev) (plot : Nat) (p : Plot) (g : Graft) : Tbl Zone :=
  tfilter d.maps.zones fun k z => decide (k / 2 ^ 32 = plot) && (match z.row with
    | some row => (match rowAt d row with | some r => !newGeometry p g r | none => false)
    | none => false)
/-- Old rows of a plot. -/
def oldRowsOf (d : Dev) (plot : Nat) (p : Plot) (g : Graft) : Tbl Row :=
  tfilter d.maps.rows fun _ r => decide (r.kind ≠ 2) && decide (r.plot = plot) && !newGeometry p g r
/-- What a graft still has to move: zones, or rows of a region with valid blocks. -/
def graftLeft (d : Dev) (plot : Nat) (p : Plot) (g : Graft) : Nat :=
  if p.region then ((oldRowsOf d plot p g).filter fun e => decide (0 < e.2.valid)).length else (zonesLeft d plot p g).length

/-- The end of a draining graft: its old rows are freed (R288). -/
def graftDone (plot : Nat) (d : Dev) : Dev := match tget d.maps.grafts plot, tget d.maps.plots plot with
  | some g, some p => if g.st = 2 ∧ oldRowsOf d plot p g = [] then raise .graftDone [plot] (record (.graft plot none 0) d) else d
  | _, _ => d

/-- Switch-over: no zone is left in an old row; the plot has its new class, k and m, and the old rows are given up (R288). -/
def switchOver (plot : Nat) (d : Dev) : Dev := match tget d.maps.grafts plot, tget d.maps.plots plot with
  | some g, some p =>
    if g.st = 1 ∧ graftLeft d plot p g = 0 ∧ !(d.med.copies.any fun e => decide (e.2.plot = plot)) then
      let d := record (.plot plot (some { p with durable := g.durable, k := if p.region then p.k else g.k, mc := if p.region then p.mc else g.mc }) 2) d
      let d := record (.graft plot (some { g with st := 2, waitSpace := false }) 2) d
      graftDone plot (forAll (oldRowsOf d plot p g) (fun e => condemn e.1) d)
    else d
  | _, _ => d

/-- What a graft copies next: a Full, Closed or Read-Only zone in an old row that no pass is moving, or an old row of a region; key and source. -/
def graftNext (d : Dev) (plot : Nat) (p : Plot) (g : Graft) : Option (Nat × Nat) :=
  if p.region then ((oldRowsOf d plot p g).find? fun e => decide (0 < e.2.valid) && decide (e.2.st = .isSealed) && !rowBusy d e.1).map fun e => (2 ^ 31 + e.1, e.1)
  else ((zonesLeft d plot p g).find? fun e => (decide (e.2.st = .full) || decide (e.2.st = .closed) || decide (e.2.st = .readOnly) || decide (e.2.st = .offline)) &&
    (match e.2.row with | some row => decide (d.med.weedRow ≠ some row) | none => false)).map fun e => (e.1 % 2 ^ 32, e.2.row.getD 0)

/-- The graft's wait for space, shown in ROW_GRAFT_STAT. -/
def graftWait (plot : Nat) (g : Graft) (w : Bool) (d : Dev) : Dev := if g.waitSpace = w then d else record (.graft plot (some { g with waitSpace := w }) g.st) d

/-- Start a copy for each graft that has none, and complete grafts with nothing left to move. One that waits for space is tried again after a weeding pass (R185, R288). -/
def startGrafts (d : Dev) : Dev :=
  forAll d.maps.grafts (fun e d => match tget d.maps.plots e.1 with
    | none => d
    | some p =>
      if e.2.st ≠ 1 ∨ (d.med.copies.any fun c => decide (c.2.plot = e.1)) = true ∨ (e.2.waitSpace ∧ !d.med.retryGrafts.contains e.1) then d
      else match graftNext d e.1 p e.2 with
      | none => switchOver e.1 d
      | some (z, src) => match rowAt d src with
        | none => d
        | some r =>
          if !r.pos.any (fun x => bgNow d x.1) then d else
          let d := { d with med := { d.med with retryGrafts := d.med.retryGrafts.filter fun x => decide (x ≠ e.1) } }
          let made := if p.region then beginRegion e.1 p src r 1 d else beginCopy e.1 p z (zoneOf d e.1 z) src r 1 d
          match made with
          | some d => graftWait e.1 e.2 false d
          | none => graftWait e.1 e.2 true d) d

/-! #### The slot -/

/-- Are a row's beds erased and ready to be written? -/
def rowReady (d : Dev) (row : Nat) : Bool := match rowAt d row with
  | some r => !(r.pos.any fun p => d.med.toErase.contains p)
  | none => false

/-- A copy whose pages are read is laid into its destination, and the pages of its stripes are programmed. -/
def writeCopy (key : Nat) (c : Copying) (d : Dev) : Dev := match tget d.maps.plots c.plot, rowAt d c.dst with
  | some p, some r =>
    let c' := if p.region then { c with writing := true, slot := (r.assigned.getD 0 []).length } else { c with writing := true }
    let d := { d with med := { d.med with copies := tset d.med.copies key c' } }
    if p.region then
      let d := layRegion c' [] d
      let d := onRow c.dst (fun r => { r with filled := r.given * r.perStripe }) d
      queueStripe (.copy key) c.dst ((r.stripeOf 0 c'.slot).getD r.given) r.n d
    else
      let d := layZone c p [] d
      forAll (((rowAt d c.dst).map fun r => (r.assigned.getD c.slot []).take (copyStripes c r)).getD []) (fun s => queueStripe (.copy key) c.dst s r.n) d
  | _, _ => d

/-- Copies that go on: a destination that is not erased yet is erased; one whose pages are read is written. -/
def writeCopies (d : Dev) : Dev :=
  forAll (d.med.copies.filter fun e => !e.2.writing && decide (owed d (.copy e.1) = 0)) (fun e d => if rowReady d e.2.dst then writeCopy e.1 e.2 d else eraseDest e.2.dst d) d

/-- All background work a slot may start or carry on. -/
def startBackground (d : Dev) : Dev := stockErases (startGrafts (startWeeding (startRebuilds (startXpls (wornBeds (writeCopies (writeRebuilds (writeXpls d))))))))

/-! ### Switches -/

/-- Is a copy on flash? -/
def copied (d : Dev) (key : Nat) (c : Copying) : Bool := c.writing && decide (owed d (.copy key) = 0) && rowReady d c.dst

/-- A weeding pass is over: the row has no valid blocks; it is counted, with the time it took (R240, R242). Work that waited for a bed or row is tried again (R185). -/
def passDone (row : Nat) (r : Row) (d : Dev) : Dev :=
  let us := (d.io.now - d.med.weedFrom) / 1000
  condemn row { d with med := { d.med with
    xpls := tmap d.med.xpls fun _ x => { x with waiting := false }
    retryGrafts := (d.maps.grafts.filter fun e => e.2.waitSpace).map (·.1)
    weedRow := none, weedCnt := satInc 32 d.med.weedCnt
    trow := tset d.med.trow r.profile ((us :: tgetD d.med.trow r.profile []).take 10) } }

/-- Has a weeding pass moved everything? -/
def endPass (d : Dev) : Dev := match d.med.weedRow with
  | none => d
  | some row => match rowAt d row with
    | none => { d with med := { d.med with weedRow := none } }
    | some r => if (d.med.copies.any fun e => decide (e.2.src = row)) = true then d else passDone row r d

/-- Carry a copy out: a zone's switch, or one stripe's worth of a region row, after which the next is read. -/
def doCopy (key : Nat) (c : Copying) (bad : List Nat) (d : Dev) : Dev := match tget d.maps.plots c.plot with
  | none => d
  | some p =>
    if p.region then
      let x := switchRegion c bad d
      regionNext key c { x.2 with med := { x.2.med with weedBlk := x.2.med.weedBlk + x.1 } }
    else
      let n := validOf (zoneOf d c.plot c.zone) p
      let d := switchZone c p bad { d with med := { d.med with weedBlk := d.med.weedBlk + n, copies := tdel d.med.copies key } }
      d

/-- WEED_SWITCH: the first move of the pass that is on flash takes effect (R246). bad: codewords of the source row that cannot be decoded. -/
def weedSwitch (bad : List Nat) (d : Dev) : Dev := match d.med.weedRow with
  | none => d
  | some row => match tfind d.med.copies fun k c => decide (c.src = row) && copied d k c with
    | none => endPass d
    | some (k, c) => switchOver c.plot (endPass (doCopy k c bad d))

/-- WEED_SWITCH. -/
def execWeedSwitch (bad : List Nat) (t : Nat) (s : State) : Host.Outcome State Fault Refusal :=
  s.on fun d => onlyIf (mainUp d) (fun d => pumpAll (weedSwitch bad d)) (tick t d)

/-- GRAFT_ZONE_SWITCH: applied only if the zone is as it was when the copy began, else discarded (R289). For a region, zone is 2^31 + the old row. -/
def graftSwitch (key : Nat) (c : Copying) (bad : List Nat) (d : Dev) : Dev :=
  if !copied d key c then d
  else if c.zone < 2 ^ 31 ∧ ((zoneOf d c.plot c.zone).wp ≠ c.wp ∨ (zoneOf d c.plot c.zone).st ≠ c.st) then dropCopy c.plot c.zone d
  else switchOver c.plot (doCopy key c bad d)

/-- GRAFT_ZONE_SWITCH. -/
def execGraftZoneSwitch (plot zone : Nat) (bad : List Nat) (t : Nat) (s : State) : Host.Outcome State Fault Refusal :=
  s.on fun d => withSome (tget d.med.copies (zkey plot zone)) (fun c => onlyIf (mainUp d && decide (d.med.weedRow ≠ some c.src)) fun d =>
    pumpAll (graftSwitch (zkey plot zone) c bad d)) (tick t d)

/-- TRANSPLANT_SWITCH (R252): the fresh bed holds the pages, its senses and programs done; one record puts it in the row, and the old bed leaves once its reads drain. -/
def transplantSwitch (row pos : Nat) (x : Xpl) (r : Row) (bad : List Nat) (d : Dev) : Dev :=
  let old := r.dieBed pos
  let sus := decide ((bedOf d old.1 old.2).st = .suspect)
  let d := copyPages row pos x.die x.bed bad (siblingSenses row bad d)
  let d := installBed row pos x.die x.bed (endXpl (pkey row pos) (holdPos row pos (some old) d))
  let d := if thas d.maps.fixes (bkey old.1 old.2) then record (.fix (bkey old.1 old.2) []) d else d
  oldBed row old.1 old.2 1 (if sus then .retired else .released)
    { d with med := { d.med with
      xplCnt := ((d.med.xplCnt ++ List.replicate (5 - d.med.xplCnt.length) 0).modify x.cause (satInc 32)) } }

/-- TRANSPLANT_SWITCH. bad: codewords that fail hard and soft decode during the copy. -/
def execTransplantSwitch (row pos : Nat) (bad : List Nat) (t : Nat) (s : State) : Host.Outcome State Fault Refusal :=
  s.on fun d => withSome (tget d.med.xpls (pkey row pos)) (fun x d => withSome (rowAt d row) (fun r =>
    onlyIf (mainUp d && decide (pos < r.n) && x.running && x.writing && readyToWrite d (.xpl (pkey row pos)) x.die x.bed) fun d =>
      pumpAll (transplantSwitch row pos x r bad d)) d) (tick t d)

/-- Programs of an open row's replaced position that waited (R278): pages whose blocks are all placed and that are not programmed. -/
def resumePrograms (row pos : Nat) (d : Dev) : Dev := match rowAt d row with
  | none => d
  | some r =>
    let p := theProfile r.profile
    forAll (d.med.stripes.filter fun e => decide (e.1 / 65536 = row)) (fun e d =>
      let j := roleAt r.n pos (e.1 % 65536)
      let full := if j < r.k then decide (blockOf p r.k j (p.planes - 1) (p.w - 1) < e.2.blocks.length) else decide (e.2.blocks.length = r.perStripe)
      if full ∧ !e.2.progd.contains pos then queueProgram row (e.1 % 65536) pos d else d) d

/-- REBUILD_REPLACE (R279): every stripe of the position has been rebuilt onto the replacement; one record installs it. Reads fetched before still rebuild the position. -/
def rebuildReplace (row pos : Nat) (b : Rebuild) (r : Row) (bad : List Nat) (d : Dev) : Dev :=
  let old := r.dieBed pos
  let d := copyPages row pos b.die b.bed bad (siblingSenses row bad d)
  let d := holdPos row pos none d
  let d := installBed row pos b.die b.bed { d with med := { d.med with rebuilds := tdel d.med.rebuilds (pkey row pos), rebuilt := satInc 32 d.med.rebuilt } }
  let d := if (bedOf d old.1 old.2).st = .retired then d else oldBed row old.1 old.2 1 .released d
  -- codewords that needed soft decode queue the transplants of their beds, after the rebuild (R280)
  forAll ((bad.map (· / 2 ^ 20)).eraseDups.filter fun i => decide (i < r.n)) (fun i => queueXpl row i 1 true) (resumePrograms row pos d)

/-- REBUILD_REPLACE. bad: codewords of surviving members that fail hard and soft decode (R280). -/
def execRebuildReplace (row pos : Nat) (bad : List Nat) (t : Nat) (s : State) : Host.Outcome State Fault Refusal :=
  s.on fun d => withSome (tget d.med.rebuilds (pkey row pos)) (fun b d => withSome (rowAt d row) (fun r =>
    onlyIf (mainUp d && decide (pos < r.n) && b.running && b.writing && readyToWrite d (.rebuild (pkey row pos)) b.die b.bed) fun d =>
      pumpAll (rebuildReplace row pos b r bad d)) d) (tick t d)

/-! ### Freeing (R226, R242, R246, R252, R274, R279) -/

/-- Does a read still hold a row, one not begun that was fetched before a move among them (R246)? -/
def readsHold (d : Dev) (row : Nat) : Bool := (d.alm.jobs.any fun e => decide (e.2.row = row)) || d.qm.cmds.any fun e => e.2.held.any fun h => decide (h.2.1 = row)

/-- May a bed of a die that failed be freed: the die is in service again, and every position it held has been rebuilt elsewhere (R274)? -/
def dieFreed (d : Dev) (die : Nat) : Bool :=
  !dieFailed d die && !(d.med.rebuilds.any fun e => match rowAt d (e.1 / 32) with | some r => decide ((r.dieBed (e.1 % 32)).1 = die) | none => false)

/-- A bed leaves service in a row: Released or Retired, the row reference cleared. -/
def freeBed (o : OldBed) (d : Dev) : Dev :=
  let d := if thas d.maps.fixes (bkey o.die o.bed) then record (.fix (bkey o.die o.bed) []) d else d
  if o.next = .retired then retireBed o.die o.bed o.cause d
  else putBed o.die o.bed (fun b => { b with st := .released, slc := false, row := 0, pos := 0 }) (clearFlash o.die o.bed d)

/-- Free the old beds of a row that may be freed; others stay listed. -/
def freeOld (row : Nat) (d : Dev) : Dev :=
  let go := d.med.old.filter fun o => decide (o.row = row) && dieFreed d o.die
  let d := forAll go freeBed { d with med := { d.med with old := d.med.old.filter fun o => !go.contains o } }
  if go = [] then d else retryRebuilds d

/-- A rebuild is given up with its row. -/
def dropRebuild (key : Nat) (d : Dev) : Dev := match tget d.med.rebuilds key with
  | some b =>
    let d := dropWork (.rebuild key) { d with med := { d.med with rebuilds := tdel d.med.rebuilds key } }
    if b.running then dropFresh b.die b.bed d else d
  | none => d

/-- Free an old row: its beds are Released, a Suspect one retired; its entries go (R242, R282), and its bound set with the last row on it (R190). -/
def freeRow (row : Nat) (r : Row) (d : Dev) : Dev :=
  let d := forAll ((d.med.rebuilds.filter fun e => decide (e.1 / 32 = row)).map (·.1)) dropRebuild (dropXpls row d)
  let d := forAll r.pos (fun p d =>
    let b := bedOf d p.1 p.2
    if b.st = .retired then d else oldBed row p.1 p.2 1 (if b.st = .suspect then .retired else .released) d) d
  let d := forAll ((d.maps.lost.filter fun e => decide (e.1 / 65536 = row)).map (·.1)) (fun k => record (.lost k [])) d
  let d := forAll ((d.maps.spills.filter fun e => decide (e.1 / 65536 = row)).map (·.1)) (fun k => record (.spill k none 0)) d
  let d := forAll ((d.maps.rslots.filter fun e => decide (e.2 = row)).map (·.1)) (fun k => record (.rslot k none)) d
  let d := record (.row row none) d
  let d := { d with
    med := { d.med with
      oldRows := d.med.oldRows.filter fun x => decide (x ≠ row)
      noGroup := d.med.noGroup.filter fun x => decide (x ≠ row)
      stripes := tfilter d.med.stripes fun k _ => decide (k / 65536 ≠ row) }
    alm := { d.alm with
      ops := tfilter d.alm.ops fun _ o => o.sent || decide (o.kind = .erase) || decide (o.row ≠ row)
      bsets := match r.bset with
        | some i => if d.maps.rows.any fun e => decide (e.2.bset = some i) then d.alm.bsets else tdel d.alm.bsets i
        | none => d.alm.bsets } }
  freeOld row d

/-- ROW_READS_DRAINED: no read holds the row; the row, or the beds that left it, are freed. Then a graft that waited for its old rows is done. -/
def rowReadsDrained (row : Nat) (d : Dev) : Dev := match d.med.oldRows.contains row, rowAt d row with
  | true, some r => rescueDrain (graftDone r.plot (freeRow row r d))
  | true, none => freeOld row { d with med := { d.med with oldRows := d.med.oldRows.filter fun x => decide (x ≠ row) } }
  | false, _ => freeOld row d

/-- ROW_READS_DRAINED. -/
def execRowReadsDrained (row t : Nat) (s : State) : Host.Outcome State Fault Refusal :=
  s.on fun d => onlyIf (mainUp d && !readsHold d row && (d.med.oldRows.contains row || d.med.old.any fun o => decide (o.row = row))) (rowReadsDrained row) (tick t d)

end Sys2Proof.Machine
end

