-- ==== Sys2Proof/Machine/Patrol.lean ====
section
/-!
DEFINITION. Patrol (spec/08_rows_and_parity.md R283-R286) and the hourly work of media management (spec/07_media_management.md R251, R258, R259).
-/

namespace Sys2Proof.Machine

/-! ### Patrol -/

/-- ROW_PATROL: DAYS, EN. -/
def patrolDays (d : Dev) : Nat := clampN 1 90 (fld (rd d 0x40204) 0 7)
def patrolOn (d : Dev) : Bool := bit (rd d 0x40204) 8

def dayNs : Nat := 86400000000000

/-- A row that a patrol pass may visit now: a sealed zoned, region or checkpoint row without other work on it or due (R283). -/
def patrollable (d : Dev) (row : Nat) (r : Row) : Bool :=
  decide (r.st = .isSealed) && (decide (r.kind ≠ 2) || decide (r.role = 1)) && !rowBusy d row && !d.med.oldRows.contains row &&
  !(d.med.xpls.any fun e => decide (e.1 / 32 = row)) && !(d.med.rebuilds.any fun e => decide (e.1 / 32 = row))

/-- The row of the pass: in row-id order from the present one, rows passed over later in the period. -/
def patrolNext (d : Dev) : Option Nat :=
  let rows := (d.maps.rows.filter fun e => patrollable d e.1 e.2 && !d.med.patrolDone.contains e.1).map (·.1)
  match rows.find? fun i => decide (d.med.patrolRow ≤ i) with
  | some i => some i
  | none => rows.head?

/-- A new period begins when the last one ends. -/
def patrolPeriod (t : Nat) (d : Dev) : Dev :=
  if d.med.patrolAt + patrolDays d * dayNs ≤ t then { d with med := { d.med with patrolAt := t, patrolDone := [], patrolRow := 0, patrolFrom := 0, patAcc := [], patrolRead := false } } else d

/-- Settle on the pass of a row: another row than the present one starts at its first stripe. -/
def patrolTake (row : Nat) (d : Dev) : Dev :=
  if d.med.patrolRow = row then d else dropWork (.patrol d.med.patrolRow) { d with med := { d.med with patrolRow := row, patrolFrom := 0, patAcc := [], patrolRead := false } }

/-- The reads of the next stripe of the pass, in background slots: every member's page of each plane (R201, R283, R284). -/
def startPatrol (t : Nat) (d : Dev) : Dev :=
  let d := patrolPeriod t d
  if !patrolOn d then d else match patrolNext d with
  | none => d
  | some row =>
    let d := patrolTake row d
    if d.med.patrolRead then d else match rowAt d row with
    | none => d
    | some r => queueReads (.patrol row) row ((List.range r.n).flatMap fun pos => (List.range (theProfile r.profile).planes).map fun q => (d.med.patrolFrom, pos, q))
        { d with med := { d.med with patrolRead := true } }

/-- Corrected bits of a member's codewords in a stripe, added to the pass: sum, codewords, codewords above the threshold. -/
def addBits (ew : Nat) (acc : Nat × Nat × Nat) (l : List Nat) : Nat × Nat × Nat :=
  (acc.1 + sumL l, acc.2.1 + l.length, acc.2.2 + (l.filter fun b => decide (ew < b)).length)

/-- A located codeword (R285): recorded, entered in the correction list, a transplant queued under cause 4. -/
def located (row : Nat) (r : Row) (s q c pos : Nat) (d : Dev) : Dev :=
  let p := r.dieBed pos
  if isFixed d p.1 p.2 s q c ∨ memberDead d row pos p.1 then d else
    let d := raise .patrolFix [p.1, p.2, s, 4 * q + c] { d with med := { d.med with patrolFix := satInc 32 d.med.patrolFix } }
    let d := record (.fix (bkey p.1 p.2) (tgetD d.maps.fixes (bkey p.1 p.2) [] ++ [fixKey s q c])) d
    queueXpl row pos 4 true d

/-- One column's findings (R284): bad are the data blocks whose guard fails, by position; sp and sq say whether the syndromes are not zero. -/
def patrolColumn (row : Nat) (r : Row) (s q c : Nat) (bad : List Nat) (sp sq : Bool) (d : Dev) : Dev :=
  let p := theProfile r.profile
  let data := bad.filter fun pos => decide (pos < r.n) && decide (roleAt r.n pos s < r.k)
  let blockAt := fun pos => blockOf p r.k (roleAt r.n pos s) q c
  match data with
  | [] =>
    let d := if sp then located row r s q c (posOfRole r.n r.k s) d else d
    if sq ∧ r.durable then located row r s q c (posOfRole r.n (r.k + 1) s) d else d
  | _ =>
    let skip := data.map fun pos => cwKey pos s q c
    let can := decide (data.length ≤ (if r.durable then 2 else 1))
    forAll data (fun pos d =>
      let v := if can then rebuildRole r.k (columnOf d row r skip s q c) (roleAt r.n pos s) else none
      -- a rebuilt block that fails its guard is lost; its plot and LBA are its own
      if blankColumn d r s q c then located row r s q c pos d
      else match v with
      | some v => if guardOk v (pPlot v) (pLba v) ∧ pPlot v = r.plot then located row r s q c pos d else markLost row s [blockAt pos] d
      | none => markLost row s [blockAt pos] d) d

/-- The end of a pass over a row (R248 cause 4, R286): each member's mean corrected bits, in 1/16, its early-warning count cleared, a transplant where more than 1 % of
its codewords were above the threshold. -/
def patrolEnd (row : Nat) (r : Row) (d : Dev) : Dev :=
  let d := forAll r.pos.zipIdx (fun e d =>
    let a := d.med.patAcc.getD e.2 (0, 0, 0)
    let d := noteBed e.1.1 e.1.2 (fun b => { b with mean := min 65535 (16 * a.1 / zeroAsOne a.2.1), ew := 0 }) d
    if a.2.1 < 100 * a.2.2 then queueXpl row e.2 4 true d else d) d
  { d with med := { d.med with patrolDone := d.med.patrolDone ++ [row], patrolRow := row + 1, patrolFrom := 0, patAcc := [] } }

/-- One stripe of a pass, its pages read. The columns of a lost stripe are not checked (R282); a transplant that becomes due abandons the pass (R283). -/
def patrolStripe (row s : Nat) (r : Row) (bits : List (List Nat)) (bad sp sq : List Nat) (d : Dev) : Dev :=
  let p := theProfile r.profile
  let d := { d with med := { d.med with
    patAcc := (List.range r.n).map fun i => addBits p.ew (d.med.patAcc.getD i (0, 0, 0)) (bits.getD i [])
    patrolFrom := s + 1, patrolRead := false } }
  let d := if thas d.maps.lost (skey row s) then d else
    forAll (columns p) (fun e d => patrolColumn row r s e.1 e.2 ((List.range r.n).filter fun pos => bad.contains (16 * pos + 4 * e.1 + e.2))
      (sp.contains (4 * e.1 + e.2)) (sq.contains (4 * e.1 + e.2)) d) d
  if s + 1 = p.pages ∧ d.med.patrolFrom = s + 1 then patrolEnd row r d else d

/-- PATROL_STRIPE: the next stripe of the pass. bits: per position, the corrected bits of its codewords; bad: data codewords whose guard fails, position x 16 + plane
x 4 + codeword; sp, sq: columns, plane x 4 + codeword, whose S_P or S_Q is not zero. -/
def execPatrolStripe (row stripe : Nat) (bits : List (List Nat)) (bad sp sq : List Nat) (t : Nat) (s : State) : Host.Outcome State Fault Refusal :=
  s.on fun d =>
    let e := patrolPeriod t (tick t d)
    withSome (rowAt e row) (fun r _ =>
      onlyIf (mainUp e && patrolOn e && e.clo.ready && decide (patrolNext e = some row) && decide (e.med.patrolRow = row) && decide (e.med.patrolFrom = stripe) &&
          e.med.patrolRead && decide (owed e (.patrol row) = 0))
        (fun e => pumpAll (patrolStripe row stripe r bits bad sp sq e)) e) (tick t d)

/-! ### The slot -/

/-- ALMANAC_SLOT (R192, R201): at each 250 µs boundary it is settled on which dies the slot is for background work; then work is started and chosen. -/
def almanacSlot (t : Nat) (d : Dev) : Dev :=
  let at_ := t / 250000 * 250000
  let d := { d with alm := { d.alm with slotAt := at_, slotRb := [], slotBg := (d.alm.dies.map (·.1)).filter fun die => slotIsBg d (at_ / 250000 % 8) die } }
  pumpAll (rcaCheck none (if d.clo.ready && !setAside d then startPatrol t (startBackground d) else d))

/-- ALMANAC_SLOT. -/
def execAlmanacSlot (t : Nat) (s : State) : Host.Outcome State Fault Refusal :=
  s.on fun d => onlyIf (mainUp d && decide (d.alm.slotAt + 250000 ≤ t)) (almanacSlot t) (tick t d)

/-! ### The hour -/

/-- What an hour adds to an effective-hour counter, 1/16 h (R251): 16 x 2^((T - 40) / 10) for the hourly mean T = sum / n; a power that is not whole is free within its octave. -/
def effStep (sum : Int) (n : Nat) : Nat :=
  if n = 0 then 128
  else
    let e := (sum - 40 * n).toNat
    let lo := 16 * 2 ^ (e / (10 * n))
    if e % (10 * n) = 0 then lo else clampN lo (2 * lo) (Config.pow2Frac (e * 65536 / (10 * n)))

/-- The hottest bridge of a group by its hourly mean; none: no report. -/
def hottest (d : Dev) (g : Nat) : Option HLink :=
  (sortBy (fun a b => decide (b.tempSum * (a.tempN : Int) < a.tempSum * (b.tempN : Int))) (((List.range 8).map fun i => linkAt d (8 * g + i)).filter fun k => decide (0 < k.tempN))).head?

/-- Advance the effective-hour counters, and start the next hour's means. -/
def effHoursTick (d : Dev) : Dev :=
  let d := forAll (List.range (linkGroups d)) (fun g d =>
    let add := match hottest d g with | some k => effStep k.tempSum k.tempN | none => 128
    { d with med := { d.med with effHours := tset d.med.effHours g (effHour d g + add) } }) d
  { d with hl := { d.hl with links := tmap d.hl.links fun _ k => { k with tempSum := 0, tempN := 0 } } }

/-- Retention transplants (R248 cause 2): effective age of a sealed bed, in hours. -/
def retentionCheck (d : Dev) : Dev :=
  if !bit (rd d 0x4004C) 8 then d else
    forAll d.maps.rows (fun e d => if e.2.st ≠ .isSealed ∨ e.2.kind = 2 then d else
      forAll e.2.pos.zipIdx (fun x d =>
        let b := bedOf d x.1.1 x.1.2
        if b.st = .isSealed ∧ (theProfile e.2.profile).retain * 16 ≤ effHour d (lgOf x.1.1) - b.stamp then queueXpl e.1 x.2 2 false d else d) d) d

/-- Included dies of a profile in service. -/
def diesOf (d : Dev) (p : Nat) : List Nat := ((d.alm.dies.filter fun e => e.2.included && decide (e.2.profile = p) && !dieFailed d e.1)).map (·.1)

/-- Mean P/E of a die's beds, and of a profile's, in 1/65536 cycle. -/
def diePe (d : Dev) (die : Nat) : Nat := sumL ((listedBeds d die).map fun e => e.2.pe) * 65536 / zeroAsOne (theProfile (dieProfile d die)).beds
def meanPe (d : Dev) (p : Nat) : Nat := sumL ((diesOf d p).map (diePe d)) / zeroAsOne (diesOf d p).length

/-- MED_WEAR.SPREAD. -/
def wearSpread (d : Dev) : Nat := clampN 4 50 (fld (rd d 0x40050) 0 8)

/-- The spread between a profile's most and least worn dies, in 1/65536 cycle. -/
def wearRange (d : Dev) (p : Nat) : Nat :=
  let l := (diesOf d p).map (diePe d)
  l.foldl max 0 - l.foldl min (l.headD 0)

/-- Static levelling runs from a spread above SPREAD % of the rating until 2 % below it (R258). -/
def levelled (d : Dev) (p : Nat) : Bool :=
  let one := (theProfile p).pe * 65536
  decide (wearSpread d * one < 100 * wearRange d p) || (d.med.levelling.contains p && decide ((wearSpread d - 2) * one < 100 * wearRange d p))
def levellingTick (d : Dev) : Dev := { d with med := { d.med with levelling := (profilesHere d).filter (levelled d) } }

/-- Points of the fit of R259: P/E count and mean corrected bits (1/16) of the profile's sealed beds. -/
def fitPoints (d : Dev) (p : Nat) : List (Nat × Nat) :=
  (d.maps.beds.filter fun e => decide (e.2.st = .isSealed) && decide (dieProfile d (e.1 / 4096) = p)).map fun e => (e.2.pe, e.2.mean)

/-- P/E, in 1/65536 cycle, at which the least-squares line reaches half the early-warning threshold; none: the line does not rise. -/
def peAtHalfEw (ew : Nat) (pts : List (Nat × Nat)) : Option Nat :=
  let n : Int := pts.length
  let sx : Int := sumL (pts.map (·.1))
  let sy : Int := sumL (pts.map (·.2))
  let sxx : Int := sumL (pts.map fun e => e.1 * e.1)
  let sxy : Int := sumL (pts.map fun e => e.1 * e.2)
  let den := n * sxx - sx * sx
  let num := n * sxy - sx * sy
  if num ≤ 0 ∨ den ≤ 0 then none
  else some (65536 * (sx * num + (8 * ew * n - sy) * den) / (n * num)).toNat

/-- The prediction of one profile: years in tenths, and whether the bit-error trend limits (R259). hist: hourly means, newest first. -/
def eolOf (d : Dev) (p : Nat) (hist : List Nat) : Nat × Bool :=
  let f := theProfile p
  let now := hist.headD 0
  let past := (hist[720]?).getD (hist.getLastD 0)
  let rating := f.pe * 65536
  let limit := match peAtHalfEw f.ew (fitPoints d p) with | some x => min rating x | none => rating
  if hist.length < 169 ∨ now ≤ past then (0xFFFF, false)
  else (min 0xFFFE (10 * (limit - now) * 30 * 100 / ((now - past) * 36525)), decide (limit < rating))

/-- The hourly prediction: the smallest, the lower profile on ties. -/
def eolTick (d : Dev) : Dev :=
  let ps := profilesHere d
  let d := { d with med := { d.med with peHist := ps.foldl (fun t p => tset t p ((meanPe d p :: tgetD t p []).take 721)) d.med.peHist } }
  match minBy (fun e => e.2.1) (ps.map fun p => (p, eolOf d p (tgetD d.med.peHist p []))) with
  | some e => { d with med := { d.med with eolYears := e.2.1, eolProfile := e.1, eolBasis := e.2.2 } }
  | none => d

/-- A retention transplant or the end of a patrol period that falls due ends S2 (R462). -/
def medWake (before t : Nat) (d : Dev) : Dev :=
  if before < d.med.xpls.length ∨ d.med.patrolAt + patrolDays d * dayNs ≤ t then wakeS2 t d else d

/-- MED_HOUR_TICK. -/
def execMedHourTick (t : Nat) (s : State) : Host.Outcome State Fault Refusal :=
  s.on fun d => onlyIf (mainUp d && decide (d.med.hourDue + 3600000000000 ≤ t)) (fun d =>
    medWake d.med.xpls.length t (eolTick (levellingTick (retentionCheck (effHoursTick { d with med := { d.med with hourDue := t / 3600000000000 * 3600000000000 } }))))) (tick t d)

end Sys2Proof.Machine
end

