-- ==== Sys2Proof/Machine/SilCore.lean ====
section
/-!
DEFINITION. How Sillage takes and writes a record, and what a loss leaves (spec/15_sillage_and_debug.md R497-R503, R507, R560). The commands are in Sillage.lean.
-/

namespace Sys2Proof.Machine

def onSil (f : Sil → Sil) (d : Dev) : Dev := { d with sil := f d.sil }

/-- A record as it arrives; its sequence number comes with its programming (R501). -/
def silRec (d : Dev) (e : Ev) (main : Bool) : SilRec :=
  { rseq := 0, ty := e.ty.code.1, sev := e.ty.code.2, src := b2n main, pcc := d.kpr.pwrcyc % 2 ^ 24, hours := opHours d % 2 ^ 24, secs := opSecs d, ps := e.ps }

/-- Entries of the pending queue in use (R501). -/
def silWaiting (q : List SilItem) : Nat := (q.filter fun i => !i.extra).length

/-- Is an item an EV_LOST, and of which cause? -/
def lostCause (i : SilItem) : Option Nat := if i.extra ∧ i.item.ty = 2 then some (i.item.ps.getD 1 0) else none

/-- Count n losses in an EV_LOST. -/
def addLost (n : Nat) (i : SilItem) : SilItem := { i with item := { i.item with ps := [i.item.ps.getD 0 0 + n, i.item.ps.getD 1 0, i.item.ps.getD 2 0] } }

/-- Losses of a cause enter the group of EV_LOSTs at the end of the queue, in ascending order of cause (R503). new: the item if the group has none of the cause. -/
def putLost (new : SilItem) (cause n : Nat) : List SilItem → List SilItem
  | [] => [new]
  | i :: r => match lostCause i with
    | some c => if r.all (fun x => (lostCause x).isSome) then
                  (if c = cause then addLost n i :: r else if cause < c then new :: i :: r else i :: putLost new cause n r)
                else i :: putLost new cause n r
    | none => i :: putLost new cause n r

/-- n records of which the first had TYPE ty are lost (R503, SIL_FREEZE.LOST). -/
def silLose (cause n ty : Nat) (d : Dev) : Dev :=
  if n = 0 then d else
  let new : SilItem := { item := silRec d ⟨.lost, [n, cause, ty]⟩ false, extra := true }
  let count (p : SilPath) : SilPath := if p.since.isSome then { p with lost := satAdd 16 p.lost n } else p
  onSil (fun s => { s with queue := putLost new cause n s.queue, bar0 := count s.bar0, mgmt := count s.mgmt
                           dropped := if cause = 1 then satAdd 16 s.dropped n else s.dropped }) d

/-- Is a record dropped when no token is left (R502)? EV_CLEAR is not: it is the first record after a clear (R509). -/
def silDroppable (i : SilItem) : Bool := decide (i.item.sev ≤ 1) && (lostCause i).isNone && decide (i.item.ty ≠ 1)

/-- Records that find no token are dropped before a write (R502). -/
def silShed (d : Dev) : Dev :=
  if d.sil.tokens = 0 then
    let drop := d.sil.queue.takeWhile silDroppable
    silLose 1 drop.length ((drop.head?.map (·.item.ty)).getD 0) (onSil (fun s => { s with queue := s.queue.dropWhile silDroppable }) d)
  else d

/-- Start the next write, or the sector erase it needs (R497, R501, R507). -/
def silKick (d : Dev) : Dev :=
  if d.sil.prog.isSome || d.sil.erasing || d.sil.clearing || d.sil.bar0.frozen || d.sil.mgmt.frozen then d else
  let d := silShed d
  match d.sil.queue with
  | [] => d
  | i :: q => if thas d.sil.slots d.sil.head then onSil (fun s => { s with erasing := true }) d
    else onSil (fun s => { s with queue := q, prog := some i.item, tokens := s.tokens - 1 }) d

/-- A record arrives (R501). -/
def silArrive (e : Ev) (main : Bool) (d : Dev) : Dev :=
  if silWaiting d.sil.queue < 32 then silKick (onSil (fun s => { s with queue := s.queue ++ [{ item := silRec d e main, extra := false }] }) d)
  else silLose 0 1 e.ty.code.1 d

/-- The end of a path's freeze (R507). -/
def silThaw (p : Path) (d : Dev) : Dev :=
  silKick (onSil (fun s => if p = .mgmt then { s with mgmt := { s.mgmt with frozen := false } } else { s with bar0 := { s.bar0 with frozen := false } }) d)

/-- The main die goes: what it holds is lost (R500, R503), and the BAR0 path's freeze clears with the keeper link (R507). -/
def silMainGone (d : Dev) : Dev :=
  let held := d.sil.store ++ d.sil.inboxMain
  let ty := if 0 < d.sil.lostMain then d.sil.lostType else ((held.head?.map (·.ty.code.1)).getD 0)
  let n := d.sil.lostMain + held.length
  silThaw .bar0 (silLose 2 n ty (onSil (fun s => { s with store := [], inboxMain := [], lostMain := 0, lostType := 0 }) d))

end Sys2Proof.Machine
end

