-- ==== Sys2Proof/Machine/Stop.lean ====
section
/-!
DEFINITION. Stopping and starting the main die (spec/09_power_loss_and_startup.md R304-R310, R320, R327-R329, R564, spec/13_power_and_clocks.md R439-R446,
spec/17_electrical_and_package.md R540-R542): what a stop leaves, the flush, the rails up and down, and the kinds of start.
-/

namespace Sys2Proof.Machine

/-! ### What a stop leaves (R328) -/

/-- Registers the power die holds, and the one it stores for the main die (R407). -/
def keptReg (off : Nat) : Bool := inPowerDie off || decide (off = 0x60004)

/-- The part without its main die: the power die, the flash, what fuses and boot flash hold. Registers restored at a warm start come from the power die's
copy (R328, R530). -/
def mainOff (d0 : Dev) : Dev :=
  let d := silMainGone d0
  {
  id := d.id
  rf := { regs := d.rf.copy.foldl (fun t e => tset t e.1 e.2) (tfilter d.rf.regs fun k _ => keptReg k), lock := d.rf.lock, copy := d.rf.copy }
  kpr := { d.kpr with shutdown := false }
  hld := { d.hld with charging := d.hld.charging && !d.kpr.pf }
  jnl := { d.jnl with tail := [], tailAt := none, writing := none }
  med := { effHours := d.med.effHours, peHist := d.med.peHist, patrolAt := d.med.patrolAt }
  hl := { known := d.hl.known, wearless := d.hl.wearless }
  clo := { fallback := d.clo.fallback }
  ecc := { cbMax := d.ecc.cbMax }
  bpm := { bad := d.bpm.bad, badPool := d.bpm.badPool, badKind := d.bpm.badKind }
  sec := { d.sec with nonce := none, cmdResult := 0, cmdReason := 0, rngReady := false, lowering := false, ownResult := 0, xts := [] }
  pwr := { clkLoss := d.pwr.clkLoss }
  thm := {
    failed := d.thm.failed, stops := d.thm.stops, lockout := d.thm.lockout, restartFrom := d.thm.restartFrom, vinMw := d.thm.vinMw
    steps := d.thm.steps, throttles := d.thm.throttles, stopCnt := d.thm.stopCnt, trips := d.thm.trips
    pth := d.thm.pth, pthFailed := d.thm.pthFailed, rcTrim := d.thm.rcTrim, trimTemp := d.thm.trimTemp, xtalOk := d.thm.xtalOk, xtalLost := d.thm.xtalLost }
  age := { d.age with
    eolYears := 0xFFFF, sentinel := 0, drift := []
    lastSilicon := if d.pwr.aon then d.age.eolYears else d.age.lastSilicon, lastFlash := if d.pwr.aon then d.med.eolYears else d.age.lastFlash }
  sil := d.sil
  smt := { gens := d.smt.gens, ipv6 := if d.rf.lock then d.smt.ipv6 else [] }
  pcx := {}
  qm := { telemSeq := d.qm.telemSeq, lockHigh := d.qm.lockHigh, dbReject := d.qm.dbReject }
  mgt := { d.mgt with tapMain := .bypass }
  io := d.io }

/-! ### Rescued content (R307, R309) -/

/-- Zone-map entries of active zones. -/
def activeEntries (d : Dev) : Tbl Zone := tfilter d.maps.zones fun _ z => z.st.active

/-- Dirty blocks in budget-queue order. -/
def dirtyPositions (d : Dev) : List Nat := (d.clo.buf.filter fun e => !e.2.spilled).map (·.1)

/-- Records of the tail, each of 32 bytes. -/
def tailRecords (l : List (Nat × JRec)) : Nat := sumL (l.map fun e => e.2.parts)

/-- What a flush leaves in the rescue rows. stopAt: the dirty blocks written before the sequencer ran out of rows; none: all, with both seals (R307, R308). -/
def flushed (stopAt : Option Nat) (d : Dev) : Rescue :=
  let dirty := dirtyPositions d
  let n := stopAt.getD dirty.length
  let keep := dirty.take n
  let acked := (dirty.filter fun i => decide (i < d.clo.ackPos)).length
  { tail := d.jnl.tail, zones := activeEntries d, stripes := d.med.stripes,
    blocks := tfilter d.clo.buf fun i b => b.spilled || keep.contains i,
    ackSeal := if acked ≤ n then some (d.kpr.pwrcyc, d.clo.ackPos) else none, finalSeal := stopAt.isNone, unarmed := false }

/-- What an orderly end leaves: everything programmed or spilled, the journal programmed (R309, R320, R482). -/
def settled (d : Dev) : Rescue :=
  { tail := [], zones := activeEntries d, blocks := d.clo.buf, stripes := d.med.stripes, ackSeal := some (d.kpr.pwrcyc, d.clo.ackPos), finalSeal := true, unarmed := true }

/-- What a stop without a flush leaves: the spilled blocks alone. nothing: nothing acknowledged can be missing (R309). -/
def unflushed (nothing : Bool) (d : Dev) : Rescue :=
  { blocks := tfilter d.clo.buf fun _ b => b.spilled, unarmed := nothing }

/-- Is a die worn out, as its bed entries show it (R227)? -/
def wornDie (d : Dev) (die : Nat) : Bool := match tget d.alm.dies die with | some x => x.worn | none => false

/-- Bytes as codeword payloads of 4,096 bytes of data each (R267). -/
def blocksOf (l : List Byte) : List Payload := (List.range (cdiv l.length 4096)).map fun i => BitVec.ofNat 33280 (leNat (slice l (4096 * i) 4096))

/-- What a stop writes into the rescue rows, in order (R307): the journal tail's records and the zone entries, the running parity, the dirty blocks at the given budget
positions. -/
def flushBlocks (keep : List Nat) (d : Dev) : List (Option Nat × Payload) :=
  (blocksOf (recsBytes (wornDie d) d.jnl.tail ++ (activeEntries d).flatMap fun e => zoneBytes e.2)).map (fun b => (none, b)) ++
  ((d.med.stripes.filter fun e => !e.2.spilled).flatMap fun e => parBlocks d e.1 e.2) ++ keep.filterMap fun i => (tget d.clo.buf i).map fun b => (some i, b.pay)

/-- Lay them into armed rescue rows, one row after another (R307). -/
def layRows : List (Nat × Row) → List (Option Nat × Payload) → Dev → Dev
  | e :: rows, b :: l, d => layRows rows ((b :: l).drop (rescueBlocks e.2)) (layRescue e.1 ((b :: l).take (rescueBlocks e.2)) (fun _ _ d => d) d)
  | _, _, d => d
def layFlush (keep : List Nat) (d : Dev) : Dev := layRows ((rescueRows d).filter fun e => rescueArmed d e.2 && !d.jnl.used.contains e.1) (flushBlocks keep d) d

/-- Keep what a stop leaves; a stop before ready leaves what the last one left (R325). -/
def leave (r : Dev → Rescue) (d : Dev) : Dev := if d.clo.ready then { d with jnl := { d.jnl with rescue := r d } } else d

/-- Program the journal's tail. -/
def programTail (d : Dev) : Dev :=
  match d.jnl.tail with
  | [] => d
  | e :: _ => { d with jnl := { d.jnl with prog := d.jnl.prog ++ d.jnl.tail, pages := d.jnl.pages ++ (List.range (cdiv (tailRecords d.jnl.tail) 512)).map fun i => e.1 + 512 * i, tail := [], tailAt := none } }

/-! ### Rails (R445, R446, R540-R542) -/

/-- A VOUT_COMMAND on the PMBus: regulator address 0x40 + n, millivolts. -/
def vout (n mv : Nat) (d : Dev) : Dev := send (.pmbus (0x40 + n) 0x21 mv) { d with mgt := { d.mgt with arbRun := 0 } }

/-- A VDDC setting from the main die: the power die's PMBus master gets it over the keeper link; while the link is down the latest waits (R20, R455). -/
def vddcSet (mv : Nat) (d : Dev) : Dev := if d.pwr.klinkUp then vout 3 mv d else { d with pwr := { d.pwr with voutHeld := some mv } }

/-- VIN within 9.0-14.0 V. -/
def vinOk (d : Dev) : Bool := decide (9000 ≤ d.kpr.vinMv) && decide (d.kpr.vinMv ≤ 14000)

/-- KPR_PF_CFG: THRESH in mV, FILTER in µs. -/
def pfThresh (d : Dev) : Nat := clampN 8000 11000 (fld (rd d 0x100004) 0 16)
def pfFilter (d : Dev) : Nat := clampN 5 200 (fld (rd d 0x100004) 16 8)
/-- VIN back in range for a start (R309, R541). -/
def vinBack (d : Dev) (mv : Nat) : Bool := decide (pfThresh d + 1000 < mv) && decide (mv < 14000)

def onKpr (f : Kpr → Kpr) (d : Dev) : Dev := { d with kpr := f d.kpr }

/-- Enable the first rail: VDDC's voltage is set, VIO comes first (R445, R540). -/
def railsUp (t : Nat) (d : Dev) : Dev :=
  onKpr (fun k => { k with state := 1, fet := true, ken := [0], kpg := [], railAt := t, restartAt := none }) (vout 3 750 d)

/-- Every rail is down: what follows. A power loss waits for VIN; other restarts go on at once while VIN is there; none stays off. -/
def railsDown (t : Nat) (d : Dev) : Dev :=
  let d := onKpr (fun k => { k with ken := [], kpg := [], downFrom := none, buck := false, flush := none }) d
  match d.kpr.restart with
  | none => onKpr (fun k => { k with state := 5 }) d
  | some 1 => onKpr (fun k => { k with state := 0, pf := false, vinOkSince := none }) d
  | some _ => if vinOk d then railsUp t d else onKpr (fun k => { k with state := 0 }) d

/-- Begin to drop the rails, KEN7 first (R542). -/
def dropRails (restart : Option Nat) (t : Nat) (d : Dev) : Dev :=
  let d := onKpr (fun k => { k with state := 4, restart := restart, downFrom := some t }) (mainOff d)
  match d.kpr.ken.getLast? with
  | some n => onKpr (fun k => { k with ken := k.ken.filter fun x => decide (x ≠ n) }) d
  | none => railsDown t d

/-- Drop every rail at once (R443, R446, R483, R541). -/
def cutRails (state : Nat) (restart : Option Nat) (d : Dev) : Dev :=
  onKpr (fun k => { k with state := state, restart := restart, ken := [], kpg := [], downFrom := none, flush := none, buck := false }) (mainOff d)

/-! ### The flush (R304-R310) -/

/-- The cause of the start that follows a flush, by CLO_LAST.CAUSE (R310, R327, R470, R485); a hard trip waits for THERMAL_RESTART. -/
def causeAfter : Nat → Option Nat
  | 0 => some 1
  | 1 => none
  | 2 => some 4
  | 3 => some 5
  | _ => some 6

/-- After a hard trip the restart of R485 is timed from here. -/
def tripWait (cause t : Nat) (d : Dev) : Dev := if cause = 1 then { d with thm := { d.thm with restartFrom := some t } } else d

/-- Stop the main die for a cause: with the flush where the list is armed and the keeper link up, else without one (R306, R309, R325). During a lowering nothing
is flushed (R433). -/
def startFlush (cause t : Nat) (d : Dev) : Dev :=
  let d := tripWait cause t { d with thm := { d.thm with tripAt := none } }
  if d.clo.ready ∧ listArmed d ∧ d.pwr.klinkUp ∧ !d.sec.lowering then
    onKpr (fun k => { k with state := 3, flush := some (cause, t), lastCause := cause }) { d with thm := { d.thm with stopping := false } }
  else
    let armed := listArmed d && d.clo.ready && !d.sec.lowering
    onKpr (fun k => { k with lastResult := 0, lastCause := cause }) (dropRails (causeAfter cause) t (leave (unflushed (!armed)) d))

/-- MiB a flush writes. -/
def flushMib (r : Rescue) (d : Dev) : Nat :=
  (4160 * (r.blocks.filter fun e => !e.2.spilled).length + parityBytes d + 32 * tailRecords r.tail + 16 * r.zones.length) / 1048576

/-- FLUSH_DONE: the sequencer signals; the rails drop in reverse order; the record (R307). stopAt: how many dirty blocks were written when no armed row was left;
none: all. A power-fail that came meanwhile makes the next start a cold one (R329). -/
def flushDone (stopAt : Option Nat) (t cause t0 : Nat) (d : Dev) : Dev :=
  let r := flushed stopAt d
  let mib := flushMib r d
  let dur := min 0xFFFF ((t - t0) / 10000)
  let keep := (dirtyPositions d).take (stopAt.getD (dirtyPositions d).length)
  let d := raiseP .clocheDone [mib, dur, d.hld.vhold, cause] (leave (flushed stopAt) (layFlush keep d))
  dropRails (if d.kpr.pf then some 1 else causeAfter cause) t (onKpr (fun k => { k with lastResult := 1, lastCause := cause, lastDuration := dur }) d)

/-- FLUSH_DONE. -/
def execFlushDone (stopAt : Option Nat) (t : Nat) (s : State) : Host.Outcome State Fault Refusal :=
  s.on fun d => withSome d.kpr.flush (fun f d => onlyIf (decide (d.kpr.state = 3)) (flushDone stopAt t f.1 f.2) d) (tick t d)

/-! ### Measurements of the bank that end (R300, R302) -/

/-- End a measurement without a result; reason as in HLD_CAL (R300). -/
def calAbort (reason t : Nat) (d : Dev) : Dev :=
  let wait := if d.hld.valid then 3600000000000 * clampN 1 168 (fld (rd d 0x101000) 24 8) else 60000000000
  raiseP .calAbort [reason] { d with hld := { d.hld with
    calSt := 0, result := 3, reason := reason, due := some (t + wait), refused := false, soft := false, charging := decide (hldTarget d ≠ 0) && !d.kpr.pf && !d.hld.bleed
    chans := d.hld.chans } }

/-- Lock or release VHOLD's coarse range (R301). -/
def lockVhold (on : Bool) (d : Dev) : Dev :=
  { d with hld := { d.hld with chans := (d.hld.chans ++ List.replicate (4 - d.hld.chans.length) ({} : AdcChan)).modify 1 fun c =>
    { c with locked := on, coarse := c.coarse || on, next := c.next || (on && !c.coarse) } } }

/-! ### Power-fail (R304, R305, R309, R329, R433, R541, R564) -/

/-- What the power die does within 1 µs. -/
def pfActions (d : Dev) : Dev :=
  let d := raiseP .powerFail [d.kpr.vinMv, d.hld.vhold] (lockVhold true (onKpr (fun k => { k with pf := true, fet := false, filterAt := none, vinOkSince := none }) d))
  { d with hld := { d.hld with charging := false, discharging := false } }

/-- POWER_FAIL. -/
def powerFail (t : Nat) (d : Dev) : Dev :=
  if d.kpr.state = 5 then
    onKpr (fun k => { k with pf := false }) (pfActions d)
  else if d.kpr.state = 2 then
    let d := if d.hld.calSt = 2 then calAbort 4 t d else d
    let d := { d with hld := { d.hld with bleeding := false, bleed := false } }
    let d := onKpr (fun k => { k with buck := true, shutdown := false }) (pfActions d)
    if !d.pwr.klinkUp ∧ d.clo.ready ∧ listArmed d ∧ !d.sec.lowering then { d with pwr := { d.pwr with klinkDownAt := some t } }
    else startFlush 0 t d
  else if d.kpr.state = 3 ∨ d.kpr.state = 4 then onKpr (fun k => { k with restart := some 1 }) (pfActions d)
  else d

/-- POWER_FAIL: VIN has stayed below THRESH for FILTER (R304). -/
def execPowerFail (t : Nat) (s : State) : Host.Outcome State Fault Refusal :=
  s.on fun d => withSome d.kpr.filterAt (fun a d => onlyIf (d.kpr.running && !d.kpr.pf && decide (d.kpr.vinMv < pfThresh d) && decide (a + 1000 * pfFilter d ≤ t)) (powerFail t) d) (tick t d)

/-- VIN has left its range during the power sequence: FET off, every KEN low at once; VIN_RETURN starts it again (R541). -/
def sequenceLost (d : Dev) : Dev := onKpr (fun k => { k with state := 0, fet := false, ken := [], kpg := [], restartAt := none, vinOkSince := none, seqLost := true }) d

/-- A supply beyond its absolute maximum (R535). -/
def beyondMax (vin : Nat) : Bool := decide (16000 < vin)

/-- VIN_DROP: VIN falls below THRESH; the filter starts. -/
def execVinDrop (mv t : Nat) (s : State) : Host.Outcome State Fault Refusal :=
  s.on fun d => onlyIf (d.kpr.running && (decide (mv < pfThresh d) || (decide (d.kpr.state = 1) && decide (mv < 9000))) && decide (d.kpr.filterAt = none)) (fun d =>
    let d := onKpr (fun k => { k with vinMv := mv, vinOkSince := none }) d
    if d.kpr.state = 1 then sequenceLost d
    else if d.kpr.state = 0 then (if mv = 0 then onKpr (fun k => { k with seqFails := 0 }) d else d)
    else onKpr (fun k => { k with filterAt := some t }) d) (tick t d)

/-- VIN_GLITCH: VIN is back before the filter ended: counted, nothing else (R304). -/
def execVinGlitch (mv t : Nat) (s : State) : Host.Outcome State Fault Refusal :=
  s.on fun d => withSome d.kpr.filterAt (fun a => onlyIf (!d.kpr.pf && decide (pfThresh d ≤ mv) && decide (t < a + 1000 * pfFilter d)) (fun d =>
    onKpr (fun k => { k with vinMv := mv, vinOkSince := if 9000 ≤ mv ∧ mv ≤ 14000 then some t else none, filterAt := none, glitch := satInc 32 k.glitch }) d)) (tick t d)

/-- VIN_ABOVE_RANGE: above 14.0 V. In the sequence the rails go off (R541); beyond the absolute maximum the spec gives no behaviour (R535). -/
def execVinAboveRange (mv t : Nat) (s : State) : Host.Outcome State Fault Refusal :=
  if s.dev.kpr.running && beyondMax mv then .fault .absoluteMaximum
  else s.on fun d => onlyIf (d.kpr.running && decide (14000 < mv)) (fun d =>
    let d := onKpr (fun k => { k with vinMv := mv, vinOkSince := none }) d
    if d.kpr.state = 1 then sequenceLost d else d) (tick t d)

/-! ### Starts (R327, R328, R540) -/

/-- A cold reset ends the fallback of each failed sensor, with its record (R29, R474). -/
def sensorsFresh (d : Dev) : Dev :=
  forAll d.thm.pthFailed (fun n => raiseP .fallback [1, 0, 0x100 + n]) (forAll d.thm.failed (fun i => raiseP .fallback [1, 0, i]) d)

/-- A cold reset: the setup lock, the RWL values and the hold-up measurement go; the power-cycle count advances (R328). -/
def coldStart (d0 : Dev) : Dev :=
  let d := mainOff (sensorsFresh d0)
  { d with
    rf := { regs := tfilter d.rf.regs fun k _ => decide (k = 0x60004) }
    kpr := { d.kpr with pwrcyc := (d.kpr.pwrcyc + 1) % 2 ^ 24 }
    hld := { vhold := d.hld.vhold, chans := d.hld.chans.map fun c => { c with locked := false }, first := true }
    ecc := {}
    bpm := {}
    qm := { telemSeq := d.qm.telemSeq }
    pwr := {}
    sec := { d.sec with rngFailed := false, rngFails := 0, rngFailAt := [] }
    thm := { pth := d.thm.pth, pthFailed := [], rcTrim := d.thm.rcTrim, trimTemp := d.thm.trimTemp, xtalOk := d.thm.xtalOk, xtalLost := d.thm.xtalLost, rails := d.thm.rails, vinMw := d.thm.vinMw } }

/-- Sillage once the power die has lost every supply: its RAM is gone; the ring, its ends, RSEQ, the clear count and the stored hour stay (R499, R501, R502, R560). -/
def silPowerDown (s : Sil) : Sil :=
  { slots := s.slots, head := s.head, first := s.first, wrapped := s.wrapped, rseq := s.rseq, clrCnt := s.clrCnt, hourStored := s.hourStored, hourBase := s.hourStored }

/-- And when the power die starts again: hours go on from the stored hour, seconds from 0. -/
def silPowerUp (t : Nat) (s : Sil) : Sil := { silPowerDown s with hourFrom := t, tokAt := t }

/-- COLD_RESET: the first rise of a supply with the power die unpowered (R327 cause 0). vin in mV; vaux: within its range. -/
def execColdReset (vin : Nat) (vaux : Bool) (t : Nat) (s : State) : Host.Outcome State Fault Refusal :=
  if !s.dev.kpr.running && beyondMax vin then .fault .absoluteMaximum
  else s.on fun d => onlyIf (!d.kpr.running && (vaux || decide (9000 ≤ vin))) (fun d =>
    let d := coldStart d
    { d with
      qm := {}
      kpr := { running := true, vinMv := vin, vinOkSince := if 9000 ≤ vin ∧ vin ≤ 14000 then some t else none, vauxOk := vaux, pwrcyc := d.kpr.pwrcyc,
               restart := some 0, lastResult := d.kpr.lastResult, lastCause := d.kpr.lastCause, lastDuration := d.kpr.lastDuration }
      hld := { first := true }
      sil := silPowerUp t d.sil
      mgt := {}
      clo := {}
      thm := {} }) (tick t d)

/-- VIN_STABLE: VIN within 9.0-14.0 V for 2 ms; the inrush begins (R540). -/
def execVinStable (mv t : Nat) (s : State) : Host.Outcome State Fault Refusal :=
  s.on fun d =>
    let d := onKpr (fun k => { k with vinMv := mv, vinOkSince := if 9000 ≤ mv ∧ mv ≤ 14000 then (match k.vinOkSince with | some x => some x | none => some t) else none }) (tick t d)
    withSome d.kpr.vinOkSince (fun a => onlyIf (d.kpr.running && decide (d.kpr.state = 0) && decide (d.kpr.seqFails < 3) && decide (d.kpr.restartAt = none) &&
      decide (d.kpr.restart ≠ some 1) && !d.kpr.seqLost && decide (a + 2000000 ≤ t)) (onKpr fun k => { k with state := 1 })) d

/-- INRUSH_DONE: the FET is fully enhanced; VDDC's voltage is set and VIO enabled. -/
def execInrushDone (t : Nat) (s : State) : Host.Outcome State Fault Refusal :=
  s.on fun d => onlyIf (decide (d.kpr.state = 1) && d.kpr.ken.isEmpty && d.kpr.restartAt.isNone) (railsUp t) (tick t d)

/-- RAIL_POWER_GOOD: rail n, 0-7; the next rail is enabled (R445). -/
def execRailPowerGood (rail t : Nat) (s : State) : Host.Outcome State Fault Refusal :=
  s.on fun d => onlyIf (decide (d.kpr.state = 1) && d.kpr.ken.contains rail && !d.kpr.kpg.contains rail) (onKpr fun k =>
    { k with kpg := k.kpg ++ [rail], ken := if rail < 7 then k.ken ++ [rail + 1] else k.ken, railAt := t }) (tick t d)

/-- RAIL_PG_TIMEOUT: no power-good within 3.0 ms (R541). -/
def execRailPgTimeout (vout t : Nat) (s : State) : Host.Outcome State Fault Refusal :=
  s.on fun d => withSome (d.kpr.ken.find? fun n => !d.kpr.kpg.contains n) (fun n d => onlyIf (decide (d.kpr.state = 1) && decide (d.kpr.railAt + 3000000 ≤ t)) (fun d =>
    let d := raiseP .railFault [n + 1, vout] d
    let fails := d.kpr.seqFails + 1
    onKpr (fun k => { k with ken := [], kpg := [], seqFails := fails, state := if 3 ≤ fails then 0 else 1, fet := if 3 ≤ fails then false else k.fet
                             restartAt := if 3 ≤ fails then none else some (t + 1000000000) }) d) d) (tick t d)

/-- RAIL_SEQUENCE_RESTART: 1 s after a failed sequence, or VIN back above THRESH + 1.0 V and below 14.0 V for 100 ms (R541). -/
def execRailSequenceRestart (mv t : Nat) (s : State) : Host.Outcome State Fault Refusal :=
  s.on fun d =>
    let d := onKpr (fun k => { k with vinMv := mv }) (tick t d)
    onlyIf (decide (d.kpr.state = 1) && vinOk d && d.kpr.restartAt.any fun a => decide (a ≤ t)) (railsUp t) d

/-- RAIL_FAULT: a rail loses its power-good with the main die running: every rail drops at once, without a flush (R446). The device then stays off (notes/assumptions/24.md). -/
def execRailFault (rail vout t : Nat) (s : State) : Host.Outcome State Fault Refusal :=
  s.on fun d => onlyIf ((decide (d.kpr.state = 1) || decide (d.kpr.state = 2) || decide (d.kpr.state = 3)) && d.kpr.kpg.contains rail) (fun d =>
    let d := raiseP .railFault [rail + 1, vout] d
    cutRails 5 none (leave (unflushed (!listArmed d)) d)) (tick t d)

/-- RAIL_POWER_DOWN_STEP: the power-good of the rail taken down before has fallen, or 1 ms has passed (R542). -/
def execRailPowerDownStep (t : Nat) (s : State) : Host.Outcome State Fault Refusal :=
  s.on fun d => onlyIf (decide (d.kpr.state = 4)) (fun d => match d.kpr.ken.getLast? with
    | some n => onKpr (fun k => { k with ken := k.ken.filter fun x => decide (x ≠ n), kpg := k.kpg.filter fun x => decide (x ≤ n), downFrom := some t }) d
    | none => railsDown t d) (tick t d)

/-- Strap values that are not used as read (R13, R166): owner strap, PCX0_BIF, PCX1_BIF. -/
def strapEvents (d : Dev) : Dev :=
  let d := if d.id.variant = .z9E ∧ !d.id.ownerMgt then raise .strapOverride [0, 0, 1] d else d
  let d := if hasPcx d 0 ∧ d.id.bif0 = 3 then raise .strapOverride [1, 3, 0] d else d
  if hasPcx d 1 ∧ d.id.bif1 = 3 then raise .strapOverride [2, 3, 0] d else d

/-- ROOT_PLL_LOCK: the always-on domain is released, straps are latched, the charger starts, phase 1 begins (R540). VDDC stands at PL5's nominal voltage. -/
def rootPllLock (t : Nat) (d : Dev) : Dev :=
  let d := onKpr (fun k => { k with state := 2, cause := k.restart.getD k.cause, restart := none, seqFails := 0, lastBeat := t, s3 := false }) d
  strapEvents { d with
    pwr := { d.pwr with aon := true, klinkUp := true, pllLock := true, holdover := false, pl := 5, cdiv := 4, vddc := 750, activeAt := t, sleepAt := t }
    hld := { d.hld with charging := decide (hldTarget d ≠ 0) && !d.hld.bleed }
    clo := { d.clo with phase := 1 } }

/-- ROOT_PLL_LOCK. -/
def execRootPllLock (t : Nat) (s : State) : Host.Outcome State Fault Refusal :=
  s.on fun d =>
    if d.kpr.state = 2 then onlyIf (d.pwr.aon && !d.pwr.pllLock) (fun d => { d with pwr := { d.pwr with pllLock := true, holdover := false } }) (tick t d)
    else onlyIf (decide (d.kpr.state = 1) && decide (d.kpr.kpg.length = 8)) (rootPllLock t) (tick t d)

/-- VIN_RETURN: VIN above THRESH + 1.0 V for 100 ms, told with its present value. After a power loss a cold reset follows (R309, cause 1); with the main die off by
itself the FET closes and the stop stands (R564). -/
def execVinReturn (mv t : Nat) (s : State) : Host.Outcome State Fault Refusal :=
  s.on fun d => onlyIf (d.kpr.running && vinBack d mv) (fun d =>
    let d := onKpr (fun k => { k with vinMv := mv, vinOkSince := some (t - 100000000), filterAt := none }) d
    if d.kpr.state = 5 then lockVhold false (onKpr (fun k => { k with fet := true }) { d with hld := { d.hld with charging := decide (hldTarget d ≠ 0) && !d.hld.bleed } })
    else if d.kpr.state = 0 ∧ d.kpr.restart = some 1 then
      let d := coldStart d
      onKpr (fun k => { k with pf := false, state := 1, seqFails := 0, seqLost := false }) d
    else if d.kpr.state = 0 ∧ d.kpr.seqFails < 3 then onKpr (fun k => { k with state := 1, seqLost := false }) d
    else d) (tick t d)

/-- ALL_SUPPLIES_LOST: the power die stops; media, Sillage and what embedded flash holds stay (R461, R501, R502). -/
def execAllSuppliesLost (t : Nat) (s : State) : Host.Outcome State Fault Refusal :=
  s.on fun d => onlyIf d.kpr.running (fun d =>
    let d := mainOff (leave (unflushed (!listArmed d)) d)
    { d with kpr := { pwrcyc := d.kpr.pwrcyc, lastResult := d.kpr.lastResult, lastCause := d.kpr.lastCause, lastDuration := d.kpr.lastDuration }
             sil := silPowerDown d.sil, hld := {}, mgt := {} }) (tick t d)

/-! ### Requests (R310, R320, R327, R329, R464, R485) -/

/-- A request during a flush is ignored, and recorded in the count (R329). DESIGN CHOICE (notes/assumptions/77.md): the spec names no register and no event type for that record. -/
def ignoreRequest (d : Dev) : Dev := if d.kpr.state = 3 then onKpr (fun k => { k with ignored := k.ignored + 1 }) d else d

/-- Is a request on KPR_CTRL taken now: the path reaches it? -/
def kprCtrl (path : Path) (f : Dev → Dev) (d : Dev) : Dev := onlyIf (reachable d path 0x100008) f d

/-- KPR_CTRL.WARM: from state 2 the flush and a warm start; from state 5 a start, after S3 with cause 2; after three failed sequences the sequence again. -/
def kprWarm (path : Path) (t : Nat) (d : Dev) : Dev :=
  if d.kpr.state = 2 then startFlush 4 t d
  else if d.kpr.state = 5 ∧ path = .mgmt then
    let d := onKpr (fun k => { k with restart := some (if k.s3 then 2 else 6) }) { d with thm := { d.thm with lockout := false, restartFrom := none } }
    if vinOk d then railsUp t d else onKpr (fun k => { k with state := 0 }) d
  else if d.kpr.state = 0 ∧ 3 ≤ d.kpr.seqFails ∧ vinOk d then onKpr (fun k => { k with seqFails := 0, state := 1 }) d
  else ignoreRequest d

/-- KPR_CTRL_WARM. -/
def execKprCtrlWarm (path : Path) (t : Nat) (s : State) : Host.Outcome State Fault Refusal :=
  s.onReg path fun d => kprCtrl path (kprWarm path t) (tick t d)

/-- KPR_CTRL_SHUTDOWN: a clean shutdown begins: nothing more is fetched (R320). -/
def execKprCtrlShutdown (path : Path) (t : Nat) (s : State) : Host.Outcome State Fault Refusal :=
  s.onReg path fun d => kprCtrl path (fun d => onlyIf (decide (d.kpr.state = 2) && d.clo.ready) (onKpr fun k => { k with shutdown := true }) (ignoreRequest d)) (tick t d)

/-- A checkpoint: the set that does not hold the newest valid one. -/
def newestCkpt (d : Dev) : Option Ckpt := match d.jnl.ckpt0, d.jnl.ckpt1 with
  | some a, some b => if a.num < b.num then some b else some a
  | some a, none => some a
  | none, b => b
def ckptSet (d : Dev) : Nat := match d.jnl.ckpt0, d.jnl.ckpt1 with
  | some a, some b => if a.num < b.num then 0 else 1
  | some _, none => 1
  | none, _ => 0

/-- Begin a checkpoint (R318). -/
def beginCkpt (t : Nat) (d : Dev) : Dev :=
  let set := ckptSet d
  let num := (match newestCkpt d with | some c => c.num | none => 0) + 1
  let d := record (.ckpt set num false) d
  { d with jnl := { d.jnl with writing := some { set := set, num := num, begin := d.jnl.seq - 1, beganAt := t } } }

/-- MiB of journal in each copy, and pairs of journal rows: each row of four SLC beds (R233). -/
def heldMib (d : Dev) : Nat := d.jnl.pages.length * 16 / 1024

/-- Pages of a journal row: 64 of 16 KiB to a MiB of its four beds; MiB of journal that the area's pairs hold in each copy (R233). -/
def pairPages (r : Row) : Nat := 256 * (theProfile r.profile).slcMib
def journalMib (d : Dev) : Nat := sumL ((sysRows d 0).map fun e => pairPages e.2) / 128

/-- Beds of system rows that have to be erased first are erased at once. -/
def eraseSys (d : Dev) : Dev := forAll (d.med.toErase.filter fun p => decide ((bedOf d p.1 p.2).st = .system)) (fun p => queueErase p.1 p.2 7) d

/-- A mirrored pair of journal rows: eight beds in eight link groups, four to a row. -/
def journalPair (d : Dev) : Dev :=
  let w := sysWant 3 false 0
  match pickSys d w 8 with
  | some dies => eraseSys (makeRow w (dies.drop 4) none (makeRow w (dies.take 4) none d).2).2
  | none => d

/-- Pairs are added while the area holds less than 3 GiB in each copy, or is full (R233). -/
def growJournal : Nat → Dev → Dev
  | 0, d => d
  | f + 1, d => if journalMib d < 3072 ∨ 64 * journalMib d ≤ d.jnl.trimmed + d.jnl.pages.length then growJournal f (journalPair d) else d

/-- A system row is given up: its beds are Released, those that skipped a word line retired (R226, R256). -/
def freeSysRow (row : Nat) (r : Row) (d : Dev) : Dev :=
  let d := forAll ((d.med.rebuilds.filter fun e => decide (e.1 / 32 = row)).map (·.1)) dropRebuild d
  let d := forAll r.pos (fun p d =>
    let b := bedOf d p.1 p.2
    if b.st = .retired then d else oldBed row p.1 p.2 1 (if b.skips = [] then .released else .retired) { d with med := { d.med with toErase := d.med.toErase.filter fun x => decide (x ≠ p) } }) d
  freeOld row (record (.row row none) d)

/-- Journal pairs all of whose pages are trimmed are given up, oldest first (R319). -/
def trimPairs : Nat → Dev → Dev
  | 0, d => d
  | f + 1, d => match sysRows d 0 with
    | a :: b :: _ =>
      if pairPages a.2 ≤ d.jnl.trimmed then trimPairs f (freeSysRow b.1 b.2 (freeSysRow a.1 a.2 { d with jnl := { d.jnl with trimmed := d.jnl.trimmed - pairPages a.2 } })) else d
    | _ => d

/-- The journal area as R233 and R319 want it. -/
def settleArea (d : Dev) : Dev := growJournal 8 (trimPairs 8 d)

/-- End it: the end record is programmed, the set holds the image, the journal below the older checkpoint's begin is trimmed (R318, R319). -/
def endCkpt (d : Dev) : Dev := match d.jnl.writing with
  | none => d
  | some w =>
    let c : Ckpt := { num := w.num, begin := w.begin, beganAt := w.beganAt, image := d.maps, readable := true }
    let d := programTail (record (.ckpt w.set w.num true) d)
    let d := { d with jnl := { d.jnl with ckpt0 := if w.set = 0 then some c else d.jnl.ckpt0, ckpt1 := if w.set = 0 then d.jnl.ckpt1 else some c, writing := none } }
    match d.jnl.ckpt0, d.jnl.ckpt1 with
    | some a, some b =>
      let low := min a.begin b.begin
      let keep := (d.jnl.pages.filter fun p => decide (low < p)).length + 1
      settleArea { d with jnl := { d.jnl with
        prog := d.jnl.prog.filter fun e => decide (low ≤ e.1), pages := d.jnl.pages.drop (d.jnl.pages.length - keep), trimmed := d.jnl.trimmed + (d.jnl.pages.length - keep) } }
    | _, _ => d

/-- Are programs still to be done? -/
def programming (d : Dev) : Bool := d.alm.ops.any fun e => decide (e.2.kind = .program)

/-- CLEAN_SHUTDOWN_DONE: commands are complete and programs done; a checkpoint, JR_MARK of kind 1, the journal programmed, the main die dropped (R320). Blocks of pages that
are not full stay in rescue rows as spills do (notes/assumptions/25.md). -/
def cleanShutdownDone (t : Nat) (d : Dev) : Dev :=
  let d := endCkpt (if d.jnl.writing.isSome then d else beginCkpt t d)
  let d := programTail (record (.mark 1 d.kpr.pwrcyc d.clo.image) d)
  dropRails none t (onKpr (fun k => { k with lastResult := 0 }) (leave settled (layFlush (dirtyPositions d) d)))

/-- CLEAN_SHUTDOWN_DONE. -/
def execCleanShutdownDone (t : Nat) (s : State) : Host.Outcome State Fault Refusal :=
  s.on fun d => onlyIf (decide (d.kpr.state = 2) && d.kpr.shutdown && !d.kpr.pf && decide (d.qm.cmds = []) && !programming d) (cleanShutdownDone t) (tick t d)

/-! ### Heartbeat and watchdog (R310, R329, R441) -/

/-- HEARTBEAT. -/
def execHeartbeat (t : Nat) (s : State) : Host.Outcome State Fault Refusal :=
  s.on fun d => onlyIf (decide (d.kpr.state = 2) && d.pwr.klinkUp && d.pwr.pllLock) (onKpr fun k => { k with lastBeat := t }) (tick t d)

/-- KPR_WDOG in ms. -/
def wdogMs (d : Dev) : Nat := clampN 100 60000 (fld (rd d 0x10000C) 0 16)

/-- KEEPER_WDOG_EXPIRY; with power-fail asserted, power-fail wins (R329). -/
def execKeeperWdogExpiry (t : Nat) (s : State) : Host.Outcome State Fault Refusal :=
  s.on fun d => onlyIf (decide (d.kpr.state = 2) && !d.kpr.pf && d.kpr.flush.isNone && decide (d.kpr.lastBeat + 1000000 * wdogMs d < t)) (startFlush 3 t) (tick t d)

/-! ### The keeper link (R440-R443) -/

/-- KLINK_RESYNC: alignment is lost (up: false), counted, or regained; what waited for the link crosses it: a VDDC setting, and a power-fail or a trip, which starts the flush (R20). crc: frames that failed their CRC
until then. -/
def execKlinkResync (up : Bool) (crc t : Nat) (s : State) : Host.Outcome State Fault Refusal :=
  s.on fun d => onlyIf d.pwr.aon (fun d =>
    let d := { d with pwr := { d.pwr with klinkCrc := satAdd 16 d.pwr.klinkCrc crc } }
    if !up then
      if d.pwr.klinkUp then silThaw .bar0 { d with pwr := { d.pwr with klinkUp := false, klinkResync := satInc 8 d.pwr.klinkResync }, clo := { d.clo with bank := some d.hld } } else d
    else
      let held := d.pwr.voutHeld
      let d := { d with pwr := { d.pwr with klinkUp := true, klinkDownAt := none, voutHeld := none }, clo := { d.clo with bank := none } }
      let d := withSome held (vout 3) d
      if d.kpr.state ≠ 2 ∨ d.kpr.flush.isSome then d
      else if d.kpr.pf then startFlush 0 t d
      else if d.thm.tripAt.isSome then startFlush 1 t d else d) (tick t d)

/-- Has a message waited 1 ms since a time for its acknowledgement? -/
def waitedMs (t : Nat) (at_ : Option Nat) : Bool := at_.any fun a => decide (a + 1000000 ≤ t)

/-- KLINK_PF_TIMEOUT: 1 ms of power-fail or trip messages without an acknowledgement: the rails drop without a flush (R443, R484). -/
def execKlinkPfTimeout (t : Nat) (s : State) : Host.Outcome State Fault Refusal :=
  s.on fun d => onlyIf ((d.kpr.pf && waitedMs t d.pwr.klinkDownAt || waitedMs t d.thm.tripAt) && !d.pwr.klinkUp && decide (d.kpr.state = 2) && d.kpr.flush.isNone) (fun d =>
    let d := leave (unflushed (!listArmed d)) (raiseP .klinkLost [] d)
    if d.kpr.pf then onKpr (fun k => { k with pf := false, vinOkSince := none }) (cutRails 0 (some 1) d)
    else cutRails 5 none (tripWait 1 t d)) (tick t d)

end Sys2Proof.Machine
end

