-- ==== Sys2Proof/Machine/Holdup.lean ====
section
/-!
DEFINITION. The dirty-byte ceiling as it is kept, the hold-up bank and its measurement, the power-die ADC (spec/09_power_loss_and_startup.md R29, R293-R303).
-/

namespace Sys2Proof.Machine

/-! ### The ceiling (R29, R236, R293-R295) -/

/-- The flush list names a rescue row from the first armed one on (R306). During a lowering nothing is armed (R433). -/
def armList (d : Dev) : Dev :=
  let dirty := fun (i : Nat) => match rowAt d i with
    | some r => decide (r.valid ≠ 0) || r.pos.any fun p => d.med.toErase.contains p
    | none => false
  let d := { d with jnl := { d.jnl with used := d.jnl.used.filter dirty } }
  if d.clo.ready ∧ !d.sec.lowering ∧ (rescueRows d).any (fun e => rescueArmed d e.2) then { d with clo := { d.clo with armed := true } } else d

/-- A bleed goes on to discharge the bank once nothing is dirty (R303). -/
def bleedOn (d : Dev) : Dev :=
  if d.hld.bleeding ∧ !d.hld.safe ∧ dirtyBytes d = 0 then { d with hld := { d.hld with charging := false, discharging := true } } else d

/-- The ceiling takes effect, from the bank as the main die sees it (R20); the record of entering or leaving the fallback of R29; the watch of R295. -/
def setCeiling (t : Nat) (d : Dev) : Dev :=
  let d := if !(bankSeen d).valid ∧ !d.clo.fallback then raise .fallback [0, 1] { d with clo := { d.clo with fallback := true } }
    else if (bankSeen d).valid ∧ d.clo.fallback then raise .fallback [0, 0] { d with clo := { d.clo with fallback := false } } else d
  let c := ceilingNow d
  let short := if ackedDirty d ≤ c then none else (match d.clo.shortSince with | some x => some x | none => some t)
  { d with clo := { d.clo with ceil := c, shortSince := short } }

/-- CEILING_RECOMPUTE: every 100 µs. -/
def execCeilingRecompute (t : Nat) (s : State) : Host.Outcome State Fault Refusal :=
  s.on fun d => onlyIf (mainUp d && decide (d.clo.ceilDue ≤ t)) (fun d =>
    let d := setCeiling t (bleedOn (armList (rescueDrain d)))
    { d with clo := { d.clo with ceilDue := t + 100000 } }) (tick t d)

/-- HOLDUP_SHORT_TIMER: acknowledged dirty bytes above the ceiling for more than 100 ms, and each second after (R295). shortSince then moves so that the next record
falls a second later. -/
def execHoldupShortTimer (t : Nat) (s : State) : Host.Outcome State Fault Refusal :=
  s.on fun d => withSome d.clo.shortSince (fun a => onlyIf (mainUp d && decide (a + 100000000 < t) && decide (d.clo.ceil < ackedDirty d)) (fun d =>
    raise .holdupShort [ackedDirty d / 1048576, d.clo.ceil / 1048576] { d with clo := { d.clo with shortSince := some (t + 900000000) } })) (tick t d)

/-! ### The measurement (R298-R300) -/

/-- The first precondition that fails, as HLD_CAL.REASON names it (R299); 0: none. -/
def calBlock (t : Nat) (d : Dev) : Nat :=
  if 100 * d.hld.vhold < 95 * hldTarget d then 1
  else if d.kpr.pf ∨ !vinOk d ∨ !d.kpr.vinOkSince.any (fun a => decide (a + 1000000000 ≤ t)) then 2
  else if d.hld.bleeding ∨ d.hld.discharging ∨ d.kpr.buck then 3 else 0

/-- A measurement begins: the charger stops, VHOLD is locked in the coarse range (R298, R301). -/
def startCal (soft : Bool) (d : Dev) : Dev :=
  lockVhold true { d with hld := { d.hld with calSt := 2, soft := soft, first := false, refused := false, due := none, charging := false } }

/-- HLD_CTRL_CAL: refused at once where a precondition fails (R300); nothing while one runs. -/
def execHldCtrlCal (path : Path) (t : Nat) (s : State) : Host.Outcome State Fault Refusal :=
  s.onReg path fun d => onlyIf (reachable d path 0x101004 && decide (d.hld.calSt ≠ 2)) (fun d =>
    if calBlock t d = 0 then startCal true d
    else { d with hld := { d.hld with result := 2, reason := calBlock t d } }) (tick t d)

/-- HLD_CAL_SCHEDULE: the first measurement after a cold reset waits for its preconditions and records nothing; a later one that they hold up is retried each second, its
refusal recorded once (R299, R300). -/
def execHldCalSchedule (t : Nat) (s : State) : Host.Outcome State Fault Refusal :=
  s.on fun d => onlyIf (d.kpr.running && decide (d.hld.calSt ≠ 2) && (d.hld.first || d.hld.due.any fun a => decide (a ≤ t))) (fun d =>
    let why := calBlock t d
    if why = 0 then startCal false d
    else if d.hld.first then { d with hld := { d.hld with calSt := 1 } }
    else
      let d := if d.hld.refused then d else raiseP .calRefused [why] d
      { d with hld := { d.hld with calSt := 1, result := 2, reason := why, refused := true, due := some (t + 1000000000) } }) (tick t d)

/-- A measurement is over: the charger runs again, the range lock goes. -/
def calOver (d : Dev) : Dev :=
  lockVhold d.kpr.pf { d with hld := { d.hld with calSt := 0, soft := false, charging := decide (hldTarget d ≠ 0) && !d.kpr.pf && !d.hld.bleed } }

/-- A valid capacitance enters the history of the hold-up prediction (R494). -/
def noteCap (uf : Nat) (d : Dev) : Dev := { d with age := { d.age with bank := d.age.bank ++ [(opHours d, uf)] } }

/-- Capacitance in µF, from the averages V1 and V2 in µV: C = 0.1 A x 50 ms / (V1 - V2) (R298 steps 3, 4). Where VHOLD does not fall there is none, and 0 is no valid result. -/
def calCap (v1 v2 : Nat) : Nat := if v2 < v1 then 5000000000 / (v1 - v2) else 0

/-- ESR in 0.1 mΩ: the mean of the on-step's and the off-step's difference of 32-sample means, in µV, over 0.1 A (R298 steps 2, 3). -/
def calEsr (onStep offStep : Nat) : Nat := (onStep + offStep) / 20

/-- A measurement's end: cap in µF, esr in 0.1 mΩ. Valid within 10-1,000 % of the last valid result, or of 1 mF, with ESR below 1 Ω; else an abort of reason 6 (R298). -/
def hldCalDone (cap esr t : Nat) (d : Dev) : Dev :=
  let base := if d.hld.valid then d.hld.cap else 1000
  if base ≤ 10 * cap ∧ cap ≤ 10 * base ∧ esr < 10000 then
    let d := noteCap cap (calOver d)
    let d := raiseP .calDone [cap, esr] { d with hld := { d.hld with
      cap := cap, esr := esr, valid := true, validAt := t, result := 1, reason := 0, due := some (t + 3600000000000 * clampN 1 168 (fld (rd d 0x101000) 24 8)) } }
    if mainUp d then setCeiling t d else d
  else lockVhold d.kpr.pf (calAbort 6 t d)

/-- HLD_CAL_DONE: v: VHOLD before and after the sink's 50 ms; step: its step as the sink goes on and as it goes off; in µV. DESIGN CHOICE (notes/assumptions/75.md): both results are rounded down. -/
def execHldCalDone (v step : Nat × Nat) (t : Nat) (s : State) : Host.Outcome State Fault Refusal :=
  s.on fun d => onlyIf (d.kpr.running && decide (d.hld.calSt = 2)) (hldCalDone (calCap v.1 v.2) (calEsr step.1 step.2) t) (tick t d)

/-- HLD_CAL_ABORT: a precondition fails while a measurement runs, or the sink does (R300). -/
def execHldCalAbort (sinkFault : Bool) (t : Nat) (s : State) : Host.Outcome State Fault Refusal :=
  s.on fun d =>
    let d := tick t d
    let why := if d.kpr.pf then 4 else if sinkFault then 5 else calBlock t d
    onlyIf (d.kpr.running && decide (d.hld.calSt = 2) && decide (why ≠ 0)) (fun d => lockVhold d.kpr.pf (calAbort why t d)) d

/-! ### Bleeding (R303) -/

/-- HLD_CTRL_BLEED_SET: the ceiling is zero at once; a measurement in progress is aborted. -/
def execHldCtrlBleedSet (path : Path) (t : Nat) (s : State) : Host.Outcome State Fault Refusal :=
  s.onReg path fun d => onlyIf (reachable d path 0x101004 && !d.hld.bleed && !d.kpr.pf) (fun d =>
    let d := { d with hld := { d.hld with bleed := true, bleeding := true } }
    let d := if d.hld.calSt = 2 then lockVhold false (calAbort 3 t d) else d
    let d := if mainUp d then setCeiling t d else d
    bleedOn d) (tick t d)

/-- HLD_CTRL_BLEED_CLEAR: charging resumes. -/
def execHldCtrlBleedClear (path : Path) (t : Nat) (s : State) : Host.Outcome State Fault Refusal :=
  s.onReg path fun d => onlyIf (reachable d path 0x101004 && d.hld.bleed) (fun d =>
    { d with hld := { d.hld with bleed := false, bleeding := false, discharging := false, safe := false
                                 charging := decide (hldTarget d ≠ 0) && !d.kpr.pf && decide (d.hld.calSt ≠ 2) && (decide (d.kpr.state = 2) || decide (d.kpr.state = 5)) } }) (tick t d)

/-- BLEED_DONE: VHOLD, in mV, is below 5 V. -/
def execBleedDone (mv t : Nat) (s : State) : Host.Outcome State Fault Refusal :=
  s.on fun d => onlyIf (d.kpr.running && d.hld.bleeding && d.hld.discharging && decide (mv < 5000)) (fun d =>
    raiseP .bleedDone [mv] { d with hld := { d.hld with discharging := false, safe := true, vhold := mv } }) (tick t d)

/-- LEAKAGE_CHECK: once in each patrol period, never beside a measurement (R302). The spec gives its result no use. -/
def execLeakageCheck (t : Nat) (s : State) : Host.Outcome State Fault Refusal :=
  s.on fun d => onlyIf (d.kpr.running && decide (d.hld.calSt ≠ 2) && decide (d.hld.leakDue ≤ t)) (fun d =>
    { d with hld := { d.hld with leakDue := t + patrolDays d * dayNs } }) (tick t d)

/-! ### The ADC (R301) -/

/-- A conversion in mV: full scale 5 V fine, 42 V coarse. -/
def adcMv (coarse : Bool) (code : Nat) : Nat := code * (if coarse then 42000 else 5000) / 262144

/-- A channel after a conversion: the range changes only at its end, and not while it is locked. -/
def adcTake (code : Nat) (c : AdcChan) : AdcChan :=
  let mv := adcMv c.coarse code
  let c := { c with code := code, shown := c.coarse, rsw := c.next, next := false }
  if c.locked then c
  else if !c.coarse ∧ 4800 ≤ mv then { c with coarse := true, next := true }
  else if c.coarse ∧ mv < 4500 then { c with coarse := false, next := true }
  else c

/-- ADC_SAMPLE: channel 0 VIN, 1 VHOLD, 2 VAUX, 3 the sink current, whose one scale has no range. The sample of PMD_SAMPLE shows the range it was taken in (HLD_VHOLD
takes VHOLD samples without RSW). A VIN sample beyond its absolute maximum has no behaviour given (R535). -/
def adcSample (chan code : Nat) (d : Dev) : Dev :=
  let cs := d.hld.chans ++ List.replicate (4 - d.hld.chans.length) ({} : AdcChan)
  let c := cs.getD chan {}
  let d := { d with hld := { d.hld with chans := cs.modify chan fun c => if chan = 3 then { c with code := code } else adcTake code c } }
  if chan = 1 ∧ !c.next then { d with hld := { d.hld with vhold := adcMv c.coarse code } } else d

/-- ADC_SAMPLE. -/
def execAdcSample (chan code t : Nat) (s : State) : Host.Outcome State Fault Refusal :=
  let c := s.dev.hld.chans.getD 0 {}
  if chan = 0 ∧ s.dev.kpr.running ∧ beyondMax (adcMv c.coarse (code % 262144)) then .fault .absoluteMaximum
  else s.on fun d => onlyIf (d.kpr.running && decide (chan < 4)) (adcSample chan (code % 262144)) (tick t d)

end Sys2Proof.Machine
end

