-- ==== Sys2Proof/Machine/Startup.lean ====
section
/-!
DEFINITION. The journal's pages and checkpoints, and the start-up phases up to the recovery (spec/09_power_loss_and_startup.md R316-R322, R324, spec/12_security.md R435,
R436, spec/14_thermal_and_health.md R489, spec/07_media_management.md R220-R222, R233-R235).
-/

namespace Sys2Proof.Machine

/-! ### The journal (R316-R319) -/

/-- JNL_PAGE_TIMER: the page is full, or 100 µs have passed since its first record; it is programmed to both rows of its pair (R316). -/
def execJnlPageTimer (e : PageEnd) (s : State) : Host.Outcome State Fault Refusal :=
  s.on fun d => withSome d.jnl.tailAt (fun a => onlyIf (mainUp d && d.kpr.flush.isNone && (decide (a + 100000 ≤ e.t) || decide (512 ≤ tailRecords d.jnl.tail))) fun d => growJournal 1 (forAll e.fails (sysFailed 0) (programTail d))) (tick e.t d)

/-- JNL_CKPT_CFG: GIB of journal and MIN minutes (R317). -/
def ckptGib (d : Dev) : Nat := clampN 1 8 (fld (rd d 0x40400) 0 4)
def ckptMin (d : Dev) : Nat := clampN 1 60 (fld (rd d 0x40400) 16 6)

/-- Is a checkpoint due: minutes since the newest one began with a record since, or the journal written since then? -/
def ckptDue (t : Nat) (d : Dev) : Bool := match newestCkpt d with
  | none => true
  | some c => (decide (c.beganAt + 60000000000 * ckptMin d ≤ t) && decide (c.begin + 1 < d.jnl.seq)) ||
      decide (ckptGib d * 65536 ≤ (d.jnl.pages.filter fun p => decide (c.begin ≤ p)).length)

/-- CHECKPOINT_TIMER. -/
def execCheckpointTimer (t : Nat) (s : State) : Host.Outcome State Fault Refusal :=
  s.on fun d => onlyIf (mainUp d && d.clo.ready && !d.kpr.pf && d.kpr.flush.isNone && d.jnl.writing.isNone && ckptDue t d) (beginCkpt t) (tick t d)

/-- CHECKPOINT_DONE: the image is programmed; the end record is formed, the set becomes valid, the journal is trimmed (R318, R319). -/
def execCheckpointDone (e : PageEnd) (s : State) : Host.Outcome State Fault Refusal :=
  s.on fun d => onlyIf (mainUp d && !d.kpr.pf && d.kpr.flush.isNone && d.jnl.writing.isSome) (fun d => endCkpt (forAll e.fails (sysFailed 1) d)) (tick e.t d)

/-! ### Phases (R321) -/

/-- Move on to a phase. -/
def toPhase (n : Nat) (d : Dev) : Dev := { d with clo := { d.clo with phase := n } }

/-- Is the start at phase n? -/
def atPhase (d : Dev) (n : Nat) : Bool := mainUp d && !d.kpr.pf && decide (d.clo.phase = n)

/-- SRAM_FILL_DONE: phase 1 ends; the HBM sensor decides on the warm-up (R489). With JTAG_BSCAN the start holds here (R521); phase 1 also waits for the root
PLL (R470). -/
def execSramFillDone (temp : Int) (t : Nat) (s : State) : Host.Outcome State Fault Refusal :=
  s.on fun d => onlyIf (atPhase d 1 && d.pwr.pllLock && !d.id.bscan) (fun d =>
    toPhase (if temp < 0 then 2 else 3) { d with thm := { d.thm with temps := tset d.thm.temps 48 temp }, clo := { d.clo with warmFrom := t } }) (tick t d)

/-- WARMUP_DONE: the stack reads 0 °C. -/
def execWarmupDone (temp : Int) (t : Nat) (s : State) : Host.Outcome State Fault Refusal :=
  s.on fun d => onlyIf (atPhase d 2 && decide (0 ≤ temp)) (toPhase 3) (tick t d)

/-- WARMUP_TIMEOUT: 180 s without it. -/
def execWarmupTimeout (temp : Int) (t : Nat) (s : State) : Host.Outcome State Fault Refusal :=
  s.on fun d => onlyIf (atPhase d 2 && decide (d.clo.warmFrom + 180000000000 ≤ t) && decide (temp < 0)) (fun d => toPhase 15 (raise .warmupTimeout [twos 32 temp] d)) (tick t d)

/-- HBM_FILL_DONE: HBM is laid out with the region reservation now in force (R407, R408); the boot core starts and releases the xSPI pads (R454). -/
def execHbmFillDone (t : Nat) (s : State) : Host.Outcome State Fault Refusal :=
  s.on fun d => onlyIf (atPhase d 3) (fun d => toPhase 4 { d with ecc := { d.ecc with hbmStat := 3, cmapRes := min 16384 (fld (rd d 0x60004) 0 15) } }) (tick t d)

/-- Does an image pass (R436)? good: its public key, hash and signature verify. -/
def imagePasses (d : Dev) (i : BootImage) : Bool := i.good && !bit d.sec.revoked i.slot && decide (d.sec.svnFuse ≤ i.svn)

/-- The order in which the images are tried: the higher SVN first, A on a tie. -/
def imageOrder (a b : Option BootImage) : List (Nat × BootImage) := match a, b with
  | some x, some y => if x.svn < y.svn then [(1, y), (0, x)] else [(0, x), (1, y)]
  | some x, none => [(0, x)]
  | none, some y => [(1, y)]
  | none, none => []

/-- SEC_BOOT (R436, R437). -/
def secBoot (d : Dev) : Nat :=
  d.clo.image + 2 * b2n d.sec.aValid + 4 * b2n d.sec.bValid + 16 * d.sec.slot + 2 ^ 8 * d.sec.svn + 2 ^ 16 * d.sec.svnFuse + 2 ^ 24 * d.sec.revoked

/-- Pools of n buffers each, one after another in HBM (R115). -/
def makePools : Nat → List (Nat × Nat) → List Pool
  | _, [] => []
  | base, (size, n) :: r => { base := base, size := size, total := n, lost := 0, free := (List.range n).map fun i => base + size * i, fallback := 0 } :: makePools (base + size * n) r

/-- The pools as the image's configuration sizes them. -/
def sizePools (ns : List Nat) : List Pool := makePools 0 ([512, 4096, 16384, 65536, 1048576].zipIdx.map fun e => (e.1, ns.getD e.2 0))

/-- BOOT_VERIFY_DONE: the image that passes first starts; the other pads leave their safe states (R454); links of present groups train. A lowering that was cut short goes on
before phase 5 (R433). With none the device enters phase 15 (R324, R436). -/
def bootVerifyDone (a b : Option BootImage) (pools : List Nat) (t : Nat) (d : Dev) : Dev :=
  let order := imageOrder a b
  match order.find? fun e => imagePasses d e.2 with
  | none =>
    let d := { d with sec := { d.sec with aValid := false, bValid := false } }
    toPhase 15 (raise .recoveryFailed [4] (raise .bootFail [secBoot d] d))
  | some (n, i) =>
    let pass := fun (x : Option BootImage) => match x with | some i => imagePasses d i | none => false
    let tried := order.head?.map (·.1)
    let d := { d with
      sec := { d.sec with aValid := pass a && (decide (n = 0) || decide (tried = some 0)), bValid := if n = 0 ∧ tried = some 0 then true else pass b, slot := i.slot, svn := i.svn }
      clo := { d.clo with image := n }
      pwr := { d.pwr with padsSafe := false }
      bpm := { d.bpm with pools := sizePools pools }
      mgt := { d.mgt with gpio := i.gpio % 65536 } }
    let d := raise .bootImage [n, i.svn, i.version] d
    if d.sec.erasePend then { d with sec := { d.sec with lowering := true } }
    else toPhase 5 (forAll (List.range (8 * linkGroups d)) (fun l => fullTraining l t) d)

/-- BOOT_VERIFY_DONE. -/
def execBootVerifyDone (a b : Option BootImage) (pools : List Nat) (t : Nat) (s : State) : Host.Outcome State Fault Refusal :=
  s.on fun d => onlyIf (atPhase d 4 && !d.sec.lowering)
    (bootVerifyDone ((tget d.sec.slots 0).orElse fun _ => a) ((tget d.sec.slots 1).orElse fun _ => b) pools t) (tick t d)

/-! ### Discovery (R220-R222) -/

/-- A die's wear figure is missing, or is there again: the record of entering or leaving the fallback (R29). -/
def noteWear (die : Nat) (valid : Bool) (d : Dev) : Dev :=
  if valid = !d.hl.wearless.contains die then d
  else raise .fallback [2, b2n (!valid), die] { d with hl := { d.hl with wearless := if valid then d.hl.wearless.filter (fun x => decide (x ≠ die)) else d.hl.wearless ++ [die] } }

/-- Dies found: on links that trained, what GEOMETRY shows against the qualification entries. noWear: dies whose wear figure cannot be read (R29). -/
def discoverDie (noWear : List Nat) (die : Nat) (d : Dev) : Dev :=
  let k := linkAt d (linkOf die)
  if k.st ≠ lsActive ∨ !bit k.present (die % 8) then d else
    match geoProfile (geoTarget k.geo (die % 8)) with
    | none => raise .mediaUnknown [linkOf die, die % 8] { d with alm := { d.alm with dies := tset d.alm.dies die {} } }
    | some p =>
      let wear := !noWear.contains die
      noteWear die wear { d with alm := { d.alm with dies := tset d.alm.dies die { profile := p, included := true, wearValid := wear } } }

/-- Identities seen are kept; the factory bad beds of a die discovered for the first time are Retired (R226, R366), and count towards the profile's limit (R257). Done when the media have been
recovered, or before they are formatted. -/
def settleDie (die : Nat) (d : Dev) : Dev :=
  let k := linkAt d (linkOf die)
  let d := { d with hl := { d.hl with known := tset d.hl.known die (slice (geoTarget k.geo (die % 8)) 0 8) } }
  match tget k.badmaps (die % 8), tget d.alm.dies die with
  | some m, some x => if !x.included then d else
      let bad := (List.range (theProfile x.profile).beds).filter fun b => bit (leAt m (b / 8) 1) (b % 8)
      wornCheck die <| forAll bad (fun b => putBed die b fun e => { e with st := .retired, factory := true }) (onLink (linkOf die) (fun k => { k with badmaps := tdel k.badmaps (die % 8) }) d)
  | _, _ => d

/-- Dies found, in order. -/
def foundDies (d : Dev) : List Nat := d.alm.dies.map (·.1)

/-- A die that was worn out is so again at the next start: its retired beds are still there (R257). -/
def wornAgain (die : Nat) (d : Dev) : Dev := onDie die (fun x => { x with worn := x.included && decide ((theProfile x.profile).retire ≤ retiredBeds d die) }) d

/-! ### System rows (R233-R235) -/

/-- MiB that a checkpoint set needs: the map image with 50 % spare (R234, R407); MiB that the rows of both sets hold. -/
def ckptNeed (d : Dev) : Nat := cdiv (3 * (2048 + 512 + 128 + 32 + hbmMap d)) 2
def ckptMib (d : Dev) : Nat := sumL ((sysRows d 1).map fun e => rescueCap e.2)

/-- A checkpoint row. -/
def ckptRow (d : Dev) : Dev :=
  let w := sysWant 16 (hasQ d) 1
  match pickSys d w (ckptSize d) with
  | some dies => eraseSys (makeRow w dies none d).2
  | none => d

/-- Rows are added, one to each set, until both hold the image: the conventional map's size may differ from start to start (R407). -/
def growCkpt : Nat → Dev → Dev
  | 0, d => d
  | f + 1, d => if ckptMib d < 2 * ckptNeed d then growCkpt f (ckptRow (ckptRow d)) else d

/-- The rescue bed of a link: on the lowest target whose die may take a bed (R184, R235). -/
def rescueDie (d : Dev) (l : Nat) : Option Nat := ((List.range 8).map fun i => 8 * l + i).find? fun x => dieEligible d none x

/-- One row of n dies, from the groups that are not too hot and have the most beds left, and what is left. -/
def rescuePick (d : Dev) (n : Nat) (groups : List (List Nat)) : Option (List Nat × List (List Nat)) :=
  let hot := fun (g : List Nat) => b2n ((g.head?.map fun x => lgHot d (lgOf x)).getD true)
  let s := sortBy (fun a b => decide (hot a < hot b) || (decide (hot a = hot b) && decide (b.length < a.length))) groups
  if (s.filter fun g => decide (g ≠ [])).length < n then none
  else some ((s.take n).filterMap List.head?, (s.take n).map List.tail ++ s.drop n)

/-- As many rescue rows as the beds allow; the remainder stays in spare beds, which no row has (R235). -/
def rescueForm (w : Want) (n : Nat) : Nat → List (List Nat) → Dev → Dev
  | 0, _, d => d
  | fuel + 1, gs, d => match rescuePick d n gs with
    | some (dies, gs) => rescueForm w n fuel gs (makeRow w (byGroup dies) none d).2
    | none => forAll (gs.flatMap id) (fun x => placeBed 0 0 x 0 true) d

/-- The rescue rows: one bed of each link, each row of one profile (R223, R235). -/
def makeRescue (d : Dev) : Dev :=
  let groups := (List.range (linkGroups d)).map fun g => (List.range 8).filterMap fun i => rescueDie d (8 * g + i)
  forAll [1, 2] (fun p => rescueForm (sysWant 16 (hasQ d) 2) (rowSize (hasQ d) 16) (8 * linkGroups d + 1) (groups.map fun g => g.filter fun x => decide (dieProfile d x = p))) d

/-! ### Ready (R325, R328) -/

/-- The device is ready: it serves; a warm start that kept QM_ADMIN_CFG.ENABLE starts the admin ring anew; a request for S3 made before takes effect (R462). -/
def goReady (t : Nat) (d : Dev) : Dev :=
  let d := { d with sec := { d.sec with sskSeq := d.jnl.seq } }
  let d := eraseSys (growCkpt 32 (growJournal 8 (forAll (foundDies d) settleDie (forAll (foundDies d) wornAgain d))))
  let d := { d with
    clo := { d.clo with phase := 9, ready := true, ceilDue := t }
    med := { d.med with hourDue := max d.med.hourDue (t / 3600000000000 * 3600000000000) }
    qm := { d.qm with telemDue := t }
    alm := { d.alm with periodAt := t / 2000000 * 2000000, missDue := t + 1000000000 } }
  let d := if fld (rd d 0x90008) 0 2 = 3 then onKpr (fun k => { k with shutdown := true, s3 := true }) d else d
  if bit (rd d 0x1014) 0 ∧ !d.qm.adminOn ∧ !d.qm.adminErr then adminSetup 0 d else d

/-- Format the media (R322): every bed Released, the journal, checkpoint and rescue areas built, JR_MARK of kind 2, an empty checkpoint. Keys of plots that are gone are
destroyed (R418). -/
def format (t : Nat) (d : Dev) : Dev :=
  let d := { d with
    maps := {}
    jnl := { seq := 1, formatted := true }
    sec := { d.sec with store := [], wiped := d.sec.wiped ++ d.sec.store.map (·.1) }
    med := { d.med with toErase := [], rebuilds := [], failedLg := [] } }
  let d := makeRescue (growCkpt 32 (growJournal 8 (forAll (foundDies d) settleDie d)))
  let d := { d with jnl := { d.jnl with used := (rescueRows d).map (·.1) } }
  let d := record (.mark 2 d.kpr.pwrcyc d.clo.image) d
  goReady t (endCkpt (beginCkpt t { d with clo := { d.clo with format := true } }))

/-- Are there system headers of the device on the beds that were read (R322)? foreign: dies whose headers fail their CRC or name another device, which count as absent. -/
def headersFound (foreign : List Nat) (d : Dev) : Bool :=
  d.jnl.formatted && [d.jnl.ckpt0, d.jnl.ckpt1].any fun c => c.any fun c => c.image.rows.any fun r => decide (r.2.kind = 2) &&
    r.2.pos.any fun p => (match tget d.alm.dies p.1 with | some x => x.included | none => false) && !foreign.contains p.1

/-- What phase 5 finds: dies and their profiles; decoder clusters that fail their self-test are fenced (R220, R388). -/
def discovered (noWear clusters : List Nat) (d : Dev) : Dev :=
  forAll (clusters.filter (· < 32)) fenceCluster (forAll (List.range (64 * linkGroups d)) (discoverDie noWear) d)

/-- DISCOVERY_DONE: links that have not trained, or whose dies are unknown, are left out; the media are formatted or recovered (R322). clusters: decoder clusters
that fail their self-test at start-up (R388). -/
def execDiscoveryDone (dies : DieNews) (clusters : List Nat) (t : Nat) (s : State) : Host.Outcome State Fault Refusal :=
  s.on fun d => onlyIf (atPhase d 5) (fun d =>
    let d := discovered dies.noWear clusters d
    if headersFound dies.foreign d then toPhase 6 d else format t d) (tick t d)

/-! ### Checkpoint load (R323, R324) -/

/-- CHECKPOINT_LOAD_DONE: the valid checkpoint with the higher number, else the older one; ok0, ok1: whether each set reads in full. -/
def checkpointLoadDone (ok0 ok1 : Bool) (d : Dev) : Dev :=
  let usable := fun (c : Option Ckpt) (ok : Bool) => if ok then c else none
  let best := newestCkpt { d with jnl := { d.jnl with ckpt0 := usable d.jnl.ckpt0 ok0, ckpt1 := usable d.jnl.ckpt1 ok1 } }
  match best with
  | none => toPhase 15 (raise .recoveryFailed [6] d)
  | some c =>
    let old := (newestCkpt d).any fun n => decide (n.num ≠ c.num)
    let d := { d with maps := c.image, jnl := { d.jnl with replayFrom := c.begin }, clo := { d.clo with ckptOld := old } }
    toPhase 7 (if old then raise .ckptFallback [c.num] d else d)

/-- CHECKPOINT_LOAD_DONE. -/
def execCheckpointLoadDone (ok0 ok1 : Bool) (t : Nat) (s : State) : Host.Outcome State Fault Refusal :=
  s.on fun d => onlyIf (atPhase d 6) (checkpointLoadDone ok0 ok1) (tick t d)

end Sys2Proof.Machine
end

