-- ==== Sys2Proof/Machine/Recovery.lean ====
section
/-!
DEFINITION. Recovery (spec/09_power_loss_and_startup.md R311, R315, R323, spec/12_security.md R418, spec/08_rows_and_parity.md R272, R274, spec/10_herarn_links.md R561,
spec/11_integrity_and_memory.md R408): the journal's replay, the rescued content, write pointers, stripes that go on, members that are gone, ready.
-/

namespace Sys2Proof.Machine

/-! ### Replay (R312, R315, R323) -/

/-- Apply records in order. -/
def applyAll (l : List (Nat × JRec)) (m : Maps) : Maps := l.foldl (fun m e => applyRec e.2 m) m

/-- The records that replay applies: from the checkpoint's begin, in sequence order, up to the first sequence found in no source. -/
def replayable (next : Nat) (gap : Option Nat) : List (Nat × JRec) → List (Nat × JRec)
  | [] => []
  | e :: r =>
    if e.1 < next then replayable next gap r
    else if e.1 = next ∧ (gap.all fun g => decide (e.1 + e.2.parts ≤ g)) = true then e :: replayable (next + e.2.parts) gap r
    else []

/-- Keys and plots are reconciled (R418). -/
def reconcileKeys (d : Dev) : Dev :=
  let d := { d with sec := { d.sec with store := tfilter d.sec.store fun p _ => thas d.maps.plots p, wiped := d.sec.wiped ++ (d.sec.store.filter fun e => !thas d.maps.plots e.1).map (·.1) } }
  forAll ((d.maps.plots.filter fun e => !thas d.sec.store e.1).map (·.1)) (fun p d => erasePlot p (raise .keyMissing [p] d)) d

/-- JOURNAL_REPLAY_DONE. gap: the first sequence found in neither mirror nor rescue run, records beyond which are torn; repaired: copies repaired from the other
mirror; unknown: records of reserved types skipped, with their counts (R314, R316). -/
def journalReplayDone (gap : Option Nat) (repaired : Nat) (unknown : List (Nat × Nat)) (d : Dev) : Dev :=
  let all := d.jnl.prog ++ d.jnl.rescue.tail
  let mine := all.filter fun e => decide (d.jnl.replayFrom ≤ e.1)
  let good := replayable d.jnl.replayFrom gap all
  let d := { d with
    maps := applyAll good d.maps
    jnl := { d.jnl with
      recRecords := tailRecords good, recTorn := tailRecords mine - tailRecords good, mirrorFix := satAdd 32 d.jnl.mirrorFix repaired
      prog := d.jnl.prog.filter fun e => decide (e.1 < d.jnl.replayFrom) || good.contains e
      tail := good.filter fun e => !d.jnl.prog.contains e, tailAt := if good.all (fun e => d.jnl.prog.contains e) then none else some d.io.now
      seq := match good.getLast? with | some e => e.1 + e.2.parts | none => d.jnl.replayFrom } }
  let d := forAll (unknown.filter fun e => decide (0x12 < e.1) && decide (e.1 < 256) && decide (0 < e.2)) (fun e => raise .jnlUnknown [e.1, e.2]) d
  toPhase 8 (reconcileKeys d)

/-- JOURNAL_REPLAY_DONE. -/
def execJournalReplayDone (gap : Option Nat) (repaired : Nat) (unknown : List (Nat × Nat)) (t : Nat) (s : State) : Host.Outcome State Fault Refusal :=
  s.on fun d => onlyIf (atPhase d 7) (journalReplayDone gap repaired unknown) (tick t d)

/-! ### Rescued content (R311, R323) -/

/-- Pages of a row that hold something. -/
def contentPages (d : Dev) (r : Row) : Nat :=
  d.jnl.flash.foldl (fun m e => if r.pos.any (fun p => decide (bkey p.1 p.2 = e.1 / 2 ^ 20)) then max m (e.1 / 16 % 65536 + 1) else m) 0

/-- Stripes of a row with a single slot are known by their contents, not by records. -/
def ownStripes (row : Nat) (r : Row) (d : Dev) : Dev :=
  if r.kind = 2 ∨ slotsOf r.mc ≠ 1 then d else
    let rescued := (d.med.stripes.filter fun e => decide (e.1 / 65536 = row)).foldl (fun m e => max m (e.1 % 65536 + 1)) 0
    let n := max (r.assigned.getD 0 []).length (max (contentPages d r) rescued)
    onRow row (fun r => { r with assigned := [List.range n] }) d

/-- What a slot's block really holds: on flash, in the rescued blocks, rebuilt; none: found nowhere. -/
def blockFound (d : Dev) (row : Nat) (r : Row) (slot o plot lba : Nat) : Option Payload := match buffered d plot lba with
  | some b => some b.pay
  | none => match placeOf r slot o with
    | none => none
    | some (s, b) =>
      if isLost d row s b then some (lostMarker plot lba) else
        let x := spotOf (theProfile r.profile) r.k b
        match memberPayload d row r [] s x.q x.c (posOfRole r.n x.j s) with
        | some v => if guardOk v plot lba then some v else none
        | none => none

/-- Offsets of a zone's written blocks that are found nowhere, in order. -/
def missingOf (d : Dev) (plot : Nat) (p : Plot) (z : Nat) (v : Zone) : List Nat := match v.row with
  | none => []
  | some row => match rowAt d row with
    | none => []
    | some r => (List.range (min v.written v.wp)).filter fun o => (blockFound d row r v.slot o plot (zoneLba p z o)).isNone

/-- Write blocks of a slot as lost. -/
def loseBlocks (row slot : Nat) (os : List Nat) (d : Dev) : Dev := forAll os (fun o d => match rowAt d row with
  | none => d
  | some r =>
    let ps := zeroAsOne r.perStripe
    let x := stripeFor row slot (o / ps) r d
    markLost row x.1 [o % ps] x.2) d

/-- After a short flush a zone keeps its write pointer; what is missing is lost and the zone is Read-Only (R311). -/
def shortZone (key : Nat) (v : Zone) (miss : List Nat) (d : Dev) : Dev :=
  if miss = [] then d else
    let d := withSome v.row (fun row => loseBlocks row v.slot miss) d
    match tget d.maps.zones key with
    | some z => if z.st = .offline then d else putZone (key / 2 ^ 32) (key % 2 ^ 32) { z with st := .readOnly, lost := true } d
    | none => d

/-- After a complete flush, or where nothing acknowledged can be missing, the write pointer goes to the end of the longest prefix found (R55, R309, R311). -/
def prefixZone (key : Nat) (v : Zone) (miss : List Nat) (d : Dev) : Dev := match miss with
  | [] => d
  | m :: _ =>
    let plot := key / 2 ^ 32
    let z := key % 2 ^ 32
    if v.st = .readOnly ∨ v.st = .offline then onMaps (fun mm => { mm with zones := tset mm.zones key { v with written := m } }) d
    else if v.st = .full ∧ v.written < v.wp then putZone plot z { v with written := m } d
    else if m = 0 then
      match tget d.maps.plots plot with
      | some p => putZone plot z emptyZone (releaseShare plot p z { v with wp := 0, written := 0 } d)
      | none => d
    else
      let st : ZState := if v.st = .full then .closed else v.st
      putZone plot z { v with st := st, wp := m, written := m } d

/-- Blocks rescued as lost markers are lost (R404). -/
def rescuedLost (d : Dev) : Dev := forAll (d.clo.buf.filter fun e => pLost e.2.pay) (fun e d => match tget d.maps.plots e.2.plot with
  | none => d
  | some p =>
    if p.region then
      match tget d.maps.cmap (lkey e.2.plot e.2.lba) with
      | some c => withSome (tget d.maps.rslots (e.2.plot * 16384 + c / 2 ^ 22)) (fun row => loseBlocks row 0 [c % 2 ^ 22]) d
      | none => d
    else
      let z := zoneOf d e.2.plot (e.2.lba / p.span)
      withSome z.row (fun row => loseBlocks row z.slot [e.2.lba % p.span]) d) d

/-- Blocks of one region found nowhere: LBA with its place. -/
def regionMissing (d : Dev) : List (Nat × Nat × Nat × Nat) := d.maps.cmap.filterMap fun e =>
  let plot := e.1 / 2 ^ 48
  match tget d.maps.rslots (plot * 16384 + e.2 / 2 ^ 22) with
  | none => none
  | some row => match rowAt d row with
    | none => none
    | some r => if (blockFound d row r 0 (e.2 % 2 ^ 22) plot (e.1 % 2 ^ 48)).isNone then some (plot, e.1 % 2 ^ 48, row, e.2 % 2 ^ 22) else none

/-- Stripes of a rescue row that hold rescued blocks. -/
def rescueStripes (d : Dev) (row : Nat) (r : Row) : Nat :=
  d.clo.buf.foldl (fun m e => match e.2.at_ with | some x => if x.1 = row then max m (x.2 / zeroAsOne r.perStripe + 1) else m | none => m) 0

/-- The rescue rows: those with rescued blocks keep them and take no more until they have been erased; the others that were written are erased again (R236, R323). -/
def rescueAgain (d : Dev) : Dev := forAll (rescueRows d) (fun e d =>
  let n := rescueStripes d e.1 e.2
  if 0 < n then onRow e.1 (fun r => { r with valid := rescueBlocks r, assigned := [List.range n] }) d
  else
    let d := onRow e.1 (fun r => { r with valid := 0, assigned := [[]] }) d
    if d.jnl.used.contains e.1 then { d with med := { d.med with toErase := d.med.toErase ++ e.2.pos } } else d) d

/-! ### Stripes that go on (R264, R269, R311) -/

/-- The zone whose share a slot is. -/
def slotZone (d : Dev) (row : Nat) (r : Row) (slot : Nat) : Option (Nat × Zone) :=
  d.maps.zones.find? fun e => decide (e.2.row = some row) && decide (e.2.slot = slot) && decide (e.1 / 2 ^ 32 = r.plot)

/-- The plot and LBA of the block written at a slot's offset; none: a filler. A region's by its map. -/
def ownerOf (d : Dev) (row : Nat) (r : Row) (slot o : Nat) : Option (Nat × Nat) :=
  if r.kind = 1 then
    match d.maps.rslots.find? fun e => decide (e.1 / 16384 = r.plot) && decide (e.2 = row) with
    | some s => (d.maps.cmap.find? fun e => decide (e.1 / 2 ^ 48 = r.plot) && decide (e.2 = (s.1 % 16384) * 2 ^ 22 + o)).map fun e => (r.plot, e.1 % 2 ^ 48)
    | none => none
  else
    match slotZone d row r slot, tget d.maps.plots r.plot with
    | some z, some p => if o < z.2.written then some (r.plot, zoneLba p (z.1 % 2 ^ 32) o) else none
    | _, _ => none

/-- The LBA that a filler at a slot's offset carries. -/
def fillerLba (d : Dev) (row : Nat) (r : Row) (slot o : Nat) : Nat := match slotZone d row r slot, tget d.maps.plots r.plot with
  | some z, some p => zoneLba p (z.1 % 2 ^ 32) o
  | _, _ => o

/-- How many blocks a slot has had placed: those below an active zone's write pointer; the whole of its stripes where nothing more will be written, and in a region row, whose last
stripe is closed with fillers. -/
def placedIn (d : Dev) (row : Nat) (r : Row) (slot : Nat) : Nat :=
  let all := (r.assigned.getD slot []).length * r.perStripe
  if r.kind = 1 then all else
    match slotZone d row r slot with
    | some z => if z.2.st.active then min all z.2.wp else all
    | none => all

/-- A block of an incomplete stripe as recovery finds it, with its budget position: in the rescued blocks, on flash, a filler; one found nowhere goes into the write buffer as a lost
marker (R311). -/
def foundBlock (row : Nat) (r : Row) (slot rank s b : Nat) (d : Dev) : Option Nat × Payload × Dev :=
  let x := spotOf (theProfile r.profile) r.k b
  let p := r.dieBed (posOfRole r.n x.j s)
  let o := rank * zeroAsOne r.perStripe + b
  match ownerOf d row r slot o, onFlash d p.1 p.2 s x.q x.c with
  | none, some v => (none, v, d)
  | none, none => (none, fillerBlock r.plot (fillerLba d row r slot o), d)
  | some _, some v => (some (2 ^ 48), v, d)
  | some w, none => match (d.clo.buf.filter fun e => decide (e.2.plot = w.1) && decide (e.2.lba = w.2)).getLast? with
    | some h => (some h.1, h.2.pay, d)
    | none =>
      let v := (blockFound d row r slot o w.1 w.2).getD (lostMarker w.1 w.2)
      let i := d.clo.nextPos
      (some i, v, { d with clo := { d.clo with nextPos := i + 1, ackPos := i + 1, buf := tset d.clo.buf i { plot := w.1, lba := w.2, pay := v, spilled := false } } })

/-- A stripe as recovery finds it: its blocks, running parity computed from them, the pages on flash (R311). One of fillers alone is marked so (R266). -/
def foundStripe (row : Nat) (r : Row) (slot rank s n : Nat) (d : Dev) : Stripe × Dev :=
  let x := (List.range n).foldl (fun (a : Stripe × Dev) b =>
    let y := foundBlock row r slot rank s b a.2
    (addBlock (theProfile r.profile) r.k b slot rank y.1 y.2.1 d.io.now a.1, y.2.2)) ({}, d)
  let st : Stripe := { x.1 with slot := slot, rank := rank, progd := (List.range r.n).filter fun pos => let y := r.dieBed pos; (onFlash d y.1 y.2 s 0 0).isSome }
  let fill := decide (n = r.perStripe) && (slotZone d row r slot).isSome && st.blocks.all Option.isNone
  (if fill then { st with fill := true, par := [], lba0 := fillerLba d row r slot (rank * r.perStripe) } else st, x.2)

/-- Is a member's page of a stripe on flash, or to be rebuilt? -/
def pageThere (d : Dev) (row : Nat) (r : Row) (st : Stripe) (pos : Nat) : Bool := st.progd.contains pos || memberDead d row pos (r.dieBed pos).1

/-- Stripes of an open row that are not complete, and the programs they wait for; slots closed for writing are filled on (R266). -/
def resumeRow (row : Nat) (r : Row) (d : Dev) : Dev :=
  if r.kind = 2 ∨ !r.openNow then d else
  let ps := zeroAsOne r.perStripe
  let d := forAll r.assigned.zipIdx (fun a d => forAll a.1.zipIdx (fun e d =>
    let n := min ps (placedIn d row r a.2 - e.2 * ps)
    if n = 0 then d else
      let x := foundStripe row r a.2 e.2 e.1 n d
      if n = ps ∧ (List.range r.n).all (pageThere d row r x.1) then d
      else { x.2 with med := { x.2.med with stripes := tset x.2.med.stripes (skey row e.1) x.1 } }) d) d
  let d := forAll (List.range r.n) (fun pos => resumePrograms row pos) d
  trySeal row (forAll r.assigned.zipIdx (fun a d =>
    if slotClosed d row r a.2 ∧ !slotBusy d row a.2 then fillNext row a.2 (fillerLba d row r a.2 (a.1.length * ps)) d else d) d)

/-- Beds of an open row that have no page of it yet are erased before their first program (R226). -/
def eraseBlank (r : Row) (d : Dev) : Dev :=
  if r.kind = 2 ∨ !r.openNow then d else
    let blank := r.pos.filter fun p => !(d.jnl.flash.any fun e => decide (e.1 / 2 ^ 20 = bkey p.1 p.2)) && !d.med.toErase.contains p
    { d with med := { d.med with toErase := d.med.toErase ++ blank } }

/-- Counts that the journal does not keep: valid blocks, blocks placed in region rows; a weeding that was under way starts again. -/
def recount (row : Nat) (d : Dev) : Dev :=
  onRow row (fun r =>
    if r.kind = 2 then r else
      let valid := if r.kind = 1 then (d.maps.cmap.filter fun e => decide (e.1 / 2 ^ 48 = r.plot) && decide (tget d.maps.rslots (r.plot * 16384 + e.2 / 2 ^ 22) = some row)).length
        else sumL ((d.maps.zones.filter fun e => decide (e.2.row = some row) && decide (e.1 / 2 ^ 32 = r.plot)).map fun e => min e.2.written e.2.wp)
      { r with valid := valid, filled := if r.kind = 1 then (r.assigned.getD 0 []).length * r.perStripe else r.filled
               st := if r.st = .weeding then .isSealed else r.st }) d

/-- Is an open row the partial destination of a move that was cut short (R247): no zone stands on it, or no block of its region lies in it yet? -/
def partialDest (d : Dev) (row : Nat) (r : Row) : Bool :=
  r.openNow && decide (r.valid = 0) && (if r.kind = 1 then decide (r.role = 1) else !(d.maps.zones.any fun z => decide (z.2.row = some row)))

/-- Rows that nothing needs any more. -/
def condemnDead (d : Dev) : Dev := forAll d.maps.rows (fun e d =>
  if e.2.kind ≠ 2 ∧ ((e.2.st = .isSealed ∧ e.2.valid = 0) ∨ partialDest d e.1 e.2 ∨ !thas d.maps.plots e.2.plot) then condemn e.1 d else d) d

/-- Bound sets, rebuilt from the rows that name them (R312). -/
def restoreSets (d : Dev) : Dev :=
  let b := d.maps.rows.foldl (fun t e => match e.2.bset with | some i => tset t i (e.2.pos.map (·.1)) | none => t) ([] : Tbl (List Nat))
  { d with alm := { d.alm with bsets := b, bsetHigh := b.length } }

/-! ### Members that are gone (R223, R272, R274, R561) -/

/-- Dies that failed with their link and are found again with their identity are in service. -/
def diesBack (d : Dev) : Dev := forAll (d.maps.dieSvc.filter fun e => decide (e.2 = 2)) (fun e d =>
  let k := linkAt d (linkOf e.1)
  let same : Bool := match tget d.hl.known (e.1) with | some i => decide (slice (geoTarget k.geo (e.1 % 8)) 0 8 = i) | none => true
  if thas d.alm.dies e.1 ∧ same then dieBack e.1 d else d) d

/-- The transplant that a bed's entry shows, under the first cause that its state still tells (R227, R248; notes/assumptions/19.md). -/
def xplAgain (row pos : Nat) (r : Row) (d : Dev) : Dev :=
  let p := r.dieBed pos
  let b := bedOf d p.1 p.2
  if b.st = .suspect ∧ r.st = .isSealed then queueXpl row pos 3 true d
  else if b.xpl then ewCheck p.1 p.2 (readCheck p.1 p.2 (queueXpl row pos (if thas d.maps.fixes (bkey p.1 p.2) then 4 else 1) true d))
  else d

/-- Dies that rows stand on and that are absent or excluded are failed members, one record each; they count as failed with their link, for they may return (R223, R272, R561). Positions of
failed dies, of beds retired in their rows and of beds whose die had failed wait for their rebuild, and transplants for their turn. -/
def membersGone (d : Dev) : Dev :=
  let stood := ((d.maps.rows.flatMap fun e => e.2.pos.map (·.1)).eraseDups)
  let gone := stood.filter fun x => !diePresent d x && decide (tgetD d.maps.dieSvc x 0 = 0)
  let d := forAll gone (fun x => declareFailed 0 x (fun y => decide (y = x)) (record (.dieState x 2))) d
  let d := queueRebuilds (fun x => decide (tgetD d.maps.dieSvc x 0 ≠ 0)) d
  forAll d.maps.rows (fun e => forAll e.2.pos.zipIdx fun x d =>
    let b := bedOf d x.1.1 x.1.2
    if b.st = .retired ∨ b.gone then queueRebuild e.1 x.2 d else if e.2.kind ≠ 2 then xplAgain e.1 x.2 e.2 d else d) d

/-! ### Rescue intake -/

/-- Is what the last stop left short: blocks may have been acknowledged and no seal says that they are all there (R311)? -/
def flushShort (r : Rescue) : Bool := r.ackSeal.isNone && !r.unarmed

/-- RESCUE_INTAKE_DONE: the rescued content is in place; R311; the mark; rebuilds; ready. -/
def rescueIntakeDone (t : Nat) (d : Dev) : Dev :=
  let r := d.jnl.rescue
  let short := flushShort r
  let d := { d with
    maps := { d.maps with zones := r.zones.foldl (fun z e => if thas d.maps.plots (e.1 / 2 ^ 32) then tset z e.1 e.2 else z) d.maps.zones }
    clo := { d.clo with
      buf := tmap (tfilter r.blocks fun _ b => thas d.maps.plots b.plot) fun _ b => { b with spilled := true }
      nextPos := r.blocks.foldl (fun m e => max m (e.1 + 1)) 0, ackPos := r.blocks.foldl (fun m e => max m (e.1 + 1)) 0 }
    med := { d.med with stripes := tfilter r.stripes fun k _ => thas d.maps.rows (k / 65536) } }
  let d := forAll d.maps.rows (fun e => ownStripes e.1 e.2) (diesBack d)
  let miss := d.maps.zones.filterMap fun e => match tget d.maps.plots (e.1 / 2 ^ 32) with
    | some p => let m := missingOf d (e.1 / 2 ^ 32) p (e.1 % 2 ^ 32) e.2; if m = [] then none else some (e.1, e.2, m)
    | none => none
  let reg := regionMissing d
  let d := { d with med := { d.med with stripes := [] } }
  let d := forAll miss (fun e => (if short then shortZone else prefixZone) e.1 e.2.1 e.2.2) d
  let d := rescuedLost (forAll reg (fun e => loseBlocks e.2.2.1 0 [e.2.2.2]) d)
  let d := if short then raise .clocheShort [miss.length, sumL (miss.map fun e => e.2.2.length) + reg.length] { d with kpr := { d.kpr with lastResult := 2 } } else d
  let d := { d with med := { d.med with stripes := [] }, alm := { d.alm with ops := tfilter d.alm.ops fun _ o => decide (o.kind = OpKind.erase) } }
  -- blocks beyond the write pointers are dropped
  let d := { d with clo := { d.clo with buf := tfilter d.clo.buf fun _ b => match tget d.maps.plots b.plot with
    | some p => p.region || decide (b.lba % p.span < (zoneOf d b.plot (b.lba / p.span)).wp)
    | none => false } }
  let d := rescueAgain (membersGone d)
  let d := forAll d.maps.rows (fun e => eraseBlank e.2) d
  let d := forAll (d.maps.rows.map (·.1)) recount d
  let d := forAll (d.maps.rows.map (·.1)) (fun i d => match rowAt d i with | some r => resumeRow i r d | none => d) d
  let d := condemnDead (restoreSets { d with maps := { d.maps with spills := [] } })
  let d := if d.ecc.cmapRes < regionSum d then raise .cmapRaised [regionSum d] { d with ecc := { d.ecc with cmapRes := regionSum d } } else d
  let d := record (.mark 0 d.kpr.pwrcyc d.clo.image) d
  armList (goReady t { d with jnl := { d.jnl with rescue := { unarmed := true } } })

/-- RESCUE_INTAKE_DONE. -/
def execRescueIntakeDone (t : Nat) (s : State) : Host.Outcome State Fault Refusal :=
  s.on fun d => onlyIf (atPhase d 8) (rescueIntakeDone t) (tick t d)

end Sys2Proof.Machine
end

