-- ==== Sys2Proof/Machine/Integrity.lean ====
section
/-!
DEFINITION. Memory errors and their records (spec/11_integrity_and_memory.md R381, R396, R398-R405, ECC registers).
-/

namespace Sys2Proof.Machine

def onEcc (f : Ecc → Ecc) (d : Dev) : Dev := { d with ecc := f d.ecc }

/-- The security level that the fuses of the present epoch give (R429). -/
def secLevel (d : Dev) : Nat := if d.sec.sl2 then 2 else if d.sec.sl1 then 1 else 0

/-! ### Records (R399, R400) -/

/-- µs since the power die started. -/
def upMicros (d : Dev) : Nat := (d.io.now - d.sil.hourFrom) / 1000

/-- The record of an error; its REPEAT is 1. -/
def errRec (kind : Nat) (e : MemErr) (d : Dev) : ErrRec := {
  w0 := BitVec.ofNat 32 (kind % 256 + 2 ^ 8 * (e.mem % 4 + 16 * (e.cls % 8)) + 2 ^ 16 * (e.unit % 65536))
  w1 := BitVec.ofNat 32 e.addr
  w2 := BitVec.ofNat 32 (e.addr / 2 ^ 32 % 256 + 2 ^ 8 * (e.syn % 256) + 2 ^ 16)
  w3 := BitVec.ofNat 32 (upMicros d) }

/-- Same kind and same address: memory, unit and byte address. -/
def sameErr (a b : ErrRec) : Bool :=
  decide (a.w0.toNat % 1024 = b.w0.toNat % 1024) && decide (a.w0.toNat / 65536 = b.w0.toNat / 65536) && decide (a.w1 = b.w1) && decide (a.w2.toNat % 256 = b.w2.toNat % 256)

/-- One more occurrence, saturating. -/
def repeatErr (r : ErrRec) : ErrRec := { r with w2 := BitVec.ofNat 32 (r.w2.toNat % 65536 + 2 ^ 16 * satInc 16 (r.w2.toNat / 65536)) }

/-- A record arrives: it adds to a queued one of its kind and address, takes an entry, or is counted as lost (R400). True: it is stored. -/
def pushErr (r : ErrRec) (d : Dev) : Bool × Dev :=
  if d.ecc.queue.any (sameErr r) then
    let q := d.ecc.queue.map fun x => if sameErr r x then repeatErr x else x
    (true, onEcc (fun e => { e with queue := q, last := (q.find? (sameErr r)).getD r }) d)
  else if d.ecc.queue.length < 16 then (true, onEcc (fun e => { e with queue := e.queue ++ [r], last := r }) d)
  else (false, onEcc (fun e => { e with ovf := true, ovfCnt := satInc 32 e.ovfCnt }) d)

/-- An injected error that this read meets is gone, and KIND reads 0 again. -/
def clearInjected (e : MemErr) (d : Dev) : Dev :=
  let cw := e.addr / (if e.mem = 1 then 32 else 8)
  if d.ecc.injected.any (fun x => decide (x.2.1 = e.mem) && decide (x.2.2.1 = e.unit) && decide (x.2.2.2 = cw)) then
    wr 0x61040 (rd d 0x61040 / 4 * 4) (onEcc (fun c => { c with injected := c.injected.filter fun x => !(decide (x.2.1 = e.mem) && decide (x.2.2.1 = e.unit) && decide (x.2.2.2 = cw)) }) d)
  else d

/-! ### Correctable errors (R398, R405) -/

/-- MEM_CORRECTABLE: corrected data go to the reader and back to memory; one EV_MEM_CE a second for each memory. -/
def memCorrectable (e : MemErr) (t : Nat) (d : Dev) : Dev :=
  let d := (pushErr (errRec 1 e d) (clearInjected e d)).2
  let d := onEcc (fun c => if e.mem = 0 then { c with sramCe := satInc 32 c.sramCe } else { c with hbmCe := satInc 32 c.hbmCe }) d
  let n := tgetD d.ecc.ceSince e.mem 0 + 1
  if (match tget d.ecc.ceAt e.mem with | some a => decide (a + 1000000000 ≤ t) | none => true) = true then
    raise .memCe [e.mem, n] (onEcc (fun c => { c with ceSince := tset c.ceSince e.mem 0, ceAt := tset c.ceAt e.mem t }) d)
  else onEcc (fun c => { c with ceSince := tset c.ceSince e.mem n }) d

/-- MEM_CORRECTABLE. -/
def execMemCorrectable (e : MemErr) (t : Nat) (s : State) : Host.Outcome State Fault Refusal :=
  s.on fun d => onlyIf (mainUp d && decide (e.mem < 2)) (memCorrectable e t) (tick t d)

/-! ### Uncorrectable errors (R401-R404) -/

/-- The stripe, and the place in it, of a committed block that still waits in the write buffer. -/
def stripeHolding (d : Dev) (pos : Nat) : Option (Nat × Stripe × Nat) :=
  (d.med.stripes.findSome? fun e => ((e.2.blocks.zipIdx.find? fun b => decide (b.1 = some pos))).map fun b => (e.1, e.2, b.2))

/-- A write-buffer block is hit: rebuilt from its column, or written as a lost marker (R402 class 2). During a flush it becomes a lost marker in its rescue slot (R404). -/
def bufferHit (pos : Nat) (d : Dev) : Dev := match tget d.clo.buf pos with
  | none => d
  | some b =>
    let lose := fun (d : Dev) => { d with clo := { d.clo with buf := tset d.clo.buf pos { b with pay := lostMarker b.plot b.lba } } }
    if d.kpr.flush.isSome then lose d else
    match stripeHolding d pos with
    | none => d
    | some (key, _, i) => match rowAt d (key / 65536) with
      | none => d
      | some r =>
        let x := spotOf (theProfile r.profile) r.k i
        match rebuildRole r.k (tdel (columnOf d (key / 65536) r [] (key % 65536) x.q x.c) x.j) x.j with
        | some _ => d
        | none => markLost (key / 65536) (key % 65536) [i] (raise .wbufLost [b.plot, b.lba % 2 ^ 32] (lose d))

/-- A pool buffer is hit: it is withheld until the next start, its payload is made again in another (R402 class 4). -/
def poolHit (pool ptr : Nat) (d : Dev) : Dev :=
  let users := d.bpm.granted.filter fun g => decide (g.2 = (pool, ptr))
  let had := users ≠ [] ∨ (d.bpm.pools[pool]?).any (fun p => p.free.contains ptr) = true
  { d with bpm := { d.bpm with
    pools := if had then d.bpm.pools.modify pool fun p => { p with free := p.free.filter fun x => decide (x ≠ ptr), lost := p.lost + 1 } else d.bpm.pools
    granted := d.bpm.granted.filter fun g => decide (g.2 ≠ (pool, ptr))
    waiting := users.map (fun g => (pool, g.1)) ++ d.bpm.waiting } }

/-- The flush list is hit: the ceiling is zero until it is armed again (R402 class 6). -/
def listHit (d : Dev) : Dev := { d with clo := { d.clo with armed := false, ceil := 0 } }

/-- A journal-tail record whose copies both fail: during a flush the journal ends before it (R404), else a controlled stop (R402 class 5). -/
def tailHit (seq t : Nat) (both : Bool) (d : Dev) : Dev :=
  if !both then d
  else if d.kpr.flush.isSome then { d with jnl := { d.jnl with tail := d.jnl.tail.filter fun e => decide (e.1 + e.2.parts ≤ seq) } }
  else startFlush 2 t d

/-- The action an uncorrectable error calls for, at once (R401, R402). Cached copies and staged reads are had again, running parity is recomputed: nothing changes that
a reader sees. -/
def ueAction (cls : Nat) (hit : UeHit) (t : Nat) (d : Dev) : Dev := match cls, hit with
  | 2, .block pos => bufferHit pos d
  | 4, .buffer pool ptr => poolHit pool ptr d
  | 5, .journal seq both => tailHit seq t both d
  | 6, _ => listHit d
  | 7, _ => if d.kpr.flush.isSome ∨ d.kpr.state ≠ 2 then d else startFlush 2 t d
  | _, _ => d

/-- An uncorrectable error of a kind: recorded, EV_MEM_UE, its class's action. -/
def uncorrectable (kind : Nat) (e : MemErr) (hit : UeHit) (t : Nat) (d : Dev) : Dev :=
  let r := errRec kind e d
  let x := pushErr r d
  let d := onEcc (fun c => { c with ue := true }) x.2
  let shown := if x.1 then [r.w0.toNat, r.w1.toNat, r.w2.toNat, r.w3.toNat] else [r.w0.toNat, 0xFFFFFFFF, r.w2.toNat ||| 0xFF, r.w3.toNat]
  ueAction e.cls hit t (raise .memUe (shown ++ [d.ecc.ovfCnt]) d)

/-- MEM_UNCORRECTABLE. mismatch: HBM data read from another address (R394). -/
def execMemUncorrectable (e : MemErr) (mismatch : Bool) (hit : UeHit) (t : Nat) (s : State) : Host.Outcome State Fault Refusal :=
  s.on fun d => onlyIf (mainUp d && decide (e.mem < 2) && (!mismatch || decide (e.mem = 1))) (fun d =>
    let d := clearInjected e d
    let d := onEcc (fun c => if e.mem = 0 then { c with sramUe := satInc 32 c.sramUe }
      else if mismatch then { c with hbmAddr := satInc 32 c.hbmAddr } else { c with hbmUe := satInc 32 c.hbmUe }) d
    uncorrectable (if mismatch then 4 else 2) e hit t d) (tick t d)

/-- Is an error's place in a scratch bank (R395)? -/
def inScratch (e : MemErr) : Bool := decide (e.mem = 0) && decide (160 ≤ e.unit) && decide (e.unit ≤ 175)

/-- NARROW_WRITE_REFUSED: no memory changes; recorded as kind 3 (R396). The scratch banks take writes of single bytes. -/
def execNarrowWriteRefused (e : MemErr) (t : Nat) (s : State) : Host.Outcome State Fault Refusal :=
  s.on fun d => onlyIf (mainUp d && decide (e.mem < 2) && !inScratch e) (fun d => (pushErr (errRec 3 e d) (onEcc (fun c => { c with narrow := satInc 32 c.narrow }) d)).2) (tick t d)

/-- FABRIC_PARITY_FAIL: the beat is discarded and sent again; a second failure is an uncorrectable error of the class it carried, of kind 5 (R381). -/
def execFabricParityFail (again : Bool) (e : MemErr) (hit : UeHit) (t : Nat) (s : State) : Host.Outcome State Fault Refusal :=
  s.on fun d => onlyIf (mainUp d) (fun d =>
    let d := onEcc (fun c => { c with fabric := satInc 32 c.fabric }) d
    if again then uncorrectable 5 { e with mem := 2 } hit t d else d) (tick t d)

/-- ERROR_RECORD_HANDLED: the oldest entry leaves (R400). -/
def execErrorRecordHandled (s : State) : Host.Outcome State Fault Refusal :=
  s.on fun d => onlyIf (mainUp d) (onEcc fun e => { e with queue := e.queue.tail }) d

/-- ECC_INJECT: at SL0 a write corrupts the codeword that UNIT and ECC_INJECT_ADDR name; KIND 3 counts as 0. At SL1 and SL2 the write is ignored. -/
def execEccInject (path : Path) (v : Word) (s : State) : Host.Outcome State Fault Refusal :=
  s.onReg path fun d => onlyIf (reachable d path 0x61040 && decide (secLevel d = 0)) (fun d =>
    let d := wrMasked 0x61040 (if v.toNat % 4 = 3 then v.toNat - 3 else v.toNat) d
    let k := v.toNat % 4
    if k = 1 ∨ k = 2 then onEcc (fun e => { e with injected := e.injected ++ [(k, fld v.toNat 2 1, fld v.toNat 8 8, rd d 0x61044)] }) d else d) d

end Sys2Proof.Machine
end

