-- ==== Sys2Proof/Machine/Security.lean ====
section
/-!
DEFINITION. Owner keys, security levels, signed commands, lowering, the random number generator (spec/12_security.md R412-R413, R422-R424, R430-R433, R437) and the test
multiplexers' refused selects, which a raise can change (spec/15_sillage_and_debug.md R517-R519).
-/

namespace Sys2Proof.Machine

def onSec (f : Sec → Sec) (d : Dev) : Dev := { d with sec := f d.sec }

/-! ### Keys as registers -/

/-- n words from a register on, as bytes 4i to 4i + 3 with byte 4i most significant. -/
def wordsBe (d : Dev) (off n : Nat) : Nat := (List.range n).foldl (fun a i => a * 2 ^ 32 + rd d (off + 4 * i)) 0
def stagedKa (d : Dev) : BitVec 768 := BitVec.ofNat 768 (wordsBe d 0x80100 24)
def stagedSig (d : Dev) : BitVec 768 := BitVec.ofNat 768 (wordsBe d 0x80180 24)
def secSig (d : Dev) : BitVec 768 := BitVec.ofNat 768 (wordsBe d 0x80220 24)
def silSig (d : Dev) : BitVec 768 := BitVec.ofNat 768 (wordsBe d 0x103040 24)

/-! ### Test multiplexers (R517-R519) -/

/-- Selects that drive no data, of the main-die and the power-die group. -/
def plainSelect (main : Bool) (sel : Nat) : Bool := decide (sel ≤ 6) || (main && decide (0x20 ≤ sel) && decide (sel < 0x60))

/-- TMX pins that the test multiplexer drives: requested, enabled, and not kept by their GPIO function, which wins but at SL0 (R518). -/
def tmxDrives (d : Dev) (i : Nat) : Bool :=
  bit (rd d 0xB0000) 0 && bit (rd d (0xB0010 + 4 * i)) 16 && (decide (secLevel d = 0) || !bit d.mgt.gpio i) && !d.pwr.gpioLatched

/-- Pins whose select is refused at SL1 and SL2: TMX0-TMX15, then KTMX0-KTMX3 (R519). -/
def tmxRefusals (d : Dev) : Nat :=
  if secLevel d = 0 then 0 else
  sumL ((List.range 16).map fun i => if d.pwr.aon && tmxDrives d i && !plainSelect true (fld (rd d (0xB0010 + 4 * i)) 0 12) then 2 ^ i else 0) +
  sumL ((List.range 4).map fun i => if bit (rd d (0x104080 + 4 * i)) 16 && !plainSelect false (fld (rd d (0x104080 + 4 * i)) 0 12) then 2 ^ (16 + i) else 0)

/-- TMX_REFUSED takes the bits of refused selects. -/
def tmxCheck (d : Dev) : Dev := { d with mgt := { d.mgt with tmxRefused := d.mgt.tmxRefused ||| tmxRefusals d } }

/-- What a test pin drives: a level, a clock or pulse of the table of R519, or internal state to which the spec gives no meaning. -/
inductive PinDrive where
  | level (b : Bool) | tclk1024 | xtal | periodStart | sinkOn | rangeChange | internal (sel : Nat)
  deriving DecidableEq, Repr

/-- The signal of a select below 0x100; unlisted ones drive 0 (R519). -/
def plainSignal (d : Dev) (main : Bool) (sel : Nat) : PinDrive := match main, sel with
  | _, 1 => .level true
  | true, 2 => .tclk1024
  | false, 2 => .xtal
  | true, 3 => .level d.pwr.pllLock
  | false, 3 => .level d.kpr.pf
  | true, 4 => .level (d.kpr.pf && d.pwr.klinkUp)
  | false, 4 => .level d.hld.charging
  | true, 5 => .periodStart
  | false, 5 => .sinkOn
  | true, 6 => .level d.pwr.klinkUp
  | false, 6 => .rangeChange
  | main, n => .level (main && decide (0x20 ≤ n) && d.pwr.lgParked.contains (n - 0x20))

/-- What a test pin drives now, TMX0-TMX15 of the main die or KTMX0-KTMX3; none: the test multiplexer does not drive it (R517-R519). Above SL0 a refused select drives 0. -/
def testPin (d : Dev) (main : Bool) (i : Nat) : Option PinDrive :=
  let reg := rd d (if main then 0xB0010 + 4 * i else 0x104080 + 4 * i)
  if !(if main then d.pwr.aon && tmxDrives d i else bit reg 16) then none
  else if fld reg 0 12 < 0x100 then some (plainSignal d main (fld reg 0 12))
  else some (if secLevel d = 0 then .internal (fld reg 0 12) else .level false)

/-- The private instructions of the debug unit: behind BYPASS above SL0 (R520). -/
def tapLocked (i : TapInstr) : TapInstr := if i = .debug then .bypass else i

/-- What a raised level takes away at once: refused selects and the debug instructions (R519, R520). -/
def levelRaised (d : Dev) : Dev :=
  let d := tmxCheck d
  { d with mgt := { d.mgt with tapMain := tapLocked d.mgt.tapMain, tapPower := tapLocked d.mgt.tapPower } }

/-! ### The random number generator (R422-R424) -/

/-- A new nonce, where there is none and numbers may be drawn (R423, R432). -/
def freshNonce (d : Dev) : Dev :=
  if d.sec.rngReady ∧ d.sec.nonce.isNone then draw 1 (onSec (fun s => { s with nonce := some ((drawn d 0).setWidth 128) }) d) else d

/-- RNG_READY: the start-up tests pass. A generator that has failed stays out of use until a cold reset. -/
def execRngReady (s : State) : Host.Outcome State Fault Refusal :=
  s.on fun d => onlyIf (mainUp d && decide (4 ≤ d.clo.phase) && !d.sec.rngFailed) (fun d => freshNonce (onSec (fun s => { s with rngReady := true }) d)) d

/-- RNG_HEALTH_FAIL: READY clears; the third failure within 1 s puts the generator out of use until the next cold reset. -/
def execRngHealthFail (t : Nat) (s : State) : Host.Outcome State Fault Refusal :=
  s.on fun d => onlyIf (mainUp d && decide (4 ≤ d.clo.phase) && !d.sec.rngFailed) (fun d =>
    let at_ := (d.sec.rngFailAt.filter fun x => decide (t < x + 1000000000)) ++ [t]
    let fails := satInc 8 d.sec.rngFails
    raise .rngFail [fails] (onSec (fun s => { s with rngReady := false, nonce := none, rngFails := fails, rngFailAt := at_, rngFailed := decide (3 ≤ at_.length) }) d)) (tick t d)

/-! ### Enrolment (R412) -/

/-- A commit of a staged key: refused over a set key above SL0, or off the curve. -/
def commitKey (isSet : Bool) (k : BitVec 768) (put : Sec → Sec) (d : Dev) : Dev :=
  if isSet ∧ secLevel d ≠ 0 then onSec (fun s => { s with ownResult := 3 }) d
  else if !keyOnCurve k then onSec (fun s => { s with ownResult := 2 }) d
  else onSec (fun s => { put s with ownResult := 1 }) d

/-- COMMIT_KA: enrol the key-agreement key; the KEKs follow it (R413). -/
def execCommitKa (path : Path) (s : State) : Host.Outcome State Fault Refusal :=
  s.onReg path fun d => onlyIf (reachable d path 0x801E0) (commitKey d.sec.ka.isSome (stagedKa d) fun s => { s with ka := some (stagedKa d) }) d

/-- COMMIT_SIG: enrol the signing key. -/
def execCommitSig (path : Path) (s : State) : Host.Outcome State Fault Refusal :=
  s.onReg path fun d => onlyIf (reachable d path 0x801E0) (commitKey d.sec.sig.isSome (stagedSig d) fun s => { s with sig := some (stagedSig d) }) d

/-! ### Levels (R431) -/

/-- RAISE1: at SL0, with a signing key enrolled. -/
def execRaise1 (path : Path) (v : Word) (s : State) : Host.Outcome State Fault Refusal :=
  s.onReg path fun d => onlyIf (reachable d path 0x80000 && bit v.toNat 16 && decide (secLevel d = 0) && d.sec.sig.isSome) (fun d =>
    levelRaised (raise .slRaise [1] (onSec (fun s => { s with sl1 := true }) d))) d

/-- RAISE2: at SL1, with CONFIRM 0xA5. -/
def execRaise2 (path : Path) (v : Word) (s : State) : Host.Outcome State Fault Refusal :=
  s.onReg path fun d => onlyIf (reachable d path 0x80000 && bit v.toNat 17 && decide (fld v.toNat 24 8 = 0xA5) && decide (secLevel d = 1)) (fun d =>
    levelRaised (raise .slRaise [2] (onSec (fun s => { s with sl2 := true }) d))) d

/-! ### Signed commands (R432, R433, R437) -/

/-- What is signed. key: the staged key of commands 2 and 3. -/
def cmdMessage (nonce : BitVec 128) (cmd : Nat) (key : List Byte) : List Byte :=
  ascii "Z9 SEC CMD" ++ leBytes 8 Config.deviceId.toNat ++ beBytes 16 nonce.toNat ++ [BitVec.ofNat 8 cmd] ++ key

/-- The end of a signed command: its result, the nonce consumed, EV_SEC_CMD. -/
def cmdEnd (cmd result reason : Nat) (d : Dev) : Dev :=
  freshNonce (raise .secCmd [cmd, result, reason] (onSec (fun s => { s with cmdResult := result, cmdReason := reason, nonce := none }) d))

/-- The refusals, in the order of their codes; then the signature (R432). ok: the level allows it; more: reasons of the command's own. -/
def signedCmd (cmd : Nat) (ok : Bool) (more : Nat) (key : List Byte) (act : Dev → Dev) (d : Dev) : Dev :=
  if d.sec.lowering then cmdEnd cmd 3 0 d else
  match d.sec.sig with
  | none => cmdEnd cmd 3 1 d
  | some k =>
    if !ok then cmdEnd cmd 3 2 d else
    match d.sec.nonce with
    | none => cmdEnd cmd 3 3 d
    | some n =>
      if more ≠ 0 then cmdEnd cmd 3 more d
      else if ecdsaOk k (secSig d) (cmdMessage n cmd key) then act (cmdEnd cmd 1 0 d)
      else cmdEnd cmd 2 0 d

/-- A write of SEC_CMD whose CMD is n. -/
def onSecCmd (path : Path) (v : Word) (n : Nat) (f : Dev → Dev) (d : Dev) : Dev := onlyIf (reachable d path 0x80280 && decide (v.toNat % 16 = n)) f d

/-- Steps 1 to 3 of a lowering, and what follows at once: nothing is fetched or flushed any more (R433). -/
def beginLowering (d : Dev) : Dev :=
  let d := raiseP .slLower [d.sec.epoch + 1] (onSec (fun s => {
    s with
    erasePend := true, lowering := true, epoch := s.epoch + 1, sl1 := false, sl2 := false, ka := none, sig := none, store := [], xts := [], nonce := none }) d)
  { d with
    clo := { d.clo with armed := false, ceil := 0 }
    scu := { d.scu with key := [] }
    smt := { d.smt with conns := tmap d.smt.conns fun _ k => { k with key := none, prevKey := none, waitKey := none }, gcm := [] } }

/-- SEC_CMD_LOWER: at SL1 with epochs left. -/
def execSecCmdLower (path : Path) (v : Word) (t : Nat) (s : State) : Host.Outcome State Fault Refusal :=
  s.onReg path fun d => onSecCmd path v 1 (fun d => signedCmd 1 (decide (secLevel d = 1)) (if d.sec.epoch < 32 then 0 else 4) [] beginLowering d) (tick t d)

/-- SEC_CMD_REPLACE_KA. -/
def execSecCmdReplaceKa (path : Path) (v : Word) (s : State) : Host.Outcome State Fault Refusal :=
  s.onReg path fun d => onSecCmd path v 2 (fun d => signedCmd 2 (decide (secLevel d ≠ 0)) (if keyOnCurve (stagedKa d) then 0 else 5) (beBytes 96 (stagedKa d).toNat)
    (onSec fun s => { s with ka := some (stagedKa d) }) d) d

/-- SEC_CMD_REPLACE_SIG. -/
def execSecCmdReplaceSig (path : Path) (v : Word) (s : State) : Host.Outcome State Fault Refusal :=
  s.onReg path fun d => onSecCmd path v 3 (fun d => signedCmd 3 (decide (secLevel d ≠ 0)) (if keyOnCurve (stagedSig d) then 0 else 5) (beBytes 96 (stagedSig d).toNat)
    (onSec fun s => { s with sig := some (stagedSig d) }) d) d

/-- SEC_CMD_ADVANCE_SVN: the fused SVN goes up to the running image's, and lower key slots are revoked (R437). -/
def execSecCmdAdvanceSvn (path : Path) (v : Word) (s : State) : Host.Outcome State Fault Refusal :=
  s.onReg path fun d => onSecCmd path v 4 (fun d => signedCmd 4 true (if d.sec.svnFuse < d.sec.svn then 0 else 6) []
    (onSec fun s => { s with svnFuse := s.svn, revoked := s.revoked ||| (2 ^ s.slot - 1) }) d) d

/-- LOWERING_DONE: the key region and every bed are erased, HBM is filled with zeros; the flag clears, EV_SL_ERASED, a cold reset (R433). beds: how many were erased. -/
def execLoweringDone (beds failures t : Nat) (s : State) : Host.Outcome State Fault Refusal :=
  s.on fun d => onlyIf (mainUp d && d.sec.lowering && !d.kpr.pf) (fun d =>
    let d := raiseP .slErased [beds, failures] (onSec (fun s => { s with erasePend := false, lowering := false, store := [], wiped := [] }) d)
    dropRails (some 0) t (coldStart { d with jnl := {}, maps := {} })) (tick t d)

end Sys2Proof.Machine
end

