-- ==== Sys2Proof/Machine/Scu.lean ====
section
/-!
DEFINITION. The service cipher unit (spec/12_security.md R425-R428, SCU registers).
-/

namespace Sys2Proof.Machine

def onScu (f : Scu → Scu) (d : Dev) : Dev := { d with scu := f d.scu }

/-- The agent a path stands for (R425): security-core firmware 1, control-cluster firmware 2, the owner function 3, the management endpoint 4. -/
def agentOf : Path → Nat
  | .mgmt => 4
  | .core false => 1
  | .core true => 2
  | _ => 3

/-- Is the unit a path's to use? -/
def holds (d : Dev) (p : Path) : Bool := decide (d.scu.holder = agentOf p)

/-- SCU_TAKE: only while it is free. -/
def execScuTake (path : Path) (s : State) : Host.Outcome State Fault Refusal :=
  s.onReg path fun d => onlyIf (reachable d path 0x81000 && decide (d.scu.holder = 0)) (onScu fun u => { u with holder := agentOf path }) d

/-- Free the unit: key, IV, buffer and status are zeroed first (R426). -/
def scuFree (d : Dev) : Dev := onScu (fun u => { ofs := u.ofs, len := u.len, op := u.op }) d

/-- SCU_RELEASE, by the holder. -/
def execScuRelease (path : Path) (s : State) : Host.Outcome State Fault Refusal := s.onReg path fun d => onlyIf (reachable d path 0x81000 && holds d path) scuFree d

/-! ### Operations (R427, R428) -/

/-- SCU_OFS and SCU_LEN. -/
def scuIn (u : Scu) : Nat := fld u.ofs 0 14
def scuOut (u : Scu) : Nat := fld u.ofs 16 14
def scuLen (u : Scu) : Nat := fld u.len 0 14
def scuAad (u : Scu) : Nat := fld u.len 16 14
/-- Bytes of a table of bytes. -/
def bytesAt (t : Tbl Byte) (a n : Nat) : List Byte := (List.range n).map fun i => tgetD t (a + i) 0
def bytesPut (a : Nat) (l : List Byte) (t : Tbl Byte) : Tbl Byte := l.zipIdx.foldl (fun t e => tsetD t (a + e.2) e.1 0) t
def scuKey (u : Scu) : BitVec 256 := BitVec.ofNat 256 (beNat (bytesAt u.key 0 32))

/-- The ranges: aligned offsets, inside the buffer, and the same start or no overlap. -/
def rangesOk (u : Scu) (nin nout : Nat) : Bool :=
  decide (scuIn u % 16 = 0) && decide (scuOut u % 16 = 0) && decide (scuIn u + nin ≤ 16384) && decide (scuOut u + nout ≤ 16384) &&
  (decide (scuIn u = scuOut u) || decide (scuIn u + nin ≤ scuOut u) || decide (scuOut u + nout ≤ scuIn u))

/-- Output bytes of an operation, and whether its check fails. none: nothing is written. -/
def scuResult (op : Nat) (u : Scu) : List Byte × Bool :=
  let n := scuLen u
  let i := bytesAt u.buf (scuIn u)
  match op with
  | 1 =>
    let all := i (scuAad u + n)
    let x := gcmSeal (scuKey u) (bytesAt u.iv 0 12) (all.take (scuAad u)) (all.drop (scuAad u))
    (x.1 ++ x.2, false)
  | 2 =>
    let all := i (scuAad u + n + 16)
    let aad := all.take (scuAad u)
    let ct := (all.drop (scuAad u)).take n
    -- the plaintext is written before the tag is checked (R428)
    ((gcmSeal (scuKey u) (bytesAt u.iv 0 12) aad ct).1, (gcmOpen (scuKey u) (bytesAt u.iv 0 12) aad ct (all.drop (scuAad u + n))).isNone)
  | 3 => (cmac (scuKey u) (i n), false)
  | 4 => (keyWrap (scuKey u) (i n), false)
  | 5 => match keyUnwrap (scuKey u) (i n) with | some p => (p, false) | none => ([], true)
  | _ => (sha384 (i n), false)

/-- Bytes in and out of an operation, and whether its length is one it takes. -/
def scuShape (op : Nat) (u : Scu) : Nat × Nat × Bool :=
  let n := scuLen u
  match op with
  | 1 => (scuAad u + n, n + 16, true)
  | 2 => (scuAad u + n + 16, n, true)
  | 3 => (n, 16, true)
  | 4 => (n, n + 8, decide (16 ≤ n) && decide (n ≤ 512) && decide (n % 8 = 0))
  | 5 => (n, n - 8, decide (24 ≤ n) && decide (n ≤ 520) && decide (n % 8 = 0))
  | _ => (n, 48, true)

/-- START with an operation: clears TAG_BAD and ERR; an invalid length or offset sets ERR and nothing is done. -/
def scuStart (op : Nat) (d : Dev) : Dev :=
  let u := d.scu
  let sh := scuShape op u
  if sh.2.2 && rangesOk u sh.1 sh.2.1 then
    let r := scuResult op u
    onScu (fun u => { u with op := op, busy := true, tagBad := false, err := false, failed := r.2, buf := bytesPut (scuOut u) r.1 u.buf }) d
  else onScu (fun u => { u with op := op, tagBad := false, err := true }) d

/-- A write of SCU_CTRL with START and OP n by the holder, while nothing runs. -/
def onScuStart (path : Path) (v : Word) (n : Nat) (d : Dev) : Dev :=
  onlyIf (reachable d path 0x81004 && holds d path && bit v.toNat 4 && decide (v.toNat % 16 = n) && !d.scu.busy) (scuStart n) d

/-- SCU_GCM_ENCRYPT. -/
def execScuGcmEncrypt (path : Path) (v : Word) (s : State) : Host.Outcome State Fault Refusal := s.onReg path (onScuStart path v 1)
/-- SCU_GCM_DECRYPT. -/
def execScuGcmDecrypt (path : Path) (v : Word) (s : State) : Host.Outcome State Fault Refusal := s.onReg path (onScuStart path v 2)
/-- SCU_CMAC. -/
def execScuCmac (path : Path) (v : Word) (s : State) : Host.Outcome State Fault Refusal := s.onReg path (onScuStart path v 3)
/-- SCU_KEY_WRAP. -/
def execScuKeyWrap (path : Path) (v : Word) (s : State) : Host.Outcome State Fault Refusal := s.onReg path (onScuStart path v 4)
/-- SCU_KEY_UNWRAP. -/
def execScuKeyUnwrap (path : Path) (v : Word) (s : State) : Host.Outcome State Fault Refusal := s.onReg path (onScuStart path v 5)
/-- SCU_SHA384. -/
def execScuSha384 (path : Path) (v : Word) (s : State) : Host.Outcome State Fault Refusal := s.onReg path (onScuStart path v 6)

/-- SCU_OP_DONE: DONE, and TAG_BAD where the check failed. -/
def execScuOpDone (s : State) : Host.Outcome State Fault Refusal :=
  s.on fun d => onlyIf d.scu.busy (onScu fun u => { u with busy := false, fin := true, tagBad := u.failed }) d

end Sys2Proof.Machine
end

