-- ==== Sys2Proof/Machine/Power.lean ====
section
/-!
DEFINITION. Performance levels, voltage adaptation, sleep states, parking, pads and clocks (spec/13_power_and_clocks.md R448-R471, spec/16_register_map.md).
-/

namespace Sys2Proof.Machine

/-! ### Performance levels (R455-R460) -/

/-- Nominal VDDC of a level, mV (R455). -/
def nominalMv : Nat → Nat
  | 0 => 600 | 1 => 620 | 2 => 650 | 3 => 680 | 4 => 720 | 5 => 750 | 6 => 800 | _ => 850

/-- CCLK divisor of a level; PL6 runs 3 or 4 (R455, R457). -/
def divisorOf (fast : Bool) : Nat → Nat
  | 0 | 1 => 12 | 2 => 8 | 3 => 6 | 4 => 5 | 5 => 4 | 6 => if fast then 3 else 4 | _ => 3

/-- The level to run at: the ceiling; PL7 only in a sprint, PL6 otherwise (R456). -/
def levelWanted (d : Dev) : Nat := if ceilNow d = 7 then (if d.thm.sprint then 7 else 6) else ceilNow d

/-- Take a level's divisor. -/
def takeLevel (l : Nat) (d : Dev) : Dev := onPwr (fun p => { p with pl := l, cdiv := divisorOf p.pl6Fast l }) d

/-- Start the VDDC part of a move; up: the divisor follows it (R459). -/
def startMove (l : Nat) (up : Bool) (d : Dev) : Dev := vddcSet (nominalMv l) (onPwr (fun p => { p with move := some ⟨l, up⟩ }) d)

/-- Start a move from a level that runs: down takes the divisor at once, up raises VDDC first (R459). -/
def moveTo (l : Nat) (d : Dev) : Dev :=
  if l < d.pwr.pl then startMove l false (takeLevel l d)
  else if d.pwr.pl < l then startMove l true d else d

/-- A new ceiling (R456, R459, R460): below the level that runs, its divisor is taken at once; below the target of an upward move whose divisor has not changed, that move is
given up; otherwise the step in progress ends first. -/
def steer (d : Dev) : Dev :=
  let l := levelWanted d
  match d.pwr.move with
  | none => moveTo l d
  | some m =>
    if l < d.pwr.pl then startMove l false (takeLevel l d)
    else if m.up ∧ l < m.target then (if l = d.pwr.pl then startMove l false d else startMove l true d)
    else d

/-- A sprint ends: the mean power outside a sprint is taken from now on (R486). -/
def endSprint (t : Nat) (h : Thm) : Thm := if h.sprint then { h with sprint := false, pwFrom := t } else h

/-- PL_CEILING_CHANGE. -/
def execPlCeilingChange (t : Nat) (s : State) : Host.Outcome State Fault Refusal :=
  s.on fun d => onlyIf (mainUp d) (fun d => steer (if ceilNow d < 7 then { d with thm := endSprint t d.thm } else d)) (tick t d)

/-- PL_MOVE_DONE: VDDC has its setting; an upward move takes its divisor now; then the latest ceiling is followed. While lost arbitration holds the transaction back it does not
happen, nor while the keeper link is down (R20, R459, R516). -/
def execPlMoveDone (t : Nat) (s : State) : Host.Outcome State Fault Refusal :=
  s.on fun d => withSome d.pwr.move (fun m d => onlyIf (mainUp d && d.pwr.klinkUp) (fun d =>
    let d := onPwr (fun p => { p with vddc := nominalMv m.target, move := none, arbHeld := false }) { d with mgt := { d.mgt with arbRun := 0 } }
    steer (if m.up then takeLevel m.target d else d)) d) (tick t d)

/-- The PL6 mode from the margin at 0.80 V and 1.6 GHz, 0.1 % units (R457). -/
def pl6Fast (was : Bool) (margin : Nat) : Bool := if 40 ≤ margin then true else if margin < 20 then false else was

/-- PL6_MODE_CHECK: once a second at PL6. -/
def execPl6ModeCheck (margin t : Nat) (s : State) : Host.Outcome State Fault Refusal :=
  s.on fun d => onlyIf (mainUp d && decide (d.pwr.pl = 6) && decide (d.pwr.pl6Due ≤ t)) (fun d =>
    let f := pl6Fast d.pwr.pl6Fast margin
    let was := d.pwr.pl6Fast
    let d := onPwr (fun p => { p with pl6Fast := f, pl6Due := t + 1000000000, cdiv := divisorOf f 6 }) d
    if f = was then d else raise .pl6Mode [divisorOf f 6, margin] d) (tick t d)

/-- VDDC after one step of the loop at a level: 5 mV down above 5 % margin, up below 3 %; at most the nominal value, at most 40 mV under it, at least 0.60 V (R458). -/
def adapted (level mv margin : Nat) : Nat :=
  if 50 < margin then max (mv - 5) (max (nominalMv level - 40) 600)
  else if margin < 30 then min (mv + 5) (nominalMv level) else mv

/-- VDDC_ADAPT: the margin at the running clocks is taken; no step is made during a move, nor while the keeper link is down (R20). -/
def execVddcAdapt (margin t : Nat) (s : State) : Host.Outcome State Fault Refusal :=
  s.on fun d => onlyIf (mainUp d && d.pwr.move.isNone) (fun d =>
    let mv := if d.pwr.klinkUp then adapted d.pwr.pl d.pwr.vddc margin else d.pwr.vddc
    let d' := onPwr (fun p => { p with margin := min 255 margin, vddc := mv }) d
    if mv = d.pwr.vddc then d' else vout 3 mv d') (tick t d)

/-- PWR_PL.LIMIT: the limit that sets the running level; thermal before electrical before PWR_PL_MAX (R456). -/
def plLimit (d : Dev) : Nat :=
  if ceilNow d = 7 then (if d.pwr.pl = 6 then 2 else 0)
  else if d.thm.ceil = ceilNow d then 1 else if d.thm.elec = ceilNow d then 2 else 0

/-! ### Domains and pads (R448-R454) -/

/-- Are the domains that S2 switches off, off? -/
def inS2 (d : Dev) : Bool := decide (d.pwr.sleep = .s2) || (decide (d.pwr.sleep = .leaving) && !d.pwr.unwinding)

/-- Is domain i of R448 on? -/
def domainOn (d : Dev) (i : Nat) : Bool :=
  d.pwr.aon && (if i < 64 then decide (i < linkGroups d) && !d.pwr.lgParked.contains i && !inS2 d
  else if i < 72 then hasEth d (i - 64) && !ethHeld d (i - 64) && !inS2 d
  else if i < 74 then hasPcx d (i - 72) && !pcxHeld d (i - 72)
  else if i < 106 then !clusterOff d (i - 74) && !inS2 d
  else if i < 138 then !inS2 d
  else decide (i < 140))

/-- PWR_DOM0-PWR_DOM4. -/
def pwrDom (d : Dev) (n : Nat) : Nat := sumL ((List.range 32).map fun i => if domainOn d (32 * n + i) then 2 ^ i else 0)

/-- PWR_PAD_RELEASE.GPIO: releases GPIO 0-15 while PD_CC0 is on (R453). -/
def padRelease (d : Dev) : Dev := if d.pwr.aon && !inS2 d then onPwr (fun p => { p with gpioLatched := false }) d else d

/-- PWR_PAD_RELEASE. -/
def execPwrPadRelease (path : Path) (s : State) : Host.Outcome State Fault Refusal :=
  s.onReg path fun d => onlyIf (reachable d path 0x90018) padRelease d

/-- Is a latch that the device releases itself held: xSPI or package-reset pads (R452-R454)? -/
def devLatched (d : Dev) : Bool := d.pwr.padsSafe || (d.pwr.aon && decide (d.clo.phase < 4)) || inS2 d || decide (d.pwr.lgParked ≠ [])

/-! ### S1 and S2 (R461-R463, R466-R468) -/

/-- PWR_IDLE_S1.US. -/
def s1Us (d : Dev) : Nat := clampN 10 4000 (fld (rd d 0x9000C) 0 12)

/-- S1_IDLE_TIMER. -/
def execS1IdleTimer (t : Nat) (s : State) : Host.Outcome State Fault Refusal :=
  s.on fun d => onlyIf (mainUp d && decide (d.pwr.sleep = .s0) && idle d && bit (rd d 0x9000C) 12 && decide (d.pwr.activeAt + 1000 * s1Us d ≤ t) && !stopped d)
    (onPwr fun p => { p with sleep := .s1Entering, sleepAt := t, exitAfter := false }) (tick t d)

/-- S2_IDLE_TIMER: 10 ms idle with REQ = 2, once ready. -/
def execS2IdleTimer (t : Nat) (s : State) : Host.Outcome State Fault Refusal :=
  s.on fun d => onlyIf (mainUp d && (decide (d.pwr.sleep = .s0) || decide (d.pwr.sleep = .s1)) && idle d && decide (fld (rd d 0x90008) 0 2 = 2) &&
      decide (d.pwr.activeAt + 10000000 ≤ t) && !stopped d)
    (onPwr fun p => { p with sleep := .entering, sleepAt := t, exitAfter := false }) (tick t d)

/-- Put every link that stands in Active or P1 into P2, and back. -/
def linksInto (frm : List Nat) (to_ : Nat) (d : Dev) : Dev :=
  forAll (List.range (8 * linkGroups d)) (fun l d => if frm.contains (linkAt d l).st then onLink l (fun k => { k with st := to_ }) d else d) d

/-- S2 is reached: Ethernet is down, the link groups are off, the GPIO pads are latched (R448, R452, R463). -/
def enterS2 (d : Dev) : Dev :=
  let d := linksInto [lsActive, lsP1] lsP2 d
  let d := { d with smt := { d.smt with links := [] }, hl := { d.hl with groupIdle := [] } }
  onPwr (fun p => { p with sleep := .s2, gpioLatched := true, lgParked := List.range (linkGroups d), ethParked := [], parking := p.parking.filter fun r => match r.unit with | .pcx _ => true | _ => false }) d

/-- A command that came during an entry is served after the exit. -/
def sleepEntered (t : Nat) (d : Dev) : Dev := match d.pwr.sleep with
  | .s1Entering => onPwr (fun p => if p.exitAfter then { p with sleep := .s1Leaving, sleepAt := t, exitAfter := false } else { p with sleep := .s1 }) d
  | .entering =>
    let d := enterS2 d
    onPwr (fun p => if p.exitAfter then { p with sleep := .leaving, sleepAt := t, exitAfter := false } else p) d
  | _ => d

/-- Commands outstanding waited for an exit (R208, R463, R465). -/
def blameAll (p : Cmd → Bool) (frm t : Nat) (d : Dev) : Dev :=
  forAll ((tfilter d.qm.cmds fun _ c => p c).map (·.1)) (fun i d => match tget d.qm.cmds i with
    | some c => blame i 7 (t - max frm c.arrived) d
    | none => d) d

/-- The part is in S0 again; its idle time starts anew. -/
def sleepLeft (t : Nat) (d : Dev) : Dev := match d.pwr.sleep with
  | .s1Leaving => onPwr (fun p => { p with sleep := .s0, sleepAt := t, unwinding := false, activeAt := t }) (blameAll (fun _ => true) 0 t d)
  | .leaving =>
    let d := blameAll (fun _ => true) 0 t d
    let d := if d.pwr.unwinding then d else restartTimers none t (onPwr (fun p => { p with lgParked := [] }) (linksInto [lsP2] lsActive d))
    onPwr (fun p => { p with sleep := .s0, sleepAt := t, unwinding := false, activeAt := t }) d
  | _ => d

/-! ### Parking (R465-R468) -/

/-- PWR_IDLE_PARK in ms: link groups, Ethernet ports, PCIe ports; 0: never. -/
def parkMs (d : Dev) (i : Nat) : Nat := fld (rd d 0x90010) (8 * i) 8

/-- Start a unit's entry. -/
def startPark (u : ParkUnit) (t : Nat) (d : Dev) : Dev := onPwr (fun p => { p with parking := p.parking ++ [⟨u, false, t, false, false⟩] }) d

/-- LG_PARK_TIMER (R355, R357, R465). -/
def execLgParkTimer (lg t : Nat) (s : State) : Host.Outcome State Fault Refusal :=
  s.on fun d => withSome (tget d.hl.groupIdle lg) (fun a d => onlyIf (mainUp d && awake d && decide (lg < linkGroups d) && decide (parkMs d 0 ≠ 0) && decide (a + 1000000 * parkMs d 0 ≤ t) &&
    !d.pwr.lgParked.contains lg && (parkRun d (.lg lg)).isNone && !groupBound d lg && d.kpr.flush.isNone && d.clo.ready &&
    (List.range 8).all fun i => decide ((linkAt d (8 * lg + i)).st = lsP1)) (startPark (.lg lg) t) d) (tick t d)

/-- ETH_PARK_TIMER. -/
def execEthParkTimer (port t : Nat) (s : State) : Host.Outcome State Fault Refusal :=
  s.on fun d => onlyIf (mainUp d && hasEth d port && !ethHeld d port && !inS2 d && decide (parkMs d 1 ≠ 0) && decide (tgetD d.pwr.ethLast port 0 + 1000000 * parkMs d 1 ≤ t) &&
    !d.pwr.ethParked.contains port && (parkRun d (.eth port)).isNone) (startPark (.eth port) t) (tick t d)

/-- PCX_PARK_TIMER. -/
def execPcxParkTimer (port t : Nat) (s : State) : Host.Outcome State Fault Refusal :=
  s.on fun d => onlyIf (mainUp d && hasPcx d port && !pcxHeld d port && decide (parkMs d 2 ≠ 0) && decide (tgetD d.pwr.pcxLast port 0 + 1000000 * parkMs d 2 ≤ t) &&
    !d.pwr.pcxParked.contains port && (parkRun d (.pcx port)).isNone) (startPark (.pcx port) t) (tick t d)

/-- The end of a unit's entry: it is parked, or exits at once for the command that came (R467). -/
def parkEntered (r : ParkRun) (t : Nat) (d : Dev) : Dev :=
  let d := onPwr (fun p => { p with parking := p.parking.filter fun x => decide (x.unit ≠ r.unit) }) d
  match r.unit with
  | .lg g =>
    let d := forAll (List.range 8) (fun i => onLink (8 * g + i) fun k => { k with st := lsP2 }) (onPwr (fun p => { p with lgParked := p.lgParked ++ [g] }) d)
    if r.exitAfter then forAll (List.range 8) (fun i d => if (seqAt d (8 * g + i)).queue = [] then d else wakeLink (8 * g + i) t d) d else d
  | u =>
    if r.exitAfter then onPwr (fun p => { p with parking := p.parking ++ [⟨u, true, t, false, false⟩] }) d
    else onPwr (fun p => match u with | .eth n => { p with ethParked := p.ethParked ++ [n] } | .pcx n => { p with pcxParked := p.pcxParked ++ [n] } | _ => p) d

/-- SLEEP_ENTRY_DONE: of the part, or of a unit's park. -/
def execSleepEntryDone (unit : ParkUnit) (t : Nat) (s : State) : Host.Outcome State Fault Refusal :=
  s.on fun d => onlyIf (mainUp d) (fun d => match unit with
    | .part => sleepEntered t d
    | u => withSome (parkRun d u) (fun r => onlyIf (!r.leaving) (parkEntered r t)) d) (tick t d)

/-- The port a command came through. -/
def cmdPort (d : Dev) (c : Cmd) : Option ParkUnit := match ringOf d c with | some r => portOf d r.bind | none => none

/-- SLEEP_EXIT_DONE: of the part, or of a port's park; a link group's exit ends with the retraining of its links (R358). -/
def execSleepExitDone (unit : ParkUnit) (t : Nat) (s : State) : Host.Outcome State Fault Refusal :=
  s.on fun d => onlyIf (mainUp d) (fun d => match unit with
    | .part => sleepLeft t d
    | u => withSome (parkRun d u) (fun r => onlyIf r.leaving fun d =>
        let d := match u with | .eth n => if r.unwinding then d else restartTimers (some n) t d | _ => d
        onPwr (fun p => { p with parking := p.parking.filter fun x => decide (x.unit ≠ u) }) (blameAll (fun c => decide (cmdPort d c = some u)) r.since t d)) d) (tick t d)

/-! ### Sleep requests (R462, R464) -/

/-- A write of REQ = 3 once the device is ready: a clean shutdown that ends in S3. -/
def requestS3 (d : Dev) : Dev := if d.clo.ready then onKpr (fun k => { k with shutdown := true, s3 := true }) d else d

/-- A write of PWR_SLEEP: REQ and CANCELLED (write 1 to clear); it ends S2 (R462). -/
def writeSleep (v t : Nat) (d : Dev) : Dev :=
  let d := wakeS2 t (wrMasked 0x90008 v d)
  let d := if bit v 9 then onPwr (fun p => { p with cancelled := false }) d else d
  if fld v 0 2 ≠ 3 then d else if d.kpr.state = 2 then requestS3 d else ignoreRequest d

/-- PWR_SLEEP_S2. -/
def execPwrSleepS2 (path : Path) (t : Nat) (s : State) : Host.Outcome State Fault Refusal :=
  s.onReg path fun d => onlyIf (reachable d path 0x90008) (writeSleep 2 t) (tick t d)

/-- PWR_SLEEP_S3. -/
def execPwrSleepS3 (path : Path) (t : Nat) (s : State) : Host.Outcome State Fault Refusal :=
  s.onReg path fun d => onlyIf (reachable d path 0x90008) (writeSleep 3 t) (tick t d)

/-- PWR_SLEEP.STATE. -/
def sleepState : Sleep → Nat
  | .s0 => 0 | .s1Entering | .s1 | .s1Leaving => 1 | _ => 2

/-- PWR_SLEEP. -/
def pwrSleepReg (d : Dev) : Nat :=
  let req := fld (rd d 0x90008) 0 2
  req + 16 * sleepState d.pwr.sleep + 256 * b2n (decide (req = 2) && decide (sleepState d.pwr.sleep ≠ 2)) + 512 * b2n d.pwr.cancelled

/-! ### Clocks (R469-R471) -/

/-- CLK_LOSS: REFCLK lost, or the root PLL's lock (R470): holdover, the record, the flush with cause 3. -/
def execClkLoss (lock : Bool) (t : Nat) (s : State) : Host.Outcome State Fault Refusal :=
  s.on fun d => onlyIf (d.pwr.aon && d.pwr.pllLock) (fun d =>
    let d := raise .clkLoss [b2n lock] (onPwr (fun p => { p with pllLock := false, holdover := true, clkLoss := satInc 8 p.clkLoss }) d)
    if d.kpr.pf ∨ d.kpr.state ≠ 2 ∨ d.kpr.flush.isSome then d else startFlush 3 t d) (tick t d)

/-- XTAL_LOST: operating time is counted from the RC oscillator. -/
def execXtalLost (t : Nat) (s : State) : Host.Outcome State Fault Refusal :=
  s.on fun d => onlyIf d.kpr.running (fun d => raiseP .xtalLost [] { d with thm := { d.thm with xtalOk := false, xtalLost := true } }) (tick t d)

/-- The trim code at a temperature, 0.1 °C units: linear interpolation between 16 points from -40 °C to 125 °C (R471). DESIGN CHOICE (notes/assumptions/26.md): the points stand 11 °C apart,
the ends' values hold beyond them, and the code is rounded down. -/
def rcTrimAt (temp : Int) : Nat :=
  let x := (min 1250 (max (-400) temp) + 400).toNat
  let p := fun i => (Config.rcTrimPoint (Fin.ofNat 16 (min i 15))).toNat
  (p (x / 110) * (110 - x % 110) + p (x / 110 + 1) * (x % 110)) / 110

/-- RC_TRIM: the trim for the power-die temperature, and whether the crystal runs. The factory table's values are not printed (notes/assumptions/26.md). -/
def execRcTrim (temp : Int) (xtal : Bool) (t : Nat) (s : State) : Host.Outcome State Fault Refusal :=
  s.on fun d => onlyIf d.kpr.running (fun d => { d with thm := { d.thm with trimTemp := temp, rcTrim := rcTrimAt temp, xtalOk := xtal } }) (tick t d)

end Sys2Proof.Machine
end

