-- ==== Sys2Proof/Machine/Thermal.lean ====
section
/-!
DEFINITION. Sensors, the thermal and electrical ceilings, the sprint, orderly stops and trips, ageing (spec/14_thermal_and_health.md R472-R495). Temperatures are in 0.1 degrees C.
-/

namespace Sys2Proof.Machine

def onThm (f : Thm → Thm) (d : Dev) : Dev := { d with thm := f d.thm }

/-! ### Sensors (R472-R475) -/

/-- Main-die sensors and the HBM stack's (48) that belong to units the configuration has (R472, R474). -/
def sensorPresent (d : Dev) (i : Nat) : Bool :=
  if i < 16 then decide (4 * i < linkGroups d)
  else if i < 32 then true
  else if i < 40 then hasEth d (i - 32)
  else if i < 42 then hasPcx d (i - 40)
  else decide (i < 49)

/-- The domains a sensor lies in. -/
def sensorDomains (i : Nat) : List Nat :=
  if i < 16 then (List.range 4).map fun j => 4 * i + j
  else if i < 32 then [74 + 2 * (i - 16), 75 + 2 * (i - 16)]
  else if i < 40 then [64 + (i - 32)]
  else if i < 42 then [72 + (i - 40)]
  else if i < 44 then [134 + 2 * (i - 42), 135 + 2 * (i - 42)]
  else if i < 48 then [106 + 2 * (i - 44), 107 + 2 * (i - 44)]
  else [138]

/-- Is a sensor's domain off, so that its reading is stale (R473)? -/
def stale (d : Dev) (i : Nat) : Bool := !(sensorDomains i).any (domainOn d)

/-- Does a sensor take part in thresholds: present, working, its domain on, and converted since the main die started? -/
def takesPart (d : Dev) (i : Nat) : Bool := sensorPresent d i && !d.thm.failed.contains i && !stale d i && thas d.thm.temps i

/-- Sensors that take part, with their readings. -/
def readings (d : Dev) (n : Nat) : List (Nat × Int) := ((List.range n).filter (takesPart d)).map fun i => (i, tgetD d.thm.temps i 0)

/-- THM_MAX: the highest reading of sensors 0-47 and its index, the lower of equals (R475). -/
def thmMax (d : Dev) : Option (Nat × Int) := (readings d 48).foldl (fun a e => match a with
  | some b => if b.2 < e.2 then some e else some b
  | none => some e) none

/-- Failed main-die sensors (R474). -/
def failedMain (d : Dev) : Nat := (d.thm.failed.filter fun i => decide (i < 48)).length

/-- A sensor fails, with the record of its last reading and of the fallback (R29, R474). -/
def failMain (i : Nat) (d : Dev) : Dev :=
  if d.thm.failed.contains i then d else
  raise .fallback [1, 1, i] (raise .sensorFail [i, twos 32 (tgetD d.thm.temps i 0)] (onThm (fun h => { h with failed := h.failed ++ [i], raised := h.raised.filter fun x => decide (x ≠ i) }) d))
def failPower (n : Nat) (d : Dev) : Dev :=
  if d.thm.pthFailed.contains n then d else
  raiseP .fallback [1, 1, 0x100 + n] (raiseP .sensorFail [0x100 + n, twos 32 (tgetD d.thm.pth n 0)] (onThm (fun h => { h with pthFailed := h.pthFailed ++ [n], raised := h.raised.filter fun x => decide (x ≠ 0x100 + n) }) d))

/-- Is a reading out of a sensor's range (R474)? -/
def outOfRange (temp : Int) : Bool := decide (temp < -600) || decide (1500 < temp)

/-! ### Limits (R477, R478) -/

def warnLimit (d : Dev) (i : Nat) : Int := if i < 48 then (10 * clampN 60 95 (fld (rd d 0xA0010) 0 8) : Nat) else if i = 48 then 850 else 1100
def throttleLimit (d : Dev) (i : Nat) : Int := if i < 48 then (10 * clampN 65 100 (fld (rd d 0xA0010) 8 8) : Nat) else 950

/-- THM_RATE: rates in 0.1 degrees C/s, windows in ns. -/
def warnRate (d : Dev) : Nat := zeroAsOne (fld (rd d 0xA0014) 0 8)
def warnWin (d : Dev) : Nat := 100000000 * clampN 1 100 (fld (rd d 0xA0014) 8 8)
def actRate (d : Dev) : Nat := zeroAsOne (fld (rd d 0xA0014) 16 8)
def actWin (d : Dev) : Nat := 10000000 * clampN 5 100 (fld (rd d 0xA0014) 24 8)

/-- Rise over a window, 0.1 degrees C: between the present reading and the one a window earlier; none: no reading so early. -/
def rise (d : Dev) (i win : Nat) : Int := match tgetD d.thm.hist i [] with
  | (t, v) :: r => (match r.find? fun e => decide (e.1 + win ≤ t) with | some e => v - e.2 | none => 0)
  | [] => 0

/-- Is a slope above a rate? -/
def steeper (d : Dev) (i win rate : Nat) : Bool := decide ((rate * win : Nat) < rise d i win * 1000000000)

/-- A slope in 0.1 degrees C/s, rounded toward minus infinity. -/
def slope (d : Dev) (i win : Nat) : Int := rise d i win * 1000000000 / (win : Int)

/-- Note a reading: the readings of the last 10 s, and one more. -/
def noteReading (i : Nat) (temp : Int) (t : Nat) (d : Dev) : Dev :=
  let old := tgetD d.thm.hist i []
  let (keep, rest) := old.span fun e => decide (t < e.1 + 10000000000)
  onThm (fun h => { h with hist := tset h.hist i ((t, temp) :: keep ++ rest.take 1) }) d

/-! ### Warnings -/

/-- Does every sensor read 2 °C below its warning limit (R477)? -/
def allCool (d : Dev) : Bool := (readings d 49).all (fun e => decide (e.2 ≤ warnLimit d e.1 - 20)) &&
  (List.range 4).all fun n => d.thm.pthFailed.contains n || decide (tgetD d.thm.pth n 0 ≤ warnLimit d (0x100 + n) - 20)

/-- One reading against its warning limit: one record per crossing; a sensor can cross again once it has read 2 °C below (R477). A warning ends S2. -/
def warnCheck (i : Nat) (main : Bool) (temp : Int) (t : Nat) (d : Dev) : Dev :=
  if warnLimit d i ≤ temp ∧ !d.thm.raised.contains i then
    wakeS2 t ((if main then raise else raiseP) .thermWarn [i, twos 32 temp] (onThm (fun h => { h with raised := h.raised ++ [i], warn := true }) d))
  else if temp ≤ warnLimit d i - 20 then
    onThm (fun h => { h with raised := h.raised.filter fun x => decide (x ≠ i), warn := h.warn && !allCool d }) d
  else d

/-- The rate warning (R478): in force while any slope exceeds WARN_RATE; recorded when it comes into force. -/
def rateCheck (i : Nat) (d : Dev) : Dev :=
  let any := ((List.range 48).filter (takesPart d)).any fun j => steeper d j (warnWin d) (warnRate d)
  let d' := onThm (fun h => { h with rateWarn := any }) d
  if any && !d.thm.rateWarn then raise .thermRate [i, twos 32 (slope d i (warnWin d))] d' else d'

/-! ### The thermal ceiling (R478-R480) -/

/-- Falls and rises are a level; in any 1 ms at most one fall (R480), which restarts the 5 s. -/
def fallOne (t : Nat) (d : Dev) : Dev :=
  if d.thm.fellAt.any (fun a => decide (t < a + 1000000)) ∨ d.thm.ceil = 0 then d
  else onThm (fun h => { h with ceil := h.ceil - 1, fellAt := some t, calmFrom := t }) d

/-- The level that the rate action, or more than 8 failed sensors, still bring the ceiling down to (R474, R478). -/
def fallTarget (d : Dev) : Nat := min (d.thm.fallTo.getD 7) (if 8 < failedMain d then 4 else 7)

/-- One millisecond's fall toward that level. -/
def fallToward (t : Nat) (d : Dev) : Dev :=
  let d := if fallTarget d < d.thm.ceil then fallOne t d else d
  if d.thm.fallTo.any fun l => decide (d.thm.ceil ≤ l) then onThm (fun h => { h with fallTo := none }) d else d

/-- The rate action: a slope over ACT_WIN above ACT_RATE, again only after a further ACT_WIN. -/
def rateAction (i t : Nat) (d : Dev) : Dev :=
  if steeper d i (actWin d) (actRate d) ∧ !d.thm.rateFired.any (fun a => decide (t < a + actWin d)) then
    let goal := d.pwr.pl - 1
    onThm (fun h => { h with rateFired := some t, steps := satInc 8 h.steps, fallTo := if goal < h.ceil then some goal else h.fallTo }) d
  else d

/-- Is a sensor at or above its throttle limit; is every one at least 3 °C below, with no slope above WARN_RATE (R479)? -/
def throttled (d : Dev) : Bool := (readings d 49).any fun e => decide (throttleLimit d e.1 ≤ e.2)
def calm (d : Dev) : Bool := !d.thm.rateWarn && (readings d 49).all fun e => decide (e.2 ≤ throttleLimit d e.1 - 30)

/-- The throttle begins with a fall at the crossing, or ends (R479). -/
def throttleCheck (t : Nat) (d : Dev) : Dev :=
  if throttled d then
    if d.thm.throttleFrom.isSome then d else fallOne t (onThm (fun h => { h with throttleFrom := some (t + 100000000), throttles := satInc 8 h.throttles }) d)
  else onThm (fun h => { h with throttleFrom := none }) d

/-- What every main-die or HBM reading does to the ceiling. -/
def ceilingCheck (t : Nat) (d : Dev) : Dev :=
  let d := fallToward t (throttleCheck t d)
  if calm d then d else onThm (fun h => { h with calmFrom := t }) d

/-- THROTTLE_STEP: 100 ms on, a sensor still at or above its limit (R479). -/
def execThrottleStep (t : Nat) (s : State) : Host.Outcome State Fault Refusal :=
  s.on fun d => withSome d.thm.throttleFrom (fun a => onlyIf (mainUp d && decide (a ≤ t)) fun d => fallOne t (onThm (fun h => { h with throttleFrom := some (a + 100000000) }) d)) (tick t d)

/-- THERMAL_CEILING_RISE: 5 s calm; a fall in the same millisecond wins (R479, R480). -/
def execThermalCeilingRise (t : Nat) (s : State) : Host.Outcome State Fault Refusal :=
  s.on fun d => onlyIf (mainUp d && calm d && d.thm.throttleFrom.isNone && decide (d.thm.ceil < fallTarget d) && decide (d.thm.calmFrom + 5000000000 ≤ t) &&
      !d.thm.fellAt.any (fun a => decide (t < a + 1000000)))
    (onThm fun h => { h with ceil := h.ceil + 1, calmFrom := t }) (tick t d)

/-! ### Orderly stop and hard trip (R481-R485) -/

/-- Time to trip of a sensor, ns, rounded down: none is unbounded (R481). -/
def toTrip (d : Dev) (i : Nat) (temp : Int) : Option Nat :=
  let r := rise d i (actWin d)
  if r ≤ 0 then none else some (((1150 - temp) * (actWin d : Int)) / r).toNat

/-- Does the projection exceed 50 ms? -/
def farFromTrip (d : Dev) (i : Nat) (temp : Int) : Bool := decide (50000000 * rise d i (actWin d) < (1150 - temp) * (actWin d : Int))

/-- A stop or trip is noted for R485. -/
def noteStop (t : Nat) (h : Thm) : Thm := { h with stops := (h.stops.filter fun a => decide (t < a + 3600000000000)) ++ [t] }

/-- The commands that an orderly stop turns away (R482): not past their commit point, nor reads in service. -/
def stoppable (c : Cmd) : Bool := beforeCommit c && !decide (c.stage = .reading)

/-- An orderly stop begins. -/
def orderlyStop (i : Nat) (temp : Int) (proj : Option Nat) (t : Nat) (d : Dev) : Dev :=
  if d.thm.stopping || d.thm.tripAt.isSome || d.kpr.pf || d.kpr.flush.isSome || decide (d.kpr.state ≠ 2) then d else
  let d := raise .thermStop [i, twos 32 temp, match proj with | some ns => ns / 1000000 | none => Config.unboundedMs.toNat] d
  let d := onThm (fun h => noteStop t { h with stopping := true, stopCnt := satInc 8 h.stopCnt }) d
  forAll ((tfilter d.qm.cmds fun _ c => stoppable c).map (·.1)) (fun id d => finishErr id .thermalStop (cancel id d)) d

/-- A hard trip with the main die running: the flush; with the keeper link down, as R443 (R483, R484). -/
def hardTrip (i : Nat) (main : Bool) (temp : Int) (t : Nat) (d : Dev) : Dev :=
  if d.thm.tripAt.isSome || d.kpr.flush.isSome || decide (d.kpr.state ≠ 2) then d else
  let d := (if main then raise else raiseP) .thermTrip [i, twos 32 temp, twos 32 (slope d i (actWin d))] d
  let d := onThm (fun h => noteStop t { h with stopping := false, trips := satInc 8 h.trips }) d
  if d.kpr.pf then d
  else if d.pwr.klinkUp then startFlush 1 t d
  else onThm (fun h => { h with tripAt := some t }) d

/-- The stop and trip limits of a main-die sensor; a trip wins over a stop (R481, R484). -/
def stopCheck (i : Nat) (temp : Int) (t : Nat) (d : Dev) : Dev :=
  if temp < 1050 then d
  else if 1150 ≤ temp then hardTrip i true temp t d
  else match toTrip d i temp with
    | none => orderlyStop i temp none t d
    | some ns => if farFromTrip d i temp then orderlyStop i temp (some ns) t d else hardTrip i true temp t d

/-- A main-die conversion. -/
def thmSample (i : Nat) (temp : Int) (t : Nat) (d : Dev) : Dev :=
  if outOfRange temp then fallToward t (failMain i d) else
  let d := noteReading i temp t (onThm (fun h => { h with temps := tset h.temps i temp }) d)
  stopCheck i temp t (ceilingCheck t (rateAction i t (rateCheck i (warnCheck i true temp t d))))

/-- THM_SAMPLE: sensors 0-47. -/
def execThmSample (sensor : Nat) (temp : Int) (t : Nat) (s : State) : Host.Outcome State Fault Refusal :=
  s.on fun d => onlyIf (mainUp d && decide (sensor < 48) && sensorPresent d sensor && !d.thm.failed.contains sensor && !stale d sensor) (thmSample sensor temp t) (tick t d)

/-- The HBM stack: doubled refresh with its warning, throttle at 95 °C, an orderly stop at 100 °C (R477, R481). -/
def hbmSample (temp : Int) (t : Nat) (d : Dev) : Dev :=
  if outOfRange temp then failMain 48 d else
  let d := warnCheck 48 true temp t (noteReading 48 temp t (onThm (fun h => { h with temps := tset h.temps 48 temp }) d))
  let d := ceilingCheck t (onThm (fun h => { h with hbmHot := h.raised.contains 48 }) d)
  if 1000 ≤ temp then orderlyStop 48 temp (toTrip d 48 temp) t d else d

/-- HBM_SENSOR_READ. -/
def execHbmSensorRead (temp : Int) (t : Nat) (s : State) : Host.Outcome State Fault Refusal :=
  s.on fun d => onlyIf (mainUp d && !d.thm.failed.contains 48) (hbmSample temp t) (tick t d)

/-- SENSOR_TIMEOUT: a conversion did not end within 5 ms; 0-48 on the main die, 0x100 + n on the power die (R474, R504). -/
def execSensorTimeout (sensor t : Nat) (s : State) : Host.Outcome State Fault Refusal :=
  s.on fun d => if sensor < 49 then onlyIf (mainUp d && sensorPresent d sensor && !stale d sensor) (fun d => fallToward t (failMain sensor d)) (tick t d)
    else onlyIf (d.kpr.running && decide (0x100 ≤ sensor) && decide (sensor < 0x104)) (failPower (sensor - 0x100)) (tick t d)

/-- A power-die reading of 125 °C with the main die off: the charger stops and every board regulator is disabled (R483). -/
def powerTripOff (i : Nat) (temp : Int) (t : Nat) (d : Dev) : Dev :=
  let d := raiseP .thermTrip [i, twos 32 temp, twos 32 (slope d i (actWin d))] (onThm (fun h => noteStop t { h with trips := satInc 8 h.trips }) d)
  let d := { d with hld := { d.hld with charging := false } }
  if d.kpr.ken = [] then d else if d.kpr.restart = some 1 then cutRails 0 (some 1) d else cutRails 5 none (tripWait 1 t d)

/-- A power-die conversion: warning at 110 °C, trip at 125 °C, once per crossing. -/
def pthSample (n : Nat) (temp : Int) (t : Nat) (d : Dev) : Dev :=
  if outOfRange temp then failPower n d else
  let i := 0x100 + n
  let d := warnCheck i false temp t (noteReading i temp t (onThm (fun h => { h with pth := tset h.pth n temp }) d))
  if temp < 1250 then onThm (fun h => { h with raised := h.raised.filter fun x => decide (x ≠ 0x200 + n) }) d
  else if d.thm.raised.contains (0x200 + n) then d
  else
    let d := onThm (fun h => { h with raised := h.raised ++ [0x200 + n] }) d
    if d.kpr.state = 2 then hardTrip i false temp t d else if d.kpr.flush.isSome then d else powerTripOff i temp t d

/-- PTH_SAMPLE. -/
def execPthSample (sensor : Nat) (temp : Int) (t : Nat) (s : State) : Host.Outcome State Fault Refusal :=
  s.on fun d => onlyIf (d.kpr.running && decide (sensor < 4) && !d.thm.pthFailed.contains sensor) (pthSample sensor temp t) (tick t d)

/-- ORDERLY_STOP_DONE: every dirty byte is programmed, the journal tail too; the main die is dropped without a checkpoint (R482). Blocks of pages that are not full stay in rescue rows
as spills do (notes/assumptions/25.md). -/
def orderlyStopDone (t : Nat) (d : Dev) : Dev :=
  let d := programTail d
  let d := leave settled (layFlush (dirtyPositions d) d)
  dropRails none t (onKpr (fun k => { k with lastResult := 0 }) (onThm (fun h => { h with stopping := false, restartFrom := some t }) d))

/-- ORDERLY_STOP_DONE. -/
def execOrderlyStopDone (t : Nat) (s : State) : Host.Outcome State Fault Refusal :=
  s.on fun d => onlyIf (decide (d.kpr.state = 2) && d.thm.stopping && !d.kpr.pf && d.kpr.flush.isNone && decide (d.qm.cmds = []) && !programming d) (orderlyStopDone t) (tick t d)

/-- THM_RESTART: WAIT in s, MAX. -/
def restartWait (d : Dev) : Nat := max 10 (fld (rd d 0xA002C) 0 8)
def restartMax (d : Dev) : Nat := clampN 1 10 (fld (rd d 0xA002C) 8 8)

/-- Stops and trips within the hour that ends with the last of them. -/
def stopsInHour (d : Dev) : Nat := match d.thm.stops.getLast? with
  | some z => (d.thm.stops.filter fun a => decide (z < a + 3600000000000)).length
  | none => 0

/-- THERMAL_RESTART: WAIT after the stop and with every power-die sensor below 85 °C, a warm start with cause 3; after MAX stops and trips within an hour none (R485). -/
def execThermalRestart (t : Nat) (s : State) : Host.Outcome State Fault Refusal :=
  s.on fun d => withSome d.thm.restartFrom (fun a => onlyIf (decide (d.kpr.state = 5) && vinOk d && decide (a + 1000000000 * restartWait d ≤ t) && !d.thm.lockout &&
      (List.range 4).all fun n => d.thm.pthFailed.contains n || decide (tgetD d.thm.pth n 0 < 850)) fun d =>
    if restartMax d ≤ stopsInHour d then raiseP .thermLockout [stopsInHour d] (onThm (fun h => { h with restartFrom := none, lockout := true }) d)
    else railsUp t (onKpr (fun k => { k with restart := some 3 }) (onThm (fun h => { h with restartFrom := none }) d))) (tick t d)

/-! ### Electrical ceiling and sprint (R486-R488) -/

/-- Device power: main-die and HBM rails, mW. -/
def devPower (rails : List Nat) : Nat := sumL (rails.take 8)

/-- The samples that the mean is taken over: those of the last second; outside a sprint none from within one. -/
def meanOver (d : Dev) : List (Nat × Nat) := if d.thm.sprint then d.thm.pw else d.thm.pw.filter fun e => decide (d.thm.pwFrom < e.1)

/-- Mean power over the last second, mW. -/
def meanPower (d : Dev) : Nat := sumL ((meanOver d).map (·.2)) / max 1 (meanOver d).length

/-- Do the samples span a second, at one each 10 ms? -/
def meanFull (t : Nat) (d : Dev) : Bool := (meanOver d).any fun e => decide (e.1 + 990000000 ≤ t)

/-- The bucket: 1,200 J less the excess of the last 300 s, µJ; LEFT in ms at 290 W (R487). -/
def bucket' (d : Dev) : Nat := 1200000000 - sumL (d.thm.excess.map (·.2))
def bucketMs (d : Dev) : Nat := bucket' d / 40000

/-- The limit on mean power: 250 W, 290 W in a sprint. -/
def powerLimit (sprint : Bool) : Nat := if sprint then 290000 else 250000

/-- Note a sample: power of the last second, excess energy of the last 300 s. -/
def notePower (rails : List Nat) (vinMw t : Nat) (d : Dev) : Dev :=
  let p := devPower rails
  onThm (fun h => { h with
    rails := (rails.take 8).zipIdx.foldl (fun m e => tset m (e.2 + 1) e.1) h.rails
    vinMw := vinMw
    pw := (t, p) :: (h.pw.filter fun e => decide (t < e.1 + 1000000000))
    excess := (if 250000 < p then [(t, (p - 250000) * 10)] else []) ++ h.excess.filter fun e => decide (t < e.1 + 300000000000) }) d

def elecFall (h : Thm) : Thm := { h with elec := h.elec - 1 }

/-- The electrical ceiling (R486): VDDC current above 300 A falls a level each 10 ms; mean power above 250 W outside a sprint falls one, above 290 W ends a sprint; 1 s below
95 % of both limits raises one. -/
def elecCheck (vddcMa t : Nat) (d0 : Dev) : Dev :=
  let d := d0
  let m := meanPower d
  let above := meanFull t d && decide (powerLimit d.thm.sprint < m)
  let low := decide (100 * vddcMa < 95 * 300000) && decide (100 * m < 95 * powerLimit d.thm.sprint)
  let d := if 300000 < vddcMa then onThm elecFall d else d
  let d := if above && d.thm.sprint then onThm (endSprint t) d
    else if above && !d.thm.elecOver then onThm elecFall d else d
  let d := onThm (fun h => { h with elecOver := above && !d0.thm.sprint }) d
  if !low then onThm (fun h => { h with elecCalm := t }) d
  else if d.thm.elecCalm + 1000000000 ≤ t ∧ d.thm.elec < 7 then onThm (fun h => { h with elec := h.elec + 1, elecCalm := t }) d else d

/-- THM_SPRINT. -/
def sprintOn (d : Dev) : Bool := bit (rd d 0xA0020) 0
def sprintMin (d : Dev) : Nat := clampN 1 30 (fld (rd d 0xA0020) 8 8)

/-- Entry to and exit from PL7 (R488). busy: per cent of the last 10 ms. -/
def sprintCheck (busy t : Nat) (d : Dev) : Dev :=
  let slack := if busy < 90 then some (d.thm.slackFrom.getD (t - 10000000)) else none
  let d := onThm (fun h => { h with slackFrom := slack }) d
  if d.thm.sprint then
    if bucket' d = 0 ∨ ceilNow d < 7 ∨ slack.any (fun a => decide (a + 1000000000 ≤ t)) = true then onThm (endSprint t) d else d
  else if sprintOn d ∧ ceilNow d = 7 ∧ sprintMin d * 40000000 ≤ bucket' d ∧ 90 < busy then onThm (fun h => { h with sprint := true }) d else d

/-- POWER_SAMPLE: rail powers in mW in the order of R445, VIN's, VDDC's mean current in mA, the clusters' busy share. The level follows (R456). -/
def execPowerSample (rails : List Nat) (vinMw vddcMa busy t : Nat) (s : State) : Host.Outcome State Fault Refusal :=
  s.on fun d => onlyIf (mainUp d) (fun d =>
    let was := d.thm.sprint
    let d := sprintCheck busy t (elecCheck vddcMa t (notePower rails vinMw t d))
    if d.thm.sprint = was then d else steer d) (tick t d)

/-! ### Ageing (R491-R495) -/

def onAge (f : Age → Age) (d : Dev) : Dev := { d with age := f d.age }

/-- The junction band of THM_MAX (R492). -/
def bandOf (temp : Int) : Nat := if temp < 200 then 0 else min 15 ((temp - 100) / 100).toNat

/-- The stress of an hour, as the exponent of two in tenths: (T - 90) / 10 + (V - 0.80) / 0.05 (R492). -/
def stressExp (cell : Nat) : Int :=
  let v : Int := match cell / 16 with
    | 0 => -40 | 1 => -36 | 2 => -30 | 3 => -24 | 4 => -16 | 5 => -10 | 6 => 0 | _ => 10
  10 * (cell % 16 : Nat) - 75 + v

/-- 2^(e/10) in units of 2^-32: whole powers of two exactly, the fraction's value within the octave as the implementation rounds it (notes/assumptions/28.md). -/
def stressOf (e : Int) : Nat :=
  let q := e / 10
  let f := (e % 10).toNat
  let m := if f = 0 then 2 ^ 32 else clampN (2 ^ 32) (2 ^ 33) (Config.pow2Frac (f * 2 ^ 32))
  if 0 ≤ q then m * 2 ^ q.toNat else m / 2 ^ (-q).toNat

/-- The accumulated stress, and the hours. -/
def stressSum (d : Dev) : Nat := sumL (d.age.cells.map fun e => e.2 * stressOf (stressExp e.1))
def ageHours (d : Dev) : Nat := sumL (d.age.cells.map (·.2))

/-- The silicon prediction, tenths of a year (R493). drift in 0.001 %: 5 % is 5,000. -/
def siliconEol (h hours sNow : Nat) (drift : Int) : Nat :=
  if hours < 168 ∨ drift ≤ 0 ∨ sNow = 0 then 0xFFFF else
  let k := drift.toNat
  min 0xFFFE (10 * (h * 5000 ^ 5 - h * k ^ 5) / (k ^ 5 * sNow * 8766))

/-- The sentinel with the largest drift, the lowest of equals. -/
def worstSentinel (l : List Int) : Nat × Int := match maxBy (fun e => (e.1 + 100000000 : Int).toNat) l.zipIdx with
  | some e => (e.2, e.1)
  | none => (0, 0)

/-- The drift of a sentinel, 0.001 % units: 1 - f_stressed / f_unstressed, less the factory offset held in fuses (R491). DESIGN CHOICE (notes/assumptions/75.md): rounded toward minus infinity. -/
def driftOf (i : Nat) (f : Nat × Nat) : Int := (100000 * ((f.2 : Int) - f.1)) / (f.2 : Int) - (Config.ageOffset i).toInt

/-- AGE_HOUR_TICK: the stressed and unstressed frequencies of the 32 sentinels, measured now. -/
def execAgeHourTick (freqs : List (Nat × Nat)) (t : Nat) (s : State) : Host.Outcome State Fault Refusal :=
  s.on fun d => onlyIf (mainUp d) (fun d =>
    let drifts := freqs.zipIdx.map fun e => driftOf e.2 e.1
    let temp := match thmMax d with | some e => e.2 | none => 0
    let cell := d.pwr.pl * 16 + bandOf temp
    let d := onAge (fun a => { a with
      cells := tset a.cells cell (satInc 32 (tgetD a.cells cell 0)), lastCell := cell, tjSum := a.tjSum + temp, plSum := a.plSum + d.pwr.pl
      drift := (drifts.take 32).zipIdx.foldl (fun m e => tset m e.2 e.1) a.drift }) d
    let w := worstSentinel (drifts.take 32)
    onAge (fun a => { a with sentinel := w.1, eolYears := siliconEol (stressSum d) (ageHours d) (stressOf (stressExp cell)) w.2 }) d) (tick t d)

/-- AGE_AVG (R495): both means, and whether they lie within the rating. -/
def ageAvg (d : Dev) : Nat :=
  let n := ageHours d
  if n = 0 then 0 else
  let tj := d.age.tjSum / (n : Int)
  let pl := 10 * d.age.plSum / n
  twos 12 tj + 2 ^ 16 * pl + 2 ^ 23 * b2n (decide (d.age.tjSum ≤ 900 * (n : Int)) && decide (d.age.plSum ≤ 6 * n))

/-! ### The hold-up bank's fade (R494) -/

/-- C0: sum and count of the valid results of the first 7 days after RESET, or after the first result. -/
def bankC0 (d : Dev) : Nat × Nat :=
  let first := d.age.bank.head?.map (·.1)
  let week := fun (frm : Nat) => d.age.bank.filter fun e => decide (e.1 < frm + 168)
  let l := match d.age.c0From with
    | some r => if week r = [] then week (first.getD 0) else week r
    | none => week (first.getD 0)
  (sumL (l.map (·.2)), l.length)

/-- AGE_BANK_CFG.MIN_PCT. -/
def bankMin (d : Dev) : Nat := clampN 50 95 (fld (rd d 0xA1024) 0 7)

/-- The results of the last 90 days, hours counted from now. -/
def bankRecent (d : Dev) : List (Int × Int) :=
  (d.age.bank.filter fun e => decide (opHours d ≤ e.1 + 2160)).map fun e => ((e.1 : Int) - opHours d, (e.2 : Int))

/-- AGE_BANK_EOL.YEARS: the least-squares line's hours until C0 x MIN_PCT / 100, in tenths of a year of 8,766 h, rounded down. With n, sums Sx, Sy, Sxx, Sxy: slope
(n Sxy - Sx Sy) / D and value now (Sy Sxx - Sx Sxy) / D, D = n Sxx - Sx Sx. -/
def bankEol (d : Dev) : Nat :=
  let l := bankRecent d
  let n : Int := l.length
  let sx := l.foldl (fun a e => a + e.1) 0
  let sy := l.foldl (fun a e => a + e.2) 0
  let sxx := l.foldl (fun a e => a + e.1 * e.1) 0
  let sxy := l.foldl (fun a e => a + e.1 * e.2) 0
  let slope := n * sxy - sx * sy
  let den := n * sxx - sx * sx
  let c0 := bankC0 d
  let early := match d.age.bank.head? with | some e => decide (opHours d < e.1 + 168) | none => true
  let lastLow := match d.age.bank.getLast? with | some e => decide (100 * e.2 * c0.2 ≤ c0.1 * bankMin d) | none => false
  if early then 0xFFFF
  else if lastLow then 0
  else if 0 ≤ slope ∨ den ≤ 0 then 0xFFFF
  else
    -- hours = (value now - limit) / -slope, the limit c0.1 * MIN / (100 * c0.2)
    let num := (sy * sxx - sx * sxy) * (100 * c0.2 : Nat) - (c0.1 * bankMin d : Nat) * den
    if num ≤ 0 then 0 else min 0xFFFE (10 * num / (-slope * (100 * c0.2 : Nat) * 8766)).toNat

/-- AGE_BANK_EOL.FADE: the latest valid capacitance, % of C0. -/
def bankFade (d : Dev) : Nat := match d.age.bank.getLast? with
  | some e => min 127 (100 * e.2 * (bankC0 d).2 / max 1 (bankC0 d).1)
  | none => 0

/-- AGE_BANK_RESET: the history and C0 go. -/
def execAgeBankReset (path : Path) (s : State) : Host.Outcome State Fault Refusal :=
  s.onReg path fun d => onlyIf (reachable d path 0xA1024) (fun d => onAge (fun a => { a with bank := [], c0From := some (opHours d) }) d) d

end Sys2Proof.Machine
end

