-- ==== Sys2Proof/Machine/Sillage.lean ====
section
/-!
DEFINITION. The Sillage recorder's commands: recording, reading under freeze, clearing (spec/15_sillage_and_debug.md R497-R511, R560).
-/

namespace Sys2Proof.Machine

/-! ### Recording (R497, R499-R502) -/

/-- MAIN_RECORD_STORE: the oldest event that has arisen on the main die enters its store of 64, or is lost; while the keeper link is free the store's oldest goes over, and with it
word of the losses (R500, R503). -/
def mainRecordStore (busy : Bool) (d : Dev) : Dev :=
  let d := match d.sil.inboxMain with
    | [] => d
    | e :: r => onSil (fun s =>
        if s.store.length < 64 then { s with inboxMain := r, store := s.store ++ [e] }
        else { s with inboxMain := r, lostMain := s.lostMain + 1, lostType := if s.lostMain = 0 then e.ty.code.1 else s.lostType }) d
  if busy || !d.pwr.klinkUp then d else
  let d := onSil (fun s => { s with lostMain := 0, lostType := 0 }) (silLose 2 d.sil.lostMain d.sil.lostType d)
  match d.sil.store with
  | [] => d
  | e :: r => onSil (fun s => { s with store := r, inbox := s.inbox ++ [(e, true)] }) d

/-- MAIN_RECORD_STORE. -/
def execMainRecordStore (busy : Bool) (t : Nat) (s : State) : Host.Outcome State Fault Refusal :=
  s.on fun d => onlyIf d.pwr.aon (mainRecordStore busy) (tick t d)

/-- SIL_RECORD: the next event reaches the power die's recorder (R501). -/
def execSilRecord (t : Nat) (s : State) : Host.Outcome State Fault Refusal :=
  s.on fun d => onlyIf d.kpr.running (fun d => match d.sil.inbox with
    | [] => d
    | e :: r => silArrive e.1 e.2 (onSil (fun s => { s with inbox := r }) d)) (tick t d)

/-- A record is programmed at the head under the next RSEQ (R497, R501, R560). -/
def silWrite (r : SilRec) (d : Dev) : Dev :=
  onSil (fun s => { s with
    prog := none, slots := tset s.slots s.head { r with rseq := s.rseq }, rseq := (s.rseq + 1) % 2 ^ 32, head := (s.head + 1) % 4096
    first := if s.slots = [] then s.head else s.first }) d

/-- SIL_PROGRAM_DONE. -/
def execSilProgramDone (t : Nat) (s : State) : Host.Outcome State Fault Refusal :=
  s.on fun d => withSome d.sil.prog (fun r => onlyIf d.kpr.running fun d => silKick (silWrite r d)) (tick t d)

/-- The sector that holds the head is erased; the first erase since a clear that removes a record wraps the ring (R497, R560). -/
def silErase (s : Sil) : Sil :=
  let left := tfilter s.slots fun k _ => decide (k / 64 ≠ s.head / 64)
  { s with erasing := false, slots := left, wrapped := s.wrapped || decide (left ≠ s.slots) }

/-- SIL_SECTOR_ERASE_DONE. -/
def execSilSectorEraseDone (t : Nat) (s : State) : Host.Outcome State Fault Refusal :=
  s.on fun d => onlyIf (d.kpr.running && d.sil.erasing) (fun d => silKick (onSil silErase d)) (tick t d)

/-- SIL_TOKEN_TICK: one token every 2 s, up to 2,048 (R502). -/
def execSilTokenTick (t : Nat) (s : State) : Host.Outcome State Fault Refusal :=
  s.on fun d => onlyIf (d.kpr.running && decide (d.sil.tokAt + 2000000000 ≤ t)) (onSil fun s => { s with tokens := min 2048 (s.tokens + 1), tokAt := s.tokAt + 2000000000 }) (tick t d)

/-- SIL_HOUR_STORE: the hour count goes to embedded flash (R499). -/
def execSilHourStore (t : Nat) (s : State) : Host.Outcome State Fault Refusal :=
  s.on fun d => (fun d => onlyIf (d.kpr.running && decide (d.sil.hourStored < opHours d)) (onSil fun s => { s with hourStored := opHours d }) d) (tick t d)

/-- SIL_OLDEST.SLOT (R560). -/
def silOldest (s : Sil) : Nat :=
  if !s.wrapped then (if s.slots = [] then s.head else s.first) else
  match ((List.range 64).map fun i => (s.head / 64 + i) % 64).find? fun k => (List.range 64).all fun j => thas s.slots (64 * k + j) with
  | some k => 64 * k
  | none => s.first

/-! ### Reading under freeze (R506-R508, R528) -/

def silPath (d : Dev) (p : Path) : SilPath := if p = .mgmt then d.sil.mgmt else d.sil.bar0
def onSilPath (p : Path) (f : SilPath → SilPath) (d : Dev) : Dev := onSil (fun s => if p = .mgmt then { s with mgmt := f s.mgmt } else { s with bar0 := f s.bar0 }) d

/-- SIL_FREEZE: setting FREEZE starts a freeze and its 10 s; clearing it ends it. -/
def silFreeze (p : Path) (v t : Nat) (d : Dev) : Dev :=
  if bit v 0 then (if (silPath d p).frozen then d else onSilPath p (fun x => { x with frozen := true, since := some t, lost := 0 }) d)
  else if (silPath d p).frozen then silThaw p d else d

/-- SIL_FREEZE. -/
def execSilFreeze (path : Path) (v : Word) (t : Nat) (s : State) : Host.Outcome State Fault Refusal :=
  s.onReg path fun d => onlyIf (reachable d path 0x10300C) (silFreeze path v.toNat t) (tick t d)

/-- SIL_FREEZE_TIMEOUT: 10 s after it was set. -/
def execSilFreezeTimeout (path : Path) (t : Nat) (s : State) : Host.Outcome State Fault Refusal :=
  s.onReg path fun d => onlyIf (d.kpr.running && (silPath d path).frozen && (silPath d path).since.any fun a => decide (a + 10000000000 ≤ t)) (silThaw path) (tick t d)

/-- SIL_FREEZE as a path reads it. -/
def silFreezeReg (d : Dev) (p : Path) : Nat :=
  b2n (silPath d p).frozen + 2 * b2n (silPath d (if p = .mgmt then .bar0 else .mgmt)).frozen + 256 * silWaiting d.sil.queue + 2 ^ 16 * (silPath d p).lost

/-- The 64 bytes of a record (R498). -/
def silBytes (r : SilRec) : List Byte :=
  let b := leBytes 4 r.rseq ++ leBytes 2 r.ty ++ leBytes 1 (r.sev + 4 * r.src) ++ leBytes 1 0 ++ leBytes 3 r.pcc ++ leBytes 3 r.hours ++ leBytes 2 r.secs ++
    (List.range 11).flatMap fun i => leBytes 4 (r.ps.getD i 0)
  b ++ leBytes 4 (crc32c b)

/-- The 16 words of a slot; an erased one reads all ones (R497). -/
def silWords (s : Sil) (slot : Nat) : List Word := match tget s.slots slot with
  | some r => (List.range 16).map fun i => BitVec.ofNat 32 (leAt (silBytes r) (4 * i) 4)
  | none => List.replicate 16 0xFFFFFFFF

/-- A read of SIL_WINDOW: word 0 latches the cursor's slot, word 15 moves the cursor on (R506). -/
def silWord (p : Path) (w : Nat) (d : Dev) : Word × Dev :=
  let d := if w = 0 then onSilPath p (fun x => { x with window := silWords d.sil x.cursor }) d else d
  ((silPath d p).window.getD w 0, if w = 15 then onSilPath p (fun x => { x with cursor := (x.cursor + 1) % 4096 }) d else d)

/-- The word goes out as the read's answer. -/
def silWindowRead (p : Path) (w : Nat) (d : Dev) : Dev := let r := silWord p w d; send (.regRead (0x103100 + 4 * w) r.1) r.2

/-- SIL_WINDOW_READ. -/
def execSilWindowRead (path : Path) (word : Nat) (s : State) : Host.Outcome State Fault Refusal :=
  s.onReg path fun d => onlyIf (reachable d path 0x103100 && decide (word < 16)) (silWindowRead path word) d

/-! ### Clearing (R509, R510) -/

/-- The signed message. -/
def clearMessage (d : Dev) : List Byte :=
  [0x5A, 0x39, 0x20, 0x53, 0x49, 0x4C, 0x20, 0x43, 0x4C, 0x45, 0x41, 0x52] ++ leBytes 8 Config.deviceId.toNat ++ leBytes 4 d.sil.clrCnt

/-- Why a clear is refused: RESULT and REASON; none: it runs. -/
def clearRefused (d : Dev) : Option (Nat × Nat) := match d.sec.sig with
  | none => some (3, 1)
  | some k =>
    if d.sil.bar0.frozen || d.sil.mgmt.frozen then some (3, 2)
    else if d.sil.clearing || d.sec.erasePend then some (3, 3)
    else if ecdsaOk k (silSig d) (clearMessage d) then none else some (2, 0)

/-- A clear begins, or is refused with its record. -/
def silClearGo (d : Dev) : Dev := match clearRefused d with
  | some (r, q) => raiseP .secCmd [0x10, r, q] (onSil (fun s => { s with clearResult := r, clearReason := q }) d)
  | none => onSil (fun s => { s with clearing := true, clearResult := 0, clearReason := 0 }) d

/-- SIL_CLEAR_GO. -/
def execSilClearGo (path : Path) (t : Nat) (s : State) : Host.Outcome State Fault Refusal :=
  s.onReg path fun d => onlyIf (reachable d path 0x10301C) silClearGo (tick t d)

/-- Every sector is erased; EV_CLEAR is the first record after (R505, R509, R560). -/
def silCleared (d : Dev) : Dev :=
  let n := d.sil.slots.length
  let last := if n = 0 then Config.noRseq.toNat else (d.sil.rseq + 2 ^ 32 - 1) % 2 ^ 32
  let count := (d.sil.clrCnt + 1) % 2 ^ 32
  let item : SilItem := { item := silRec d ⟨.clear, [n, last, count]⟩ false, extra := true }
  silKick (onSil (fun s => { s with slots := [], clrCnt := count, wrapped := false, first := s.head, clearing := false, clearResult := 1, queue := item :: s.queue }) d)

/-- SIL_CLEAR_DONE: once a record being programmed and a sector erase in progress have ended. -/
def execSilClearDone (t : Nat) (s : State) : Host.Outcome State Fault Refusal :=
  s.on fun d => onlyIf (d.kpr.running && d.sil.clearing && d.sil.prog.isNone && !d.sil.erasing) silCleared (tick t d)

/-- SIL_CLEAR. -/
def silClearReg (d : Dev) : Nat := 2 * b2n d.sil.clearing + 4 * d.sil.clearResult + 16 * d.sil.clearReason

end Sys2Proof.Machine
end

