-- ==== Sys2Proof/Machine/Smt.lean ====
section
/-!
DEFINITION. Smiast: connections and their keys, packets received, timers, and the Ethernet interfaces beneath (spec/04_smiast_transport.md R121-R165, spec/12_security.md R419).
-/

namespace Sys2Proof.Machine

def onSmt (f : Smt → Smt) (d : Dev) : Dev := { d with smt := f d.smt }

/-! ### Interfaces (R121, R122) -/

/-- Can an interface receive now? -/
def rxOk (d : Dev) (i : Nat) : Bool := mainUp d && ifPresent d i && ifUp d i

/-- A frame arrives on an interface. -/
def rxFrame (i t : Nat) (f : Dev → Dev) (d : Dev) : Dev := onlyIf (rxOk d i) (fun d => f (touchPort (.eth (i / 8)) t d)) d

/-- A datagram or frame is dropped and counted in SMT_DROP.OTHER. -/
def dropOther (d : Dev) : Dev := onSmt (fun s => { s with dropOther := satInc 16 s.dropOther }) d

/-- Does a frame carry the VLAN its interface requires: the interface's own with VLAN_EN, no tag without (R121)? -/
def vlanOk (d : Dev) (i : Nat) (vlan : Option Nat) : Bool := decide (vlan = (ifTag d i).map (· % 4096))

/-- A frame that must carry the interface's tag; another is dropped and counted (R121, R122). -/
def rxTagged (i t : Nat) (vlan : Option Nat) (f : Dev → Dev) (d : Dev) : Dev := rxFrame i t (fun d => if vlanOk d i vlan then f d else dropOther d) d

/-- The MAC address of an interface. -/
def ifMac (d : Dev) (i : Nat) : Nat := rd d (0x21000 + 0x40 * i) + 2 ^ 32 * fld (rd d (0x21004 + 0x40 * i)) 0 16

/-- ETH_LINK_STATE_CHANGE: SPEED of SMT_IF_STATUS, 0 down, else the one rate that the port's split gives its interfaces (R121). A held port's links, and in S2 all, stay down (R450, R463). -/
def execEthLinkStateChange (iface speed : Nat) (s : State) : Host.Outcome State Fault Refusal :=
  s.on fun d => onlyIf (mainUp d && ifPresent d iface && (decide (speed = 0) || decide (speed = 4 - fld (rd d (0x20020 + 4 * (iface / 8))) 0 2))) (fun d =>
    onSmt (fun s => { s with links := tsetD s.links iface (if ethHeld d (iface / 8) || inS2 d then 0 else speed) 0 }) d) d

/-- SMT_ARP_REQUEST: who asks (eth, spa) and for which address. -/
def execSmtArpRequest (iface : Nat) (eth : EthSrc) (spa tpa t : Nat) (s : State) : Host.Outcome State Fault Refusal :=
  s.on fun d => rxTagged iface t eth.vlan (fun d =>
    if ifV4 d iface = tpa ∧ tpa ≠ 0 then
      send (.eth iface (ifTag d iface) 0 eth.mac ([0, 1, 8, 0, 6, 4, 0, 2] ++ beBytes 6 (ifMac d iface) ++ beBytes 4 tpa ++ beBytes 6 eth.mac ++ beBytes 4 spa)) d
    else dropOther d) (tick t d)

/-- SMT_NEIGHBOR_SOLICIT: answered with an advertisement of the target and the MAC address. -/
def execSmtNeighborSolicit (iface : Nat) (eth : EthSrc) (src target t : Nat) (s : State) : Host.Outcome State Fault Refusal :=
  s.on fun d => rxTagged iface t eth.vlan (fun d =>
    if ifV6 d iface = target ∧ target ≠ 0 then send (.eth iface (ifTag d iface) 1 eth.mac (beBytes 16 target ++ beBytes 6 (ifMac d iface) ++ beBytes 16 src)) d
    else dropOther d) (tick t d)

/-- SMT_ICMP_ECHO: up to 1,000 answers in a second on each interface; IPv4 addresses as ::ffff:a.b.c.d. -/
def execSmtIcmpEcho (iface : Nat) (eth : EthSrc) (src dst : Nat) (body : List Byte) (t : Nat) (s : State) : Host.Outcome State Fault Refusal :=
  s.on fun d => rxTagged iface t eth.vlan (fun d =>
    let own := if isV4 dst then decide (ifV4 d iface = dst % 2 ^ 32) && decide (dst % 2 ^ 32 ≠ 0) else decide (ifV6 d iface = dst) && decide (dst ≠ 0)
    let recent := (tgetD d.smt.echoes iface []).filter fun a => decide (t < a + 1000000000)
    if own && decide (recent.length < 1000) then
      send (.eth iface (ifTag d iface) 2 eth.mac (beBytes 16 dst ++ beBytes 16 src ++ body)) (onSmt (fun s => { s with echoes := tset s.echoes iface (t :: recent) }) d)
    else dropOther d) (tick t d)

/-- SMT_IF_IPV6_LAST_WRITE: with the last word the whole address takes effect, in the order of the wire (R14). -/
def ipv6Last (i v : Nat) (d : Dev) : Dev :=
  let b := 0x21000 + 0x40 * i
  if d.rf.lock then d else
  onSmt (fun s => { s with ipv6 := tset s.ipv6 i (BitVec.ofNat 128 (((rd d (b + 0x10) * 2 ^ 32 + rd d (b + 0x14)) * 2 ^ 32 + rd d (b + 0x18)) * 2 ^ 32 + v)) }) (wrMasked (b + 0x1C) v d)

/-- SMT_IF_IPV6_LAST_WRITE. -/
def execSmtIfIpv6LastWrite (path : Path) (iface : Nat) (v : Word) (s : State) : Host.Outcome State Fault Refusal :=
  s.onReg path fun d => onlyIf (decide (iface < 64) && reachable d path (0x2101C + 0x40 * iface) && ifPresent d iface) (ipv6Last iface v.toNat) d

/-! ### The end of a connection (R129-R131) -/

/-- The connection an id names, with its present generation (R124). -/
def connNamed (d : Dev) (cid : Nat) : Option (Nat × Conn) := match tget d.smt.conns (cid % 2 ^ 18) with
  | some k => if cid < 2 ^ 26 ∧ k.gen = cid / 2 ^ 18 then some (cid % 2 ^ 18, k) else none
  | none => none

/-- A connection sends and fetches no more: its buffers come back, what it waited for fails. -/
def quiet (i : Nat) (k : Conn) (d : Dev) : Dev :=
  let d := onConn i (fun k => { k with unacked := [], queue := [], reqs := [], reqQueue := [], ackFrom := none, gapFrom := none }) d
  forAll (k.reqs.map (·.2.use) ++ k.reqQueue.map (·.1)) failUse
    (freeBuffers (fun u => match u with | .packet j _ => decide (j = i) | .staging id => k.queue.any (fun q => decide (q.cmd = some id)) | _ => false) d)

/-- Open to Failed (R129). -/
def smtFail (i : Nat) (k : Conn) (reason : Nat) (d : Dev) : Dev :=
  raise .smtFail [connId i k, reason] (quiet i k (onConn i (fun k => { k with st := .failed, reason := reason }) d))

/-- Closing to Shut. -/
def smtShut (i : Nat) (k : Conn) (d : Dev) : Dev := raise .smtClose [connId i k] (quiet i k (onConn i (fun k => { k with st := .shut }) d))

/-- The context is destroyed, the keys with it; the index is free under the next generation (R124, R129). -/
def smtDestroy (i : Nat) (k : Conn) (d : Dev) : Dev :=
  onSmt (fun s => { s with conns := tdel s.conns i, gens := tset s.gens i ((k.gen + 1) % 256), cache := s.cache.filter fun x => decide (x ≠ i), gcm := tmap s.gcm fun _ c => c.filter fun x => decide (x ≠ i) }) (quiet i k d)

/-! ### Sending again (R141, R153, R162) -/

def retryMax (d : Dev) : Nat := zeroAsOne (fld (rd d 0x20004) 12 4)
def ackCount (d : Dev) : Nat := zeroAsOne (fld (rd d 0x20004) 16 5)
def ackDelay (d : Dev) : Nat := 1000 * zeroAsOne (fld (rd d 0x20004) 24 8)

/-- Send an unacknowledged packet again: the same bytes; its timeout doubles, up to 1,000 µs. -/
def retransmit (i : Nat) (p : TxPkt) (t : Nat) (d : Dev) : Dev := match tget d.smt.conns i with
  | none => d
  | some k => match keyOf k p.kgen with
    | none => d
    | some key =>
      let d := touchPort (.eth (k.iface / 8)) t (smtEmit k (smtSeal key k.salt 1 p.psn p.hdr p.pay) d)
      let d := onConn i (fun k => { k with lastTx := t, unacked := k.unacked.map fun x => if x.psn = p.psn then
        { x with retries := x.retries + 1, rto := min (2 * x.rto) 1000000, timerFrom := t, retxAt := some t } else x }) d
      onSmt (fun s => { s with retx := satInc 32 s.retx }) d

/-- The previous key is discarded: what is still unacknowledged under it is sealed under the new one (R162). -/
def reseal (k : Conn) (p : TxPkt) : TxPkt :=
  if p.kgen = k.kgen then p else { p with kgen := k.kgen, hdr := p.hdr.take 2 ++ beBytes 1 k.kgen ++ p.hdr.drop 3 }

/-- Install a key as the next generation, or the first (R129, R161). -/
def installKey (i id : Nat) (key : BitVec 256) (t : Nat) (d : Dev) : Dev := match tget d.smt.conns i with
  | none => d
  | some k =>
    let first := decide (k.st = .pending)
    let d := onConn i (fun k => if first then { k with st := .isOpen, key := some key, kgen := 0, lastRx := t, lastTx := t, ecnAt := t }
      else { k with key := some key, kgen := (k.kgen + 1) % 256, prevKey := (match k.key with | some o => if k.unacked = [] then none else some (o, t) | none => none),
                    sealedTx := 0, sealedCtl := 0, rxSealed := 0, rxSealedCtl := 0, oldSealed := k.rxSealed, oldSealedCtl := k.rxSealedCtl
                    psnDue := false, waitKey := none }) d
    smtReqPump i (smtPump i (finishOk id 0 d))

/-- The previous key goes; a CONN_KEY that waited is carried out. -/
def dropPrev (i t : Nat) (d : Dev) : Dev := match tget d.smt.conns i with
  | none => d
  | some k =>
    let n := (k.unacked.filter fun p => decide (p.kgen ≠ k.kgen)).length
    let d := rekeyDue i 1 k.sealedTx (k.sealedTx + n) k (onConn i (fun k => { k with prevKey := none, unacked := k.unacked.map (reseal k), sealedTx := k.sealedTx + n }) d)
    match k.waitKey with
    | some w => installKey i w.1 w.2 t d
    | none => d

/-- Every packet sealed under the previous key is acknowledged: it goes (R162). -/
def drainCheck (i t : Nat) (d : Dev) : Dev := match tget d.smt.conns i with
  | some k => if k.prevKey.isSome ∧ k.unacked.all (fun p => decide (p.kgen = k.kgen)) = true then dropPrev i t d else d
  | none => d

/-! ### Receiving: the checks of R142 -/

/-- The header (R138). -/
structure RxHdr where
  ver : Nat
  ty : Nat
  flags : Nat
  kgen : Nat
  cid : Nat
  psn : Nat
  reqId : Nat
  addr : Nat
  rkey : Nat
  len : Nat
  seg : Nat
  deriving DecidableEq, Repr

def beAt (l : List Byte) (a n : Nat) : Nat := beNat (slice l a n)

/-- Read the header of a datagram. -/
def rxHdr (b : List Byte) : RxHdr := {
  ver := fld (beAt b 0 1) 4 4, ty := fld (beAt b 0 1) 0 4, flags := beAt b 1 1, kgen := beAt b 2 1, cid := beAt b 4 4, psn := beAt b 8 4
  reqId := beAt b 12 4, addr := beAt b 16 8, rkey := beAt b 24 4, len := beAt b 28 2, seg := beAt b 30 2 }

/-- The UDP checksum (R123): a zero one passes on IPv4 alone. -/
def csumOk (d : Dev) (p : RxPkt) : Bool :=
  if p.csum = 0 then isV4 p.src
  else decide (p.csum = udpChecksum (if isV4 p.src then ifV4 d p.iface else ifV6 d p.iface) p.src p.sport p.dport p.bytes)

/-- Use a connection's context: one that is not cached is a miss, and the next candidate gives way (R133, R134); its key stands in the GCM engine of its port (R411). -/
def useContext (i : Nat) (d : Dev) : Dev := loadGcm (((tget d.smt.conns i).elim 0 (·.iface)) / 8) i <| onSmt (fun s =>
  if s.cache.contains i then { s with cache := s.cache.filter (fun x => decide (x ≠ i)) ++ [i] }
  else { s with miss := satInc 32 s.miss, cache := (if 8192 ≤ s.cache.length then s.cache.drop 1 else s.cache) ++ [i] }) d

/-- NAKC for a generation that is not held, at most one in 100 µs (R163). -/
def nakc (i : Nat) (k : Conn) (got t : Nat) (d : Dev) : Dev :=
  if k.nakcAt.any fun a => decide (t < a + 100000) then d
  else onConn i (fun k => { k with nakcAt := some t }) (smtControl i 9 0 (beBytes 1 k.kgen ++ beBytes 1 got ++ [0, 0]) d)

/-- ECN_HOLD in ns; WIN. The spec says nothing of ECN_HOLD 0, outside its range 1-255: it counts as 1 µs (DESIGN CHOICE, notes/assumptions/66.md). -/
def ecnHold (d : Dev) : Nat := 1000 * zeroAsOne (fld (rd d 0x20008) 16 8)
def winOf (d : Dev) : Nat := max 4 (fld (rd d 0x20008) 0 10)

/-- A datagram marked CE halves the allowance, at most once in ECN_HOLD (R160). -/
def noteCe (i t : Nat) (d : Dev) : Dev :=
  let hold := ecnHold d
  onConn i (fun k =>
    let k := { k with ceSeen := true, ceCount := (k.ceCount + 1) % 2 ^ 32, ceAt := some t }
    if k.halvedAt.any fun a => decide (t < a + hold) then k else { k with window := max 4 (k.window / 2), halvedAt := some t }) d

/-! ### What packets do (R143, R146, R153, R158) -/

/-- A BELL entry: bytes 0-1 the ring, 2 the kind, 4-5 the value (R139, R143). A kind that R139 does not list is counted like a foreign ring (DESIGN CHOICE, notes/assumptions/66.md). -/
def bellEntry (cid t : Nat) (e : List Byte) (d : Dev) : Dev :=
  if beAt e 2 1 = 0 then wakeForCommand t (sqBell (.conn cid) (beAt e 0 2) (beAt e 4 2) d)
  else if beAt e 2 1 = 1 then cqBell (.conn cid) (beAt e 0 2) (beAt e 4 2) d
  else rejectDb d

/-- A CLOSE in order: acknowledged; no new RREQ, those still to be sent among them; pending WRs go out (R129). -/
def applyClose (i t : Nat) (d : Dev) : Dev := match tget d.smt.conns i with
  | some k => if k.st = .isOpen then
      let unsent := k.queue.filter fun q => decide (q.ty = 2)
      let fails := unsent.filterMap (fun q => (tget k.reqs q.reqId).map (·.use)) ++ k.reqQueue.map (·.1)
      let d := onConn i (fun k => { k with
        st := .closing, closeAt := some t, reqQueue := [], queue := k.queue.filter fun q => decide (q.ty ≠ 2)
        reqs := tfilter k.reqs fun r _ => !unsent.any fun q => decide (q.reqId = r) }) d
      let d := freeBuffers (fun u => unsent.any fun q => decide (u = .packet i q.ticket)) d
      smtPump i (smtAck i (forAll fails failUse d)) else d
  | none => d

/-- Apply what is held below the cumulative PSN, in order. A BELL of another length than R139 gives has its first whole entries applied, at most 8 (DESIGN CHOICE, notes/assumptions/66.md). -/
def applyHeld (i cid t : Nat) (h : List (Nat × Nat × List Byte)) (d : Dev) : Dev :=
  forAll h (fun e d => if e.2.1 = 8 then applyClose i t d else forAll ((List.range (min 8 (e.2.2.length / 8))).map fun j => slice e.2.2 (8 * j) 8) (bellEntry cid t) d) d

/-- Fetched descriptors arrive one after another; those past a WAIT, or of a ring that fetches no more, are not taken and are fetched again in their turn (R105). -/
def arriveBatch (sq t : Nat) : List (BitVec 512) → Dev → Dev
  | [], d => d
  | x :: r, d => match tget d.qm.sqs sq with
    | none => d
    | some s =>
      if s.held.isSome || s.deleting.isSome || s.halted || s.fault || stopped d then endDeletion sq (onCq s.cq (fun q => { q with reserved := q.reserved - (1 + r.length) }) d)
      else arriveBatch sq t r (arrive sq s x t d)

/-- Bytes for a command, from a key on. -/
def stageBytes (id base : Nat) (l : List Byte) (d : Dev) : Dev := onCmd id (fun c => { c with staged := l.zipIdx.foldl (fun m e => tset m (base + e.2) e.1) c.staged }) d

/-- A read of remote memory is complete. -/
def readDone (u : ReqUse) (l : List Byte) (t : Nat) (d : Dev) : Dev := match u with
  | .descs sq _ n => arriveBatch sq t ((List.range n).map fun j => BitVec.ofNat 512 (leNat (slice l (64 * j) 64))) d
  | .data id off => stageBytes id off l d
  | .tags id skip off => (match tget d.qm.cmds id with
    | some c => stageBytes id (tagBase + (off - skip)) ((l.drop (skip - off)).take (16 * dNblk c.desc - (off - skip))) d
    | none => d)
  | .list id => onCmd id (fun c => { c with stage := .fetched }) (stageBytes id listBase l d)
  | .params id => onCmd id (fun c => { c with stage := .fetched }) (stageBytes id 0 l d)

/-- A refused read: a ring's fetch faults the ring (R144), anything else fails its command (R146). -/
def readRefused (cid : Nat) (u : ReqUse) (d : Dev) : Dev :=
  let d := failUse u d
  match u with
  | .descs sq _ _ => raise .smtRingFault [sq, cid] (onSq sq (fun r => { r with fault := true }) d)
  | _ => d

/-- An RRESP segment (R146): it spends a unit of the client's credit (R158). -/
def rresp (i cid : Nat) (h : RxHdr) (pay : List Byte) (t : Nat) (d : Dev) : Dev :=
  let d := onConn i (fun k => { k with clientUsed := (k.clientUsed + 1) % 2 ^ 32 }) d
  match tget d.smt.conns i with
  | none => d
  | some k => match tget k.reqs h.reqId with
    | none => d
    | some q =>
      let p := psizeOf k
      let gone := fun (d : Dev) => onConn i (fun k => { k with reqs := tdel k.reqs h.reqId }) d
      if bit h.flags 3 then smtReqPump i (readRefused cid q.use (gone d))
      else if h.seg < cdiv q.len p ∧ pay.length = min p (q.len - h.seg * p) ∧ h.addr = q.addr + h.seg * p ∧ h.rkey = q.rkey ∧ !thas q.segs h.seg then
        let segs := tset q.segs h.seg pay
        if segs.length = cdiv q.len p then smtReqPump i (readDone q.use ((segs.map (·.2)).flatten) t (gone d))
        else onConn i (fun k => { k with reqs := tset k.reqs h.reqId { q with segs := segs } }) d
      else d

/-- Does an ACK cover a PSN: below CUM_PSN, or its SACK bit set (R139)? -/
def covers (cum sack psn : Nat) : Bool :=
  let o := (psn + 2 ^ 32 - cum) % 2 ^ 32
  decide (2 ^ 31 ≤ o) || (decide (o < 256) && bit sack o)

/-- PSNs above one that an ACK shows as received. -/
def higher (cum sack psn : Nat) : Nat := ((List.range 256).filter fun b => bit sack b && decide ((psn + 2 ^ 32 - cum) % 2 ^ 32 < b)).length

/-- An ACK (R78, R153, R158): packets it covers leave their buffers, fenced completions count, packets missing below three received ones go again. -/
def ackRx (i : Nat) (pay : List Byte) (t : Nat) (d : Dev) : Dev := match tget d.smt.conns i with
  | none => d
  | some k =>
    let cum := beAt pay 0 4
    let sack := leNat (slice pay 4 32)
    let done := k.unacked.filter fun p => covers cum sack p.psn
    let left := k.unacked.filter fun p => !covers cum sack p.psn
    let d := onConn i (fun k => { k with unacked := left, limit := beAt pay 36 4 }) d
    let d := freeBuffers (fun u => done.any fun p => decide (u = .packet i p.ticket)) d
    let d := forAll (done.filterMap (·.completes)) (fun cq => counted cq t) d
    let d := forAll (left.filter fun p => decide (3 ≤ higher cum sack p.psn) && !p.retxAt.any fun a => decide (t < a + rtoInit d)) (fun p => retransmit i p t) d
    let d := smtPumpAll (drainCheck i t d)
    match k.deleting with
    | some id => if done.any (fun p => decide (p.ty = 8)) then finishOk id 0 (smtDestroy i k d) else d
    | none => d

/-! ### Accepting a packet (R151, R152, R156, R164) -/

/-- Advance the cumulative PSN over what has been received. -/
def advance : Nat → Conn → Conn
  | 0, k => k
  | n + 1, k => if k.rxSet.contains k.rxCum then advance n { k with rxSet := k.rxSet.filter fun x => decide (x ≠ k.rxCum), rxCum := (k.rxCum + 1) % 2 ^ 32 } else k

/-- The packets a client has sealed in a space under a key grow by n; true: this one lies beyond the limit and is dropped (R164). Each data-space packet is new and counts once; in the control
space, numbered without gaps, the numbers skipped since the last one under the key count too. -/
def countSeal (i : Nat) (k : Conn) (space : Nat) (current : Bool) (step : Nat) (d : Dev) : Bool × Dev :=
  let old := if current then (if space = 0 then k.rxSealed else k.rxSealedCtl) else if space = 0 then k.oldSealed else k.oldSealedCtl
  let new := old + (if old = 0 then 1 else step)
  if sealLimit < new then (true, d)
  else if current then (false, rekeyDue i space old new k (onConn i (fun k => if space = 0 then { k with rxSealed := new } else { k with rxSealedCtl := new }) d))
  else (false, onConn i (fun k => if space = 0 then { k with oldSealed := new } else { k with oldSealedCtl := new }) d)

/-- A data-space packet. -/
def acceptData (i : Nat) (k : Conn) (h : RxHdr) (pay : List Byte) (t : Nat) (d : Dev) : Dev :=
  let off := (h.psn + 2 ^ 32 - k.rxCum) % 2 ^ 32
  if 2 ^ 31 ≤ off ∨ k.rxSet.contains h.psn then dropOther (onConn i (fun k => { k with gapFrom := some (k.gapFrom.getD t) }) d)
  else if 256 ≤ off then dropOther d
  else
    let c := countSeal i k 0 (decide (h.kgen = k.kgen)) 1 d
    if c.1 then d else
    let d := onConn i (fun k => { k with rxSet := k.rxSet ++ [h.psn], ackDue := k.ackDue + 1, ackFrom := some (k.ackFrom.getD t)
                                         gapFrom := if off = 0 then k.gapFrom else some (k.gapFrom.getD t)
                                         held := if h.ty = 3 then k.held else k.held ++ [(h.psn, h.ty, pay)] }) c.2
    let d := if h.ty = 3 then rresp i (connId i k) h pay t d else d
    let d := onConn i (advance 256) d
    let cum := match tget d.smt.conns i with | some k => k.rxCum | none => 0
    let below := fun (e : Nat × Nat × List Byte) => decide (2 ^ 31 ≤ (e.1 + 2 ^ 32 - cum) % 2 ^ 32)
    let now := match tget d.smt.conns i with | some k => k.held.filter below | none => []
    let d := onConn i (fun k => { k with held := k.held.filter fun e => !below e }) d
    let d := applyHeld i (connId i k) t (sortBy (fun a b => decide ((a.1 + 2 ^ 32 - k.rxCum) % 2 ^ 32 < (b.1 + 2 ^ 32 - k.rxCum) % 2 ^ 32)) now) d
    match tget d.smt.conns i with
    | some k => if ackCount d ≤ k.ackDue then smtAck i d else smtCredCheck i d
    | none => d

/-- A control packet: ACK, CRED, KEEP. -/
def acceptControl (i : Nat) (k : Conn) (h : RxHdr) (pay : List Byte) (t : Nat) (d : Dev) : Dev :=
  let step := (h.psn + 2 ^ 32 - k.ctlRx) % 2 ^ 32
  if step = 0 ∨ 2 ^ 31 ≤ step then dropOther d else
  let c := countSeal i k 2 (decide (h.kgen = k.kgen)) step d
  if c.1 then d else
  let d := onConn i (fun k => { k with ctlRx := h.psn }) c.2
  if h.ty = 5 then ackRx i pay t d
  else if h.ty = 6 then smtPump i (onConn i (fun k => { k with limit := beAt pay 0 4 }) d)
  else smtAck i d

/-- A packet that verifies (R142 steps 7 and 8). -/
def authentic (i : Nat) (k : Conn) (h : RxHdr) (p : RxPkt) (pay : List Byte) (t : Nat) (d : Dev) : Dev :=
  let d := onConn i (fun k => { k with lastRx := t }) d
  let d := if p.ecn = 3 then noteCe i t d else d
  let k := (tget d.smt.conns i).getD k
  if h.ty = 1 ∨ h.ty = 3 ∨ h.ty = 8 then acceptData i k h pay t d
  else if h.ty = 5 ∨ h.ty = 6 ∨ h.ty = 7 then acceptControl i k h pay t d
  else dropOther d

/-- A datagram received (R121, R123, R137, R142): one without the interface's tag, or longer than its MTU, is a frame the interface does not take. -/
def smtReceive (p : RxPkt) (t : Nat) (d : Dev) : Dev :=
  let h := rxHdr p.bytes
  if !csumOk d p then d
  else if !vlanOk d p.iface p.vlan || decide (ifMtu d p.iface < ipBytes p.src p.bytes.length) then dropOther d
  else if p.dport ≠ udpPort d ∨ h.ver ≠ 1 then dropOther d
  else match connNamed d h.cid with
  | none => dropOther d
  | some (i, k) =>
    if (k.st ≠ .isOpen ∧ k.st ≠ .closing) ∨ p.src ≠ k.peer then dropOther d
    else
      let d := useContext i d
      match keyOf k h.kgen with
      | none => dropOther (nakc i k h.kgen t d)
      | some key =>
        if p.bytes.length ≠ 48 + h.len ∨ bit h.flags 0 then dropOther d
        else
          let space := if h.ty = 5 ∨ h.ty = 6 ∨ h.ty = 7 ∨ h.ty = 9 then 2 else 0
          match gcmOpen key (smtNonce k.salt space h.psn) (p.bytes.take 32) (slice p.bytes 32 h.len) (p.bytes.drop (32 + h.len)) with
          | none => onSmt (fun s => { s with dropAuth := satInc 16 s.dropAuth }) d
          | some pay => authentic i k h p pay t d

/-- A packet of a type, as its row of the table receives it. -/
def rxTyped (ty : Nat) (p : RxPkt) (t : Nat) (d : Dev) : Dev := onlyIf (decide ((rxHdr p.bytes).ty = ty)) (rxFrame p.iface t (smtReceive p t)) (tick t d)

/-- SMT_BELL. -/
def execSmtBell (p : RxPkt) (t : Nat) (s : State) : Host.Outcome State Fault Refusal := s.on (rxTyped 1 p t)
/-- SMT_RRESP. -/
def execSmtRresp (p : RxPkt) (t : Nat) (s : State) : Host.Outcome State Fault Refusal := s.on (rxTyped 3 p t)
/-- SMT_ACK_RX. -/
def execSmtAckRx (p : RxPkt) (t : Nat) (s : State) : Host.Outcome State Fault Refusal := s.on (rxTyped 5 p t)
/-- SMT_CRED_RX. -/
def execSmtCredRx (p : RxPkt) (t : Nat) (s : State) : Host.Outcome State Fault Refusal := s.on (rxTyped 6 p t)
/-- SMT_KEEP_RX. -/
def execSmtKeepRx (p : RxPkt) (t : Nat) (s : State) : Host.Outcome State Fault Refusal := s.on (rxTyped 7 p t)
/-- SMT_CLOSE_RX. -/
def execSmtCloseRx (p : RxPkt) (t : Nat) (s : State) : Host.Outcome State Fault Refusal := s.on (rxTyped 8 p t)

/-- SMT_FRAME_DROP: a frame that nothing else takes, or one that overflows a port's buffer during an exit (R122, R465); p: a Smiast datagram of a type no client sends, which is
checked as any (R139, R142). -/
def execSmtFrameDrop (iface : Nat) (p : Option RxPkt) (t : Nat) (s : State) : Host.Outcome State Fault Refusal :=
  s.on fun d => match p with
    | none => rxFrame iface t dropOther (tick t d)
    | some p => onlyIf (!([1, 3, 5, 6, 7, 8].contains (rxHdr p.bytes).ty)) (rxFrame p.iface t (smtReceive p t)) (tick t d)

/-! ### Timers (R129, R152, R153, R157, R160, R162) -/

/-- A connection whose timers run: its port neither parked nor off (R133). -/
def timersRun (d : Dev) (k : Conn) : Bool := mainUp d && !d.pwr.ethParked.contains (k.iface / 8) && (parkRun d (.eth (k.iface / 8))).isNone && !inS2 d

/-- An event of a connection's timer. -/
def onTimer (i t : Nat) (f : Conn → Dev → Dev) (d : Dev) : Dev := withSome (tget d.smt.conns i) (fun k => onlyIf (timersRun d k) (f k)) (tick t d)

/-- SMT_RTO_EXPIRY: packets whose timeout has run out go again; at the retry limit an Open connection fails. -/
def execSmtRtoExpiry (conn t : Nat) (s : State) : Host.Outcome State Fault Refusal :=
  s.on (onTimer conn t fun k d =>
    let late := k.unacked.filter fun p => decide (p.timerFrom + p.rto ≤ t)
    if k.st ≠ .isOpen ∧ k.st ≠ .closing then d
    else if k.st = .isOpen ∧ late.any (fun p => decide (retryMax d ≤ p.retries)) = true then smtFail conn k 1 d
    else forAll (late.filter fun p => decide (p.retries < retryMax d)) (fun p => retransmit conn p t) d)

/-- SMT_ACK_DELAY_TIMER: ACK_DELAY after the first packet not acknowledged, or 1 µs after one above a gap or a duplicate. -/
def execSmtAckDelayTimer (conn t : Nat) (s : State) : Host.Outcome State Fault Refusal :=
  s.on (onTimer conn t fun k d => onlyIf (k.ackFrom.any (fun a => decide (a + ackDelay d ≤ t)) || k.gapFrom.any (fun a => decide (a + 1000 ≤ t))) (smtAck conn) d)

/-- SMT_KEEP_IDLE. -/
def execSmtKeepIdle (conn t : Nat) (s : State) : Host.Outcome State Fault Refusal :=
  s.on (onTimer conn t fun k d => onlyIf (decide (k.st = .isOpen) && decide (k.lastTx + 1000000 * zeroAsOne (fld (rd d 0x2000C) 0 16) ≤ t)) (smtControl conn 7 0 []) d)

/-- SMT_DEAD_TIMER. -/
def execSmtDeadTimer (conn t : Nat) (s : State) : Host.Outcome State Fault Refusal :=
  s.on (onTimer conn t fun k d =>
    let dead := fld (rd d 0x2000C) 16 8
    onlyIf (decide (k.st = .isOpen) && decide (dead ≠ 0) && decide (k.lastRx + 1000000000 * dead ≤ t)) (smtFail conn k 2) d)

/-- SMT_ECN_HOLD: an interval without a mark adds 1 to the allowance. -/
def execSmtEcnHold (conn t : Nat) (s : State) : Host.Outcome State Fault Refusal :=
  s.on (onTimer conn t fun k d => onlyIf (decide (k.st = .isOpen) && decide (k.ecnAt + ecnHold d ≤ t)) (fun d =>
    smtReqPump conn (onConn conn (fun k => { k with ecnAt := t, window := if k.ceAt.any (fun a => decide (k.ecnAt ≤ a)) then k.window else min (winOf d) (k.window + 1) }) d)) d)

/-- SMT_KEY_DRAIN_TIMER: 2 ms after the new key. -/
def execSmtKeyDrainTimer (conn t : Nat) (s : State) : Host.Outcome State Fault Refusal :=
  s.on (onTimer conn t fun k d => onlyIf (k.prevKey.any fun p => decide (p.2 + 2000000 ≤ t)) (dropPrev conn t) d)

/-- SMT_CLOSE_TIMER: a Closing connection with everything acknowledged, or after 1 ms, is Shut; a CONN_DELETE whose CLOSE is not acknowledged in 1 ms ends (R129). -/
def execSmtCloseTimer (conn t : Nat) (s : State) : Host.Outcome State Fault Refusal :=
  s.on (onTimer conn t fun k d =>
    let late := k.closeAt.any fun a => decide (a + 1000000 ≤ t)
    match k.deleting with
    | some id => if late then finishOk id 0 (smtDestroy conn k d) else d
    | none => if k.st = .closing ∧ (late ∨ (k.unacked = [] ∧ k.queue = [])) then smtShut conn k d else d)

/-! ### CONN_CREATE, CONN_DELETE, CONN_KEY (R125-R131, R136, R165, R419) -/

/-- The regions of a block. -/
def cbRegions (l : List Byte) : List (Nat × Nat × Nat) := (List.range (leAt l 21 1)).map fun j => (leAt l (64 + 16 * j) 8, leAt l (72 + 16 * j) 4, leAt l (76 + 16 * j) 4)

/-- A fault of region j: base, length, key, a key named before. -/
def regionBad (rs : List (Nat × Nat × Nat)) (j : Nat) : Option Nat := match rs[j]? with
  | none => none
  | some r =>
    if r.1 % 64 ≠ 0 then some (64 + 16 * j) else if r.2.1 = 0 then some (72 + 16 * j)
    else if r.2.2 = 0 ∨ ((rs.take j).any fun x => decide (x.2.2 = r.2.2)) = true then some (76 + 16 * j) else none

/-- The first faulty field of a connection block (R126). -/
def cbFault (d : Dev) (l : List Byte) : Option Nat :=
  let i := leAt l 18 1
  let fam := if isV4 (beAt l 0 16) then decide (ifV4 d i ≠ 0) else decide (ifV6 d i ≠ 0)
  if !fam then some 18 else if fld (leAt l 19 1) 0 2 = 3 then some 19
  else if leAt l 21 1 = 0 ∨ 16 < leAt l 21 1 then some 21 else if leAt l 28 4 = 0 then some 28
  else (List.range 16).findSome? (regionBad (cbRegions l))

/-- A field out of its range (R72): the interface index, the credit limit. -/
def cbRange (l : List Byte) : Option Nat := if 64 ≤ leAt l 18 1 then some 18 else if 65536 ≤ leAt l 28 4 then some 28 else none

/-- The lowest free index. -/
def freeConn (d : Dev) : Option Nat := (List.range (connLimit d)).find? fun i => !thas d.smt.conns i

/-- Write the block's bytes 32-47 back (R125). -/
def writeBack (c : Cmd) (l : List Byte) (d : Dev) : Dev := match bindOf d c with
  | some .mailbox => mbxStore (dDptr c.desc + 32) l d
  | _ => hostWrite d c none (dDptr c.desc + 32) (dRkey c.desc) l

/-- A new connection: context, random numbers, the block's answer (R125, R127). -/
def connMake (id : Nat) (c : Cmd) (ten i : Nat) (l : List Byte) (d : Dev) : Dev :=
  let salt := (drawn d 0).toNat % 2 ^ 56
  let isnD := (drawn d 1).toNat % 2 ^ 32
  let isnC := (drawn d 2).toNat % 2 ^ 32
  let w := winOf d
  let k : Conn := {
    gen := tgetD d.smt.gens i 0, tenant := ten, iface := leAt l 18 1, peer := beAt l 0 16, port := leAt l 16 2, psize := fld (leAt l 19 1) 0 2, dscp := fld (leAt l 20 1) 0 6
    nhMac := beAt l 22 6, regions := cbRegions l, salt := salt, txNext := isnD, rxCum := isnC, ctlTx := 1, limit := leAt l 28 4, granted := w, told := w, window := w
    lastTx := d.io.now, lastRx := d.io.now, ecnAt := d.io.now }
  let d := onSmt (fun s => { s with conns := tset s.conns i k }) (draw 3 d)
  finishOk id (connId i k) (writeBack c (beBytes 7 salt ++ [0] ++ leBytes 4 isnD ++ leBytes 4 isnC) d)

/-- CONN_CREATE in the order of R136. -/
def connCreate (id : Nat) (c : Cmd) (l : List Byte) (d : Dev) : Dev :=
  let ten := fld (dArg c.desc 0) 0 12
  match cbRange l with
  | some f => finishField id f d
  | none =>
    if !hasSmt d || !ifPresent d (leAt l 18 1) then finishErr id .unitAbsent d
    else match tget d.maps.tenants ten with
    | none => finishErr id .tenantInvalid d
    | some x =>
      if !d.sec.rngReady then finishErr id .notReady d
      else match cbFault d l with
      | some f => finish id .connBlock 0 f d
      | none =>
        if x.grants.conns ≤ (d.smt.conns.filter fun e => decide (e.2.tenant = ten)).length then finishErr id .connLimit d
        else match freeConn d with
        | none => finishErr id .connLimit d
        | some i => connMake id c ten i l d

/-- CONN_CREATE. -/
def execConnCreate (id : Nat) (blk : List Byte) (s : State) : Host.Outcome State Fault Refusal :=
  s.on fun d => adminCmd id 0x8A (fun c => withBlk id c 320 blk (connCreate id c)) d

/-- Is a ring bound to a connection? -/
def connBound (d : Dev) (cid : Nat) : Bool := (d.qm.sqs.any fun e => decide (e.2.bind = .conn cid)) || d.qm.cqs.any fun e => decide (e.2.bind = .conn cid)

/-- CONN_DELETE: an Open connection sends CLOSE and waits for its acknowledgement. -/
def connDelete (id : Nat) (c : Cmd) (d : Dev) : Dev :=
  let cid := dArg c.desc 0
  if !hasSmt d then finishErr id .unitAbsent d
  else match connNamed d cid with
  | none => finishErr id .connInvalid d
  | some (i, k) =>
    if connBound d cid then finishErr id .connBusy d
    else if k.st = .isOpen then
      smtPump i (smtEnqueue i { ty := 8, flags := 0, reqId := 0, addr := 0, rkey := 0, pay := [0, 0, 0, 0], seg := 0, completes := none }
        (onConn i (fun k => { k with deleting := some id, closeAt := some d.io.now }) (onCmd id (fun c => { c with stage := .committed, past := true }) d)))
    else finishOk id 0 (smtDestroy i k d)

/-- CONN_DELETE. -/
def execConnDelete (id : Nat) (s : State) : Host.Outcome State Fault Refusal :=
  s.on fun d => adminCmd id 0x8B (connDelete id) d

/-- CONN_KEY with its wrapped key: installed, or kept until the previous key has gone (R161). -/
def connKeyWith (id i : Nat) (l : List Byte) (d : Dev) : Dev := match unwrapKey (kekConn d) (l.take 40) with
  | none => finishErr id .keyUnwrap d
  | some key => match tget d.smt.conns i with
    | none => d
    | some k =>
      if k.prevKey.isSome then onConn i (fun k => { k with waitKey := some (id, key) }) (onCmd id (fun c => { c with stage := .committed, past := true }) d)
      else installKey i id key d.io.now d

/-- CONN_KEY in the order of R419. -/
def connKey (id : Nat) (c : Cmd) (blk : List Byte) (d : Dev) : Dev :=
  if !hasSmt d then finishErr id .unitAbsent d
  else match connNamed d (dArg c.desc 0) with
  | none => finishErr id .connInvalid d
  | some (i, k) =>
    let want := if k.st = .pending then 0 else (k.kgen + 1) % 256
    if k.st ≠ .pending ∧ k.st ≠ .isOpen then finishErr id .connState d
    else if fld (dArg c.desc 1) 0 8 ≠ want then finish id .kgenMismatch want 0xFF d
    else withBlk id c 40 blk (connKeyWith id i) d

/-- CONN_KEY. -/
def execConnKey (id : Nat) (blk : List Byte) (s : State) : Host.Outcome State Fault Refusal :=
  s.on fun d => adminCmd id 0x8C (fun c => connKey id c blk) d

/-- SMT_CSTATE. -/
def smtCstate (d : Dev) : Nat := match tget d.smt.conns (fld (rd d 0x20120) 0 18) with
  | none => 0
  | some k =>
    (match k.st with | .pending => 1 | .isOpen => 2 | .closing => 3 | .failed => 4 | .shut => 5) + 2 ^ 8 * k.kgen + 2 ^ 16 * k.gen + 2 ^ 24 * k.reason +
    2 ^ 27 * b2n k.prevKey.isSome + 2 ^ 28 * b2n k.psnDue

end Sys2Proof.Machine
end

