-- ==== Sys2Proof/Machine/Pcx.lean ====
section
/-!
DEFINITION. The PCIe ports (spec/05_pcie_ports.md R166-R182): resets of functions and links, DMA failures, training, Bus Master Enable.
-/

namespace Sys2Proof.Machine

def onPcx (f : Pcx → Pcx) (d : Dev) : Dev := { d with pcx := f d.pcx }

/-- Change a link; links are keyed port x 4 + link. -/
def onPcxLink (l : Nat) (f : PcxLink → PcxLink) (d : Dev) : Dev := onPcx (fun x => { x with links := tset x.links l (f (tgetD x.links l {})) }) d

/-- The link's entry of R166: link index, PF function index, first port VF number, VFs. -/
def pcxEntry (d : Dev) (l : Nat) : Option (Nat × Nat × Nat × Nat) :=
  if hasPcx d (l / 4) then (pcxLinks (pcxMode d (l / 4))).find? fun e => decide (e.1 = l % 4) else none

/-- The link (port x 4 + link) of a function (port x 1024 + index). -/
def linkKey (d : Dev) (fn : Nat) : Option Nat :=
  if hasPcx d (fn / 1024) then (linkOfFn d (fn / 1024) (fn % 1024)).map fun j => fn / 1024 * 4 + j else none

/-- The VFs of a link that are enabled (R166). -/
def linkVfs (d : Dev) (l : Nat) : List Nat := match pcxEntry d l with
  | some (_, _, first, count) => (List.range (min count (tgetD d.pcx.links l {}).numVfs)).map fun v => l / 4 * 1024 + first + v
  | none => []

/-- The PF of a link. -/
def linkPf (d : Dev) (l : Nat) : Option Nat := (pcxEntry d l).map fun e => l / 4 * 1024 + e.2.1

/-- Is a function the owner (R167)? -/
def isOwnerFn (d : Dev) (fn : Nat) : Bool := decide (fn = 0) && !ownerMgt d

/-! ### Halting (R178, R179) -/

/-- Is a ring bound to one of these functions, the owner admin ring apart (R180)? -/
def boundIn (fns : List Nat) (i : Nat) (b : Bind) : Bool := decide (i ≠ 0) && (match b with | .fn f => fns.contains f | _ => false)

/-- A command before its commit point ends with no effect and no completion; past it, it continues and its completion is discarded (R178). -/
def haltCmd (id : Nat) (d : Dev) : Dev := match tget d.qm.cmds id with
  | none => d
  | some c =>
    if beforeCommit c then
      let d := dropCmd id (cancel id d)
      let d := match ringOf d c with | some r => onCq r.cq (fun q => { q with reserved := q.reserved - 1 }) d | none => d
      endDeletion c.sq d
    else onCmd id (fun c => { c with discard := true }) d

/-- What a Function Level Reset leaves in configuration space (R168, PCIe Base; notes/assumptions/65.md): the AER registers, the link's control, and in Device Control the payload size. -/
def stickyCfg (off : Nat) : Bool := (decide (0x104 ≤ off) && decide (off < 0x150)) || decide (off = 0x50) || decide (off = 0x48)

/-- Halt every ring bound to these functions; they issue no request until Bus Master Enable is set again. Their MSI-X tables return to reset. -/
def haltFns (fns : List Nat) (d : Dev) : Dev :=
  let mine := (tfilter d.qm.cmds fun _ c => match tget d.qm.sqs c.sq with | some r => boundIn fns c.sq r.bind | none => false).map (·.1)
  let d := forAll mine haltCmd d
  { d with
    qm := { d.qm with
      sqs := tmap d.qm.sqs fun i r => if boundIn fns i r.bind then { r with halted := true } else r
      cqs := tmap d.qm.cqs fun i r => if boundIn fns i r.bind then { r with halted := true } else r }
    pcx := { d.pcx with
      master := d.pcx.master.filter fun f => !fns.contains f
      cfg := tfilter d.pcx.cfg fun k _ => !fns.contains (k / 4096) || stickyCfg (k % 4096)
      msix := tfilter d.pcx.msix fun k _ => !fns.contains (k / 2048) } }

/-! ### The reset log (R181, R182) -/

/-- A reset is logged on its link and recorded. -/
def logReset (l fn : Nat) (d : Dev) : Dev :=
  raise .pcxFlr [l / 4, l % 4, fn % 1024] (onPcxLink l (fun k => { k with pend := true, flrCount := satInc 8 k.flrCount, flrLast := fn % 1024 }) d)

/-! ### The owner admin ring (R180) -/

/-- An admin command that has started finishes, its completion discarded; the others end with no effect. -/
def resetOwnerCmd (id : Nat) (d : Dev) : Dev := match tget d.qm.cmds id with
  | none => d
  | some c => if beforeCommit c then dropCmd id (cancel id d) else onCmd id (fun c => { c with discard := true }) d

/-- Reset what the owner function holds: the service cipher unit (R425), and the owner admin ring: head and tail 0, phase 1, a fault of its fetching gone, its count goes on; it is served again at its first doorbell after Bus Master Enable. -/
def resetOwnerRing (d : Dev) : Dev :=
  let d := if d.scu.holder = 3 then scuFree d else d
  if !d.qm.adminOn then d else
    let d := forAll ((tfilter d.qm.cmds fun _ c => decide (c.sq = 0)).map (·.1)) resetOwnerCmd d
    let left := tcount d.qm.cmds fun _ c => decide (c.sq = 0)
    let d := onSq 0 (fun r => { r with head := 0, tail := 0, held := none, fault := false }) d
    let d := onCq 0 (fun r => { r with widx := 0, head := 0, phase := true, reserved := left, sinceIrq := 0, firstAt := none }) d
    { d with qm := { d.qm with adminAwait := true, adminErr := false } }

/-- The reset of a function of a link: the rings of a PF's VFs are its too (R178); the owner function also resets the owner admin ring (R180). -/
def resetFn (l fn : Nat) (d : Dev) : Dev :=
  let d := haltFns (if isPf (fn % 1024) then fn :: linkVfs d l else [fn]) d
  logReset l fn (if isOwnerFn d fn then resetOwnerRing d else d)

/-- May the PCIe ports be reset: the main die runs? -/
def pcxLive (d : Dev) : Bool := mainUp d

/-- PCX_FLR (R178): a Function Level Reset of a function that exists. -/
def execPcxFlr (fn : Nat) (s : State) : Host.Outcome State Fault Refusal :=
  s.on fun d => withSome (linkKey d fn) (fun l => onlyIf (pcxLive d && vfEnabled d (fn / 1024) (fn % 1024)) (resetFn l fn)) d

/-- PCX_OWNER_FLR (R180). -/
def execPcxOwnerFlr (s : State) : Host.Outcome State Fault Refusal :=
  s.on fun d => onlyIf (pcxLive d && isOwnerFn d 0 && hasPcx d 0) (resetFn 0 0) d

/-- A Function Level Reset of each of the link's VFs; none is enabled any more (R181). -/
def vfDisable (link : Nat) (d : Dev) : Dev := onPcxLink link (fun k => { k with numVfs := 0 }) (forAll (linkVfs d link) (resetFn link) d)

/-- PCX_VF_DISABLE (R181). -/
def execPcxVfDisable (link : Nat) (s : State) : Host.Outcome State Fault Refusal :=
  s.on fun d => onlyIf (pcxLive d && (pcxEntry d link).isSome) (vfDisable link) d

/-- A reset of a link: its PF's Function Level Reset, and its configuration space at its reset values (R181). The log keeps the reset just made. -/
def resetLink (l : Nat) (d : Dev) : Dev := match linkPf d l with
  | none => d
  | some pf => onPcx (fun x => { x with cfg := tfilter x.cfg fun k _ => linkKey d (k / 4096) ≠ some l })
      (onPcxLink l (fun k => { pend := k.pend, flrCount := k.flrCount, flrLast := k.flrLast }) (resetFn l pf d))

/-- PCX_PERST (R181). COUNT counts from its deassertion. -/
def execPcxPerst (link : Nat) (s : State) : Host.Outcome State Fault Refusal :=
  s.on fun d => onlyIf (pcxLive d && (pcxEntry d link).isSome) (fun d => onPcxLink link (fun k => { k with flrCount := 0 }) (resetLink link d)) d

/-- PCX_HOT_RESET (R181). -/
def execPcxHotReset (link : Nat) (s : State) : Host.Outcome State Fault Refusal :=
  s.on fun d => onlyIf (pcxLive d && (pcxEntry d link).isSome) (resetLink link) d

/-- PCX_DL_DOWN (R181). -/
def execPcxDlDown (link : Nat) (s : State) : Host.Outcome State Fault Refusal :=
  s.on fun d => onlyIf (pcxLive d && (pcxEntry d link).isSome) (resetLink link) d

/-! ### DMA failures (R176, R100) -/

/-- Can a transfer of a command still fail (R100): a read of its data, host tags, list or block before its commit point, or its read data, until its completion is posted? -/
def mayFail (c : Cmd) : Bool := beforeCommit c || (isReadOpc (dOpc c.desc) && c.past)

/-- A failed transfer of a command: ST_INVALID_FIELD, XSTAT.FIELD 0xFE (R100). -/
def dmaFailCmd (fn id : Nat) (d : Dev) : Dev := match tget d.qm.cmds id with
  | some c => onlyIf (decide (bindOf d c = some (.fn fn)) && mayFail c) (fun d => finishField id 0xFE (cancel id d)) d
  | none => d

/-- A failed descriptor fetch: the ring is in fault (R176); the owner admin ring's status shows ERR (R79). -/
def dmaFailRing (fn sq : Nat) (d : Dev) : Dev := match tget d.qm.sqs sq with
  | some r => onlyIf (decide (r.bind = .fn fn) && canFetch d sq) (fun d =>
      let d := raise .pcxRingFault [sq, fn / 1024, fn % 1024] (onSq sq (fun r => { r with fault := true }) d)
      if sq = 0 then { d with qm := { d.qm with adminErr := true } } else d) d
  | none => d

/-- AER of a function logs a failure (R176): its bit in the Uncorrectable Error Status (notes/assumptions/65.md). -/
def aerBit : DmaFail → Nat
  | .unsupported => 20 | .abort => 15 | .poisoned => 12 | .timeout => 14
def aerLog (fn : Nat) (kind : DmaFail) (d : Dev) : Dev :=
  onPcx (fun x => { x with cfg := tset x.cfg (fn * 4096 + 0x104) (tgetD x.cfg (fn * 4096 + 0x104) 0 ||| BitVec.ofNat 32 (2 ^ aerBit kind)) }) d

/-- Completion Timeout Disable of a function's Device Control 2 (R177). -/
def timeoutOff (d : Dev) (fn : Nat) : Bool := bit (cfgAt d fn 0x68 0) 4

/-- Is a failing transfer one the device has out: for a command of the function, or for a ring it may fetch from? -/
def dmaOut (d : Dev) (fn : Nat) (sq id : Option Nat) : Bool :=
  (match sq with | some i => (match tget d.qm.sqs i with | some r => decide (r.bind = .fn fn) && canFetch d i | none => false) | none => false) ||
  (match id with | some i => (match tget d.qm.cmds i with | some c => decide (bindOf d c = some (.fn fn)) && mayFail c | none => false) | none => false)

/-- PCX_DMA_ERROR (R176, R177): hit names a ring whose descriptor fetch failed, a command whose transfer failed, kind how; each is logged through AER and counted on the PF of the function's link. With
Completion Timeout Disable set no time-out is told. -/
def execPcxDmaError (fn : Nat) (kind : DmaFail) (hit : DmaHit) (s : State) : Host.Outcome State Fault Refusal :=
  s.on fun d => withSome (linkKey d fn) (fun l => onlyIf (mainUp d && dmaOut d fn hit.sq hit.id && !(decide (kind = .timeout) && timeoutOff d fn)) fun d =>
    let d := withSome hit.id (dmaFailCmd fn) (withSome hit.sq (dmaFailRing fn) d)
    aerLog fn kind (onPcxLink l (fun k => { k with dmaErr := satInc 32 k.dmaErr }) d)) d

/-! ### Training, Bus Master Enable (R168, R178) -/

/-- Lanes of a link (R166). -/
def linkLanes (d : Dev) (l : Nat) : Nat := match pcxMode d (l / 4) with
  | 1 => 8 | 2 => 4 | _ => 16

/-- PCX_LINK_TRAINED: RATE as PCX_LINK_STAT codes it. Below 8 GT/s or narrower than R166 is degraded; training again is a retrain. -/
def execPcxLinkTrained (link rate width : Nat) (s : State) : Host.Outcome State Fault Refusal :=
  s.on fun d => onlyIf (mainUp d && (pcxEntry d link).isSome && !pcxHeld d (link / 4) && decide (1 ≤ rate) && decide (rate ≤ 6) &&
      [1, 2, 4, 8, 16].contains width && decide (width ≤ linkLanes d link)) (fun d =>
    let low := decide (rate ≤ 2) || decide (width < linkLanes d link)
    let d := onPcxLink link (fun k => { k with rate := rate, width := width, degraded := low, retrains := if k.rate = 0 then k.retrains else satInc 16 k.retrains }) d
    if low then raise .pcxDegraded [link / 4, link % 4, rate, width] d else d) d

/-- PCX_BUS_MASTER_ENABLE: the host sets a function's Bus Master Enable; no function's is set before (R168, PCIe Base). -/
def execPcxBusMasterEnable (fn : Nat) (s : State) : Host.Outcome State Fault Refusal :=
  s.on fun d => onlyIf (mainUp d && (linkKey d fn).isSome && !pcxHeld d (fn / 1024)) (onPcx fun x => { x with master := if x.master.contains fn then x.master else x.master ++ [fn] }) d

end Sys2Proof.Machine
end

