-- ==== Sys2Proof/Machine/PcxCfg.lean ====
section
/-!
DEFINITION. The configuration space of the PCIe functions and what their BAR4 holds (spec/05_pcie_ports.md R166-R182). R168 lists the parts of PCIe Base 6.0 and
of its SR-IOV provisions that are there; the layout of those structures is PCIe Base's, where each is placed is the model's (notes/assumptions/65.md).
-/

namespace Sys2Proof.Machine

/-- A function that exists and whose port is on: the link it belongs to (R8, R23, R166). -/
def fnOn (d : Dev) (fn : Nat) : Option Nat :=
  if d.pwr.aon && pcxOn d (fn / 1024) && vfEnabled d (fn / 1024) (fn % 1024) then linkKey d fn else none

/-! ### Registers -/

/-- A configuration register that software writes: offset, reset value, the bits a write sets, the bits that a written 1 clears. -/
structure CfgReg where
  off : Nat
  reset : Nat := 0
  rw : Nat := 0
  w1c : Nat := 0
  deriving DecidableEq, Repr

/-- On every function (R168, R177): Command and Status, Device Control and Status, Device Control 2, MSI-X control, AER. -/
def cfgCommon : List CfgReg := [
  { off := 0x04, w1c := 0xF9000000 }, { off := 0x68, rw := 0x101F }, { off := 0x80, rw := 0xC0000000 },
  { off := 0x104, w1c := 0x07FFFFF0 }, { off := 0x108, rw := 0x07FFFFF0 }, { off := 0x10C, reset := 0x00462030, rw := 0x07FFFFF0 },
  { off := 0x110, w1c := 0xF1C1 }, { off := 0x114, reset := 0x2000, rw := 0xF1C1 }]

/-- On a PF: BAR0 of 16 MiB, BAR2 of 256 MiB prefetchable, BAR4 of 64 KiB, each 64-bit (R172); Device Control with payload and request sizes, Link Control; SR-IOV with the
VFs' BAR2 of 256 MiB prefetchable and BAR4 of 4 KiB (R173). -/
def cfgPf : List CfgReg := [
  { off := 0x10, reset := 4, rw := 0xFF000000 }, { off := 0x14, rw := 0xFFFFFFFF }, { off := 0x18, reset := 0xC, rw := 0xF0000000 }, { off := 0x1C, rw := 0xFFFFFFFF },
  { off := 0x20, reset := 4, rw := 0xFFFF0000 }, { off := 0x24, rw := 0xFFFFFFFF },
  { off := 0x48, reset := 0x2000, rw := 0x71EF, w1c := 0xF0000 }, { off := 0x50, rw := 0xCA },
  { off := 0x168, rw := 0x18 }, { off := 0x170, rw := 0xFFFF }, { off := 0x180, reset := 1, rw := 0xFFFFFFFF },
  { off := 0x18C, reset := 0xC, rw := 0xF0000000 }, { off := 0x190, rw := 0xFFFFFFFF }, { off := 0x194, reset := 4, rw := 0xFFFFF000 }, { off := 0x198, rw := 0xFFFFFFFF }]

/-- On a VF: Device Control without the sizes, which its PF's hold. -/
def cfgVf : List CfgReg := [{ off := 0x48, rw := 0xF, w1c := 0xF0000 }]

/-- The register of a function at an offset. -/
def cfgReg (fn off : Nat) : Option CfgReg := (cfgCommon ++ if isPf (fn % 1024) then cfgPf else cfgVf).find? fun r => decide (r.off = off)

/-- What only reads on every function: identity, class, Status's capability bit, the chain of capabilities and what each says it supports. -/
def cfgConst (d : Dev) (fn : Nat) : List (Nat × Nat) := [
  (0x00, Config.pcxVendor.toNat + 2 ^ 16 * (if isPf (fn % 1024) then 0x0A39 else 0x0A3A)),
  (0x04, 2 ^ 20 + 4 * b2n (busMaster d fn)), (0x08, Config.pcxRevision.toNat + 2 ^ 8 * 0x018000), (0x2C, Config.pcxSubsystem.toNat), (0x34, 0x40),
  (0x40, 0x00028010), (0x44, 0x10008022), (0x64, 0x0003001F), (0x80, 0x11 + 2 ^ 16 * (if isPf (fn % 1024) then 2047 else 63)), (0x84, 4),
  (0x88, 4 + (if isPf (fn % 1024) then 0x8000 else 0x800)), (0x100, 0x15020001), (0x150, (if isPf (fn % 1024) then 0x16010000 else 0x00010000) + 0x000E)]

/-- What only reads on a PF: the link's, SR-IOV's, L0p's, and the PCX capability with its registers. -/
def cfgPfConst (d : Dev) (fn l : Nat) : List (Nat × Nat) :=
  let k := tgetD d.pcx.links l {}
  let vfs := (pcxEntry d l).elim 0 fun e => e.2.2.2
  [(0x4C, 6 + 16 * linkLanes d l + 0x800), (0x50, 2 ^ 16 * (k.rate + 16 * k.width)), (0x6C, 0x7E),
   (0x160, 0x1B010010), (0x168, b2n (decide (k.numVfs ≠ 0))), (0x16C, vfs + 2 ^ 16 * vfs), (0x174, 0x00010001), (0x178, 0x0A3A0000), (0x17C, 0x553),
   (0x1B0, 0x4001002F), (0x400, 0x0001000B), (0x404, 0x02010A39),
   (0x408, (l / 4) + 2 * (l % 4) + 16 * pcxMode d (l / 4) + 256 * b2n (isOwnerFn d fn)),
   (0x40C, (pcxEntry d l).elim 0 fun e => e.2.2.1 + 2 ^ 16 * e.2.2.2),
   (0x410, b2n k.pend + 2 ^ 8 * k.flrCount + 2 ^ 16 * k.flrLast),
   (0x414, k.rate + 2 ^ 8 * k.width + 2 ^ 13 * b2n k.degraded + 2 ^ 16 * k.retrains), (0x418, k.dmaErr)]

/-- The value that a list gives an offset; 0 for none. -/
def constAt (l : List (Nat × Nat)) (off : Nat) : Nat := ((l.find? fun e => decide (e.1 = off)).map (·.2)).getD 0

/-- A word of a function's configuration space: what only reads, with what software has written. -/
def cfgWord (d : Dev) (fn off : Nat) : Nat := match fnOn d fn with
  | none => 0
  | some l => constAt (cfgConst d fn ++ if isPf (fn % 1024) then cfgPfConst d fn l else []) off ||| (match cfgReg fn off with
    | some r => cfgAt d fn off r.reset
    | none => 0)

/-! ### MSI-X (R81, R168, R172) -/

/-- MSI-X vectors of a function, and the offset of its Pending Bit Array (R172, R173). -/
def fnVectors (fn : Nat) : Nat × Nat := if isPf (fn % 1024) then (2048, 0x8000) else (64, 0x800)

/-- An entry of a function's MSI-X table; at reset every vector is masked. -/
def msixAt (d : Dev) (fn vec : Nat) : Msix := tgetD d.pcx.msix (fn * 2048 + vec) { addr := 0, data := 0, masked := true, pending := false }

/-- A message that waits goes out once the function sends, is no longer masked and may issue requests. -/
def msixFlush (fn vec : Nat) (d : Dev) : Dev :=
  let e := msixAt d fn vec
  onlyIf (e.pending && !e.masked && msixOn d fn && busMaster d fn)
    (fun d => send (.msix fn e.addr e.data) (onPcx (fun x => { x with msix := tset x.msix (fn * 2048 + vec) { e with pending := false } }) d)) d

/-- The vectors of a function that wait. -/
def msixWaiting (d : Dev) (fn : Nat) : List Nat := (tfilter d.pcx.msix fun k m => m.pending && decide (k / 2048 = fn)).map fun e => e.1 % 2048

/-- A word of BAR4: entries of address, address high, data, vector control, and the pending bits (notes/assumptions/30.md). -/
def bar4Word (d : Dev) (fn off : Nat) : Nat :=
  let vs := fnVectors fn
  if (fnOn d fn).isNone then 0
  else if off < 16 * vs.1 then
    let e := msixAt d fn (off / 16)
    match off % 16 / 4 with
    | 0 => e.addr % 2 ^ 32
    | 1 => e.addr / 2 ^ 32 % 2 ^ 32
    | 2 => e.data
    | _ => b2n e.masked
  else if decide (vs.2 ≤ off) && decide (off < vs.2 + vs.1 / 8) then
    ((List.range 32).filter fun i => (msixAt d fn (8 * (off - vs.2) + i)).pending).foldl (fun a i => a + 2 ^ i) 0
  else 0

/-- A write to an MSI-X table entry: address, address high, data, mask; a message that became pending under the mask goes out when it is unmasked. -/
def bar4Write (fn off : Nat) (v : Word) (d : Dev) : Dev :=
  onlyIf (mainUp d && (fnOn d fn).isSome && decide (off < 16 * (fnVectors fn).1)) (fun d =>
    let e := msixAt d fn (off / 16)
    let e := match off % 16 / 4 with
      | 0 => { e with addr := e.addr / 2 ^ 32 * 2 ^ 32 + v.toNat }
      | 1 => { e with addr := e.addr % 2 ^ 32 + v.toNat * 2 ^ 32 }
      | 2 => { e with data := v.toNat }
      | _ => { e with masked := bit v.toNat 0 }
    msixFlush fn (off / 16) (onPcx (fun x => { x with msix := tset x.msix (fn * 2048 + off / 16) e }) d)) d

/-! ### Writes -/

/-- A register takes a write: what it holds of the bits that software sets, less the bits that a written 1 clears. -/
def cfgStore (fn : Nat) (r : CfgReg) (v : Nat) (d : Dev) : Dev :=
  let old := cfgAt d fn r.off r.reset
  onPcx (fun x => { x with cfg := tset x.cfg (fn * 4096 + r.off) (BitVec.ofNat 32 ((v &&& r.rw) ||| (old &&& (0xFFFFFFFF ^^^ (r.rw ||| (v &&& r.w1c)))))) }) d

/-- Bus Master Enable of a function set or cleared; what waited of its messages goes out. -/
def setMaster (fn : Nat) (on : Bool) (d : Dev) : Dev :=
  forAll (msixWaiting d fn) (msixFlush fn)
    (onPcx (fun x => { x with master := if !on then x.master.filter (fun f => decide (f ≠ fn)) else if x.master.contains fn then x.master else x.master ++ [fn] }) d)

/-- VF Enable of a link with a number of VFs: as many VFs as the link has, at most; none: the VFs are reset and disabled (R168, R181). -/
def setVfs (link n : Nat) (d : Dev) : Dev := match pcxEntry d link with
  | some (_, _, _, count) => if n = 0 then vfDisable link d else onPcxLink link (fun k => { k with numVfs := min n count }) d
  | none => d

/-- What a write of a configuration register does beside storing: Bus Master Enable, Initiate Function Level Reset, MSI-X Enable, VF Enable, the clearing of PCX_FLR_LOG.PEND. -/
def cfgEffect (l fn off v : Nat) (d : Dev) : Dev := match off with
  | 0x04 => setMaster fn (bit v 2) d
  | 0x48 => onlyIf (bit v 15) (resetFn l fn) d
  | 0x80 => forAll (msixWaiting d fn) (msixFlush fn) d
  | 0x168 => if !isPf (fn % 1024) then d else if bit v 0 then setVfs l (cfgAt d fn 0x170 0) d else onlyIf (decide ((tgetD d.pcx.links l {}).numVfs ≠ 0)) (setVfs l 0) d
  | 0x410 => onlyIf (isPf (fn % 1024) && bit v 0) (onPcxLink l fun k => { k with pend := false }) d
  | _ => d

/-- A write to a function's configuration space. -/
def cfgWrite (fn off : Nat) (v : Word) (d : Dev) : Dev :=
  withSome (fnOn d fn) (fun l => onlyIf (mainUp d) fun d => cfgEffect l fn off v.toNat (withSome (cfgReg fn off) (fun r => cfgStore fn r v.toNat) d)) d

/-- NumVFs written with VF Enable (R168). -/
def sriovWrite (link : Nat) (v : Word) (d : Dev) : Dev := onlyIf (mainUp d && pcxOn d (link / 4)) (setVfs link v.toNat) d

/-- The VFs that a link's SR-IOV capability shows enabled. -/
def sriovWord (d : Dev) (link : Nat) : Nat := if d.pwr.aon && pcxOn d (link / 4) then (tgetD d.pcx.links link {}).numVfs else 0

/-! ### BAR2 (R80, R173) -/

/-- A word of BAR2: the completion count of the page's ring, bound to the function; 0 elsewhere. A read of the low word latches the high word for the function. -/
def bar2Read (fn off : Nat) (d : Dev) : Word × Dev :=
  if (fnOn d fn).isNone then (0, d) else
  let cq := off / 4096
  let n := countSeen d fn cq
  let k := fn * 65536 + cq
  match off % 4096 with
  | 0x810 => (BitVec.ofNat 32 n, if boundTo d fn cq then { d with qm := { d.qm with countLatch := tset d.qm.countLatch k (BitVec.ofNat 32 (n / 2 ^ 32)) } } else d)
  | 0x814 => match tget d.qm.countLatch k with
    | some w => (w, { d with qm := { d.qm with countLatch := tdel d.qm.countLatch k } })
    | none => (BitVec.ofNat 32 (n / 2 ^ 32), d)
  | _ => (0, d)

/-- Is a ring of either kind with this number bound to a function? -/
def pageBound (d : Dev) (fn n : Nat) : Bool :=
  boundTo d fn n || (match tget d.qm.sqs n with | some r => decide (r.bind = .fn fn) | none => false)

/-- A write to BAR2 (R80, R173): an aligned 32-bit write of a doorbell register rings it; another width, a doorbell that is not aligned, and a page not bound to the function are
counted. A write of another offset of a page bound to the function is ignored uncounted (DEDUCED, notes/assumptions/68.md). -/
def bar2Write (fn off : Nat) (whole : Bool) (v : Word) (d : Dev) : Dev :=
  onlyIf (mainUp d && (fnOn d fn).isSome) (fun d =>
    let t := d.io.now
    let o := off % 4096
    let v16 := fld v.toNat 0 16
    if !whole || off % 4 ≠ 0 || !pageBound d fn (off / 4096) then rejectDb d
    else if o = 0 then wakeForCommand t (sqBell (.fn fn) (off / 4096) v16 d)
    else if o = 0x800 then wakeS2 t (cqBell (.fn fn) (off / 4096) v16 d)
    else d) d

end Sys2Proof.Machine
end

