-- ==== Sys2Proof/Machine/Telemetry.lean ====
section
/-!
DEFINITION. The telemetry rings (spec/03_command_rings.md R118-R120) and the records of missed targets (spec/06_placement_and_almanac.md R217).
-/

namespace Sys2Proof.Machine

/-! ### The tightest profile (R241) and wear -/

/-- Profiles with an included die, lowest first. -/
def profilesIn (d : Dev) : List Nat :=
  (List.range 256).filter fun p => d.alm.dies.any fun e => e.2.included && decide (e.2.profile = p)

/-- F and R of the profile with the least margin; ties go to the lower profile. -/
def tightest (d : Dev) : Option (Nat × Nat) :=
  let l := (profilesIn d).map fun p => (freeRows d p (profileSize d p), reserveRows d p)
  l.foldl (fun a e => match a with
    | some b => if ((e.1 : Int) - e.2) < (b.1 : Int) - b.2 then some e else some b
    | none => some e) none

/-- P/E consumed of a die, 0.1 % of its rating: the mean over its beds that are not Retired. -/
def dieWear (d : Dev) (die : Nat) : Nat := match profileOf (dieProfile d die) with
  | none => 0
  | some p =>
    let good := (listedBeds d die).filter fun e => decide (e.2.st ≠ .retired)
    sumL (good.map fun e => e.2.pe) * 1000 / (zeroAsOne (p.beds - retiredBeds d die) * p.pe)

/-- The least, the mean and the greatest over the included dies. Each die's figure and the mean are rounded down: the spec prints no rounding (DESIGN CHOICE, notes/assumptions/66.md). -/
def wearFigures (d : Dev) : Nat × Nat × Nat :=
  let l := (d.alm.dies.filter fun e => e.2.included).map fun e => dieWear d e.1
  match l with
  | [] => (0, 0, 0)
  | a :: t => (t.foldl min a, sumL l / l.length, t.foldl max a)

/-! ### Slots (R119, R120) -/

/-- Bytes laid out: offset, length, value. -/
def lay (l : List (Nat × Nat × Nat)) : Nat := sumL (l.map fun e => (e.2.2 % 256 ^ e.2.1) * 256 ^ e.1)

/-- Hottest temperature of a link group in °C, rounded down; 0 for an absent one (R12). -/
def lgByte (d : Dev) (g : Nat) : Nat :=
  if linkGroups d ≤ g then 0 else match lgTemp d g with
  | some t => twos 8 (t / 10)
  | none => (Config.failedZone g).toNat

/-- Dirty bytes now (R290). -/
def dirtyNow (d : Dev) : Nat := blockBytes d d.clo.nextPos + parityBytes d

/-- QM_TELEM_PERIOD, ms. -/
def telemPeriod (d : Dev) : Nat := clampN 10 10000 (fld (rd d 0x1030) 0 14)

/-- The device slot, without its phase. -/
def deviceSlot (d : Dev) (seq tenants : Nat) : Nat :=
  let rail := fun i => tgetD d.thm.rails i 0
  let hot := (thmMax d).getD (0, 0)
  let wear := wearFigures d
  let space := (tightest d).getD (0, 0)
  lay ([(0, 8, seq), (8, 8, upMicros d), (16, 4, telemPeriod d), (20, 2, tenants), (22, 1, d.pwr.pl + 16 * ceilNow d),
    (23, 1, b2n d.thm.sprint + 2 * b2n d.thm.warn + 4 * b2n d.thm.stopping), (24, 2, twos 16 hot.2), (26, 1, hot.1), (28, 2, twos 16 (tgetD d.thm.temps 48 0))] ++
    (List.range 4).map (fun i => (30 + 2 * i, 2, twos 16 (tgetD d.thm.pth i 0))) ++
    [(40, 4, rail 4), (44, 4, rail 5), (48, 4, rail 6), (52, 4, rail 2), (56, 4, rail 1), (60, 4, rail 3 + rail 7 + rail 8), (64, 4, d.thm.vinMw),
    (68, 4, bucketMs d), (72, 8, d.clo.ceil), (80, 8, dirtyNow d), (88, 2, d.hld.vhold), (92, 4, d.hld.cap), (96, 4, space.1), (100, 4, space.2),
    (104, 2, wear.1), (106, 2, wear.2.1), (108, 2, wear.2.2), (110, 2, d.age.eolYears), (112, 2, d.med.eolYears), (114, 2, bankEol d),
    (128, 8, sumL (d.pwr.lgParked.map fun g => 2 ^ g))] ++
    (List.range 64).map (fun g => (136 + g, 1, lgByte d g)))

/-- A tenant slot, without its phase. -/
def tenantSlot (d : Dev) (seq tenant : Nat) (s : TStat) : Nat :=
  let lat := match accordOf d tenant with | some a => a.lat | none => 7
  lay ([(0, 8, seq), (8, 2, tenant), (10, 1, b2n (decide (s.cb ≠ 0))), (11, 1, lat), (12, 4, s.reads), (16, 4, s.writes), (20, 4, s.cb), (24, 4, s.rc),
    (28, 4, s.sd), (544, 8, s.bytesR), (552, 8, s.bytesW)] ++
    (List.range 64).map (fun i => (32 + 4 * i, 4, tgetD s.rh i 0)) ++ (List.range 64).map fun i => (288 + 4 * i, 4, tgetD s.wh i 0))

/-! ### Writing (R118) -/

/-- Write one slot where the ring lies; byte 1,023 carries the phase bit (R77). -/
def writeSlot (cq t slot : Nat) (d : Dev) : Dev := match tget d.qm.cqs cq with
  | none => d
  | some r =>
    let bytes := slot + 256 ^ 1023 * b2n r.phase
    let d := onCq cq (fun r => { r with widx := (r.widx + 1) % 2 ^ r.log2, phase := if (r.widx + 1) % 2 ^ r.log2 = 0 then !r.phase else r.phase }) d
    match r.bind with
    | .fn f => coalesce cq t (touchPort (.pcx (f / 1024)) t (send (.dma f (r.base + 1024 * r.widx) 1024 bytes) d))
    | .conn c => smtSendFenced (fld c 0 18) (r.base + 1024 * r.widx) r.rkey 1024 bytes none d
    | .mailbox => d

/-- May a ring's function issue a request (R178)? -/
def mayIssue (d : Dev) (b : Bind) : Bool := match b with
  | .fn f => busMaster d f
  | _ => true

/-- Write a period's record to a ring, or count it as dropped; a function without Bus Master Enable issues nothing (R178). -/
def writeRecord (cq t : Nat) (slots : List Nat) (d : Dev) : Dev := match tget d.qm.cqs cq with
  | none => d
  | some r =>
    if r.halted ∨ slots = [] ∨ mayIssue d r.bind = false then d
    else if cqFree r < slots.length then { d with qm := { d.qm with telemDrop := satInc 32 d.qm.telemDrop } }
    else forAll slots (writeSlot cq t) d

/-- The record of a period for a ring: the owner's device slot with every tenant's, or a tenant's own. -/
def recordFor (d : Dev) (seq : Nat) (act : List (Nat × TStat)) (r : CompRing) : List Nat := match r.tenant with
  | none => deviceSlot d seq act.length :: act.map fun e => tenantSlot d seq e.1 e.2
  | some k => (act.filter fun e => decide (e.1 = k)).map fun e => tenantSlot d seq e.1 e.2

/-- The figures start again; the misses of the second stand. -/
def clearPeriod (d : Dev) : Dev :=
  { d with alm := { d.alm with stats := tmap (tfilter d.alm.stats fun _ s => decide (s.misses ≠ [])) fun _ s => { misses := s.misses } } }

/-- TELEMETRY_PERIOD: a clean shutdown and an orderly stop write on; nothing is written in S2, where the periods count on (R118, R463). -/
def execTelemetryPeriod (t : Nat) (s : State) : Host.Outcome State Fault Refusal :=
  s.on fun d => onlyIf (mainUp d && d.clo.ready && !halting d && !d.sec.lowering && decide (d.qm.telemDue + 1000000 * telemPeriod d ≤ t)) (fun d =>
    let seq := d.qm.telemSeq
    let act := d.alm.stats.filter fun e => decide (e.2.ended ≠ 0)
    let d' := if inS2 d then d else forAll ((d.qm.cqs.filter fun e => e.2.telem)) (fun e x => writeRecord e.1 t (recordFor d seq act e.2) x) d
    clearPeriod { d' with qm := { d'.qm with telemSeq := seq + 1, telemDue := t } }) (tick t d)

/-! ### Missed targets (R217) -/

/-- The three reasons with the most misses, most first, equal counts lower first; 0 where there are fewer. -/
def topReasons (m : Tbl Nat) : List Nat :=
  let l := (sortBy (fun a b : Nat × Nat => decide (b.2 < a.2) || (decide (b.2 = a.2) && decide (a.1 < b.1))) m).map (·.1)
  [l.getD 0 0, l.getD 1 0, l.getD 2 0]

/-- ACCORD_MISS_SECOND: one record for each tenant that missed. -/
def execAccordMissSecond (t : Nat) (s : State) : Host.Outcome State Fault Refusal :=
  s.on fun d => onlyIf (mainUp d && d.clo.ready && decide (d.alm.missDue ≤ t)) (fun d =>
    let d' := forAll (d.alm.stats.filter fun e => decide (e.2.misses ≠ [])) (fun e => raise .accordMiss (e.1 :: sumL (e.2.misses.map (·.2)) :: topReasons e.2.misses)) d
    { d' with alm := { d'.alm with missDue := t + 1000000000, stats := tmap (tfilter d'.alm.stats fun _ s => decide (s.ended ≠ 0)) fun _ s => { s with misses := [] } } }) (tick t d)

end Sys2Proof.Machine
end

