-- ==== Sys2Proof/Machine/RegRead.lean ====
section
/-!
DEFINITION. What a read of each register answers (spec/16_register_map.md R522-R526 and the register tables of each chapter): the value of a register at an
offset, the high words latched by reads of low words, and which path reads what (R172, R514).
-/

namespace Sys2Proof.Machine

/-- Fields laid out in a word: lowest bit, width, value. -/
def bitsAt (l : List (Nat × Nat × Nat)) : Nat := sumL (l.map fun e => e.2.2 % 2 ^ e.2.1 * 2 ^ e.1)

/-- A number shown saturated in w bits. -/
def sat (w v : Nat) : Nat := min v (2 ^ w - 1)

/-- A temperature in 0.1 degrees as 12 bits. -/
def temp12 (t : Int) : Nat := twos 12 t

/-- The bits of the numbers of a list. -/
def bitSet (l : List Nat) : Nat := l.eraseDups.foldl (fun a i => a ||| 2 ^ i) 0

/-- The firmware image runs (R321). -/
def firmwareUp (d : Dev) : Bool := decide (5 ≤ d.clo.phase)

/-- The registers of a group that show what the device computes: offset and value. -/
abbrev RoRegs := List (Nat × (Dev → Nat))

/-! ### Values that take a few steps -/

/-- Dies ineligible for a reason other than want of a free bed (R184). -/
def ineligible (d : Dev) : Nat := (d.alm.dies.filter fun e =>
  e.2.included && (dieFailed d e.1 || !lgUsable d (lgOf e.1) || !e.2.wearValid || (e.2.worn && !(diesAdmitted d).contains e.1) || lgHot d (lgOf e.1))).length

/-- Least die time available to accords over all dies. -/
def leastAvail (d : Dev) : Nat := ((diesAdmitted d).map fun x => availIn d (lgOf x)).foldl min (125 * (plannedSlots d - bgReserve d))

/-- Beds in a state now. -/
def bedsIn (d : Dev) (st : BState) : Nat := tcount d.maps.beds fun _ b => decide (b.st = st)

/-- A figure of the profile that MED_PSEL selects; 0 where it names no qualification entry. -/
def ofProfile (f : Profile → Nat) (d : Dev) : Nat := if firmwareUp d then (match profileOf (fld (rd d 0x40000) 0 8) with | some p => f p | none => 0) else 0

/-- Included dies of a profile. -/
def diesIncluded (d : Dev) (p : Nat) : Nat := (d.alm.dies.filter fun e => e.2.included && decide (e.2.profile = p)).length

/-- ROW_GRAFT_STAT and ROW_GRAFT_LEFT of the selected plot. -/
def graftStat (d : Dev) : Nat := match tget d.maps.grafts (fld (rd d 0x40240) 0 14) with
  | some g => bitsAt [(0, 2, g.st), (2, 1, b2n g.waitSpace), (3, 1, b2n g.durable), (8, 5, g.k), (13, 2, g.mc)]
  | none => 0
def graftLeftReg (d : Dev) : Nat := match tget d.maps.grafts (fld (rd d 0x40240) 0 14), tget d.maps.plots (fld (rd d 0x40240) 0 14) with
  | some g, some p => sat 32 (graftLeft d (fld (rd d 0x40240) 0 14) p g)
  | _, _ => 0

/-- The set of the newer checkpoint. -/
def newerSet (d : Dev) : Nat := match d.jnl.ckpt0, d.jnl.ckpt1 with
  | some a, some b => if a.num < b.num then 1 else 0
  | none, some _ => 1
  | _, _ => 0

/-- JNL_CKPT_STAT, JNL_SPAN. -/
def ckptStat (d : Dev) : Nat := bitsAt [(0, 1, b2n d.jnl.ckpt0.isSome), (1, 1, b2n d.jnl.ckpt1.isSome), (2, 1, newerSet d), (3, 1, b2n d.jnl.writing.isSome),
  (16, 16, match newestCkpt d with | some c => sat 16 ((d.io.now - c.beganAt) / 1000000000) | none => 0)]
def jnlSpan (d : Dev) : Nat := bitsAt [(0, 16, sat 16 ((d.jnl.seq - (match newestCkpt d with | some c => c.begin | none => 0)) * 32 / 1048576)), (16, 16, sat 16 (heldMib d))]

/-- Links in the given states. -/
def linksIn (d : Dev) (sts : List Nat) : Nat := (d.hl.links.filter fun e => sts.contains e.2.st).length

/-- HBM is laid out. -/
def hbmOut (d : Dev) (v : Nat) : Nat := if d.ecc.hbmStat = 3 then v else 0

/-- One word of a byte string kept most significant first: word n holds bytes 4n to 4n + 3, byte 4n in bits [31:24]. -/
def beWord (total v n : Nat) : Nat := fld v (8 * total - 32 * (n + 1)) 32

/-- THM_TEMP. -/
def thmTemp (d : Dev) : Nat :=
  let i := fld (rd d 0xA0004) 0 6
  if sensorPresent d i then bitsAt [(0, 12, temp12 (tgetD d.thm.temps i 0)), (12, 1, b2n (d.thm.failed.contains i)), (13, 1, b2n (stale d i))] else 0

/-- PMD_SAMPLE. -/
def pmdSample (d : Dev) : Nat := match d.hld.chans[fld (rd d 0x102000) 0 4]? with
  | some c => bitsAt [(0, 18, c.code), (18, 1, b2n c.shown), (19, 1, b2n c.rsw), (20, 1, b2n c.locked)]
  | none => 0

/-! ### The tables -/

/-- GLB, CAP, QM, BPM. -/
def roQm : RoRegs := [
  (0x0, fun _ => 0x000A3921), (0x10, capUnits), (0x14, capLimits), (0x40, fun d => b2n d.rf.lock),
  (0x1014, fun d => rd d 0x1014 + 2 * b2n (ownerMgt d)),
  (0x1018, fun d => b2n (ownerServed d) + 2 * b2n d.qm.adminErr),
  (0x1024, fun d => bitsAt [(0, 14, lockUsed d.qm.locks), (16, 14, d.qm.lockHigh)]),
  (0x1028, fun d => sat 18 (d.qm.locks.filter fun e => !e.entered).length),
  (0x102C, fun d => d.qm.dbReject), (0x1034, fun d => d.qm.telemDrop),
  (0x10060, fun d => bitsAt [(0, 16, d.bpm.bad), (16, 3, d.bpm.badPool), (20, 2, d.bpm.badKind)]),
  (0x10064, fun d => sat 16 d.bpm.waiting.length)]

/-- SMT. -/
def roSmt : RoRegs := [
  (0x20100, fun d => d.smt.conns.length), (0x20110, fun d => d.smt.dropAuth + 2 ^ 16 * d.smt.dropOther), (0x20114, fun d => d.smt.retx),
  (0x20118, fun d => d.smt.miss), (0x20124, smtCstate)]

/-- TRL, ALM. -/
def roAlm : RoRegs := [
  (0x3000C, fun d => bitsAt [(0, 12, d.alm.bsets.length), (16, 12, d.alm.bsetHigh)]), (0x30010, ineligible), (0x30014, fun d => d.alm.placed),
  (0x30110, fun d => if d.clo.ready then bitsAt [(0, 4, plannedSlots d), (16, 10, 125 * (plannedSlots d - bgReserve d))] else 0),
  (0x30114, fun d => if d.clo.ready then bitsAt [(0, 11, loadOf d), (16, 10, leastAvail d)] else 0),
  (0x3011C, fun d => if firmwareUp d then (match profileOf (fld (rd d 0x30118) 0 8) with | some p => bitsAt [(0, 12, p.bound), (16, 12, p.pageInc)] | none => 0) else 0),
  (0x30120, fun d => d.alm.rcaCnt), (0x30124, fun d => d.alm.boundMiss), (0x30128, fun d => d.alm.gateWait)]

/-- MED. -/
def roMed : RoRegs := [
  (0x40004, fun d => ofProfile (fun p => bitsAt [(0, 1, b2n (decide (diesIncluded d (fld (rd d 0x40000) 0 8) ≠ 0))), (1, 3, p.bpc), (4, 4, p.planes), (8, 8, p.pageKib), (16, 16, p.pages)]) d),
  (0x40008, ofProfile fun p => bitsAt [(0, 12, p.beds), (12, 4, p.spare), (16, 12, p.capMib), (28, 4, p.code)]),
  (0x4000C, ofProfile fun p => bitsAt [(0, 12, p.trTyp), (16, 12, p.trMax)]),
  (0x40010, ofProfile fun p => bitsAt [(0, 16, p.prog), (16, 16, p.erase)]),
  (0x40014, ofProfile fun p => bitsAt [(0, 8, p.sus), (8, 10, p.mrt), (20, 12, p.slcProg)]),
  (0x40018, ofProfile fun p => bitsAt [(0, 8, p.ew), (8, 8, p.reads / 1000), (16, 8, p.retire)]),
  (0x4001C, ofProfile fun p => bitsAt [(0, 16, p.pe), (16, 16, p.retain)]),
  (0x40020, fun d => ofProfile (fun _ => diesIncluded d (fld (rd d 0x40000) 0 8)) d),
  (0x40030, fun d => bitsAt [(0, 13, (d.alm.dies.filter fun e => e.2.included).length), (16, 13, (d.alm.dies.filter fun e => !e.2.included).length)]),
  (0x40034, fun d => sat 32 (rawGib d)),
  (0x40048, fun d => match tightest d with | some (f, r) => sat 16 f + 2 ^ 16 * sat 16 r | none => 0),
  (0x40060, fun d => bedsIn d .erased), (0x40064, fun d => bedsIn d .retired), (0x40068, fun d => bedsIn d .suspect),
  (0x40090, fun d => d.med.weedCnt),
  (0x400A0, fun d => bitsAt [(0, 16, d.med.eolYears), (16, 8, d.med.eolProfile), (24, 1, b2n d.med.eolBasis)]),
  (0x400A8, fun d => sat 16 (armedMib d) + 2 ^ 16 * sat 16 (rescueMib d)), (0x400B0, fun d => d.med.mapc)]

/-- ROW, JNL. -/
def roRow : RoRegs := [
  (0x40218, fun d => (degradedRows d).length), (0x4021C, fun d => (d.maps.rows.filter fun e => critical d e.1 e.2).length), (0x40220, fun d => d.med.rebuilt),
  (0x40224, fun d => d.med.noGroup.length), (0x40228, fun d => d.maps.lost.length), (0x4022C, fun d => sat 32 (sumL (d.maps.lost.map fun e => e.2.length))),
  (0x40230, fun d => (d.med.stripes.filter fun e => e.2.spilled).length),
  (0x40234, fun d => bitsAt [(0, 24, d.med.patrolRow), (24, 7, sat 7 ((d.io.now - d.med.patrolAt) / dayNs))]), (0x40238, fun d => d.med.patrolFix),
  (0x40244, graftStat), (0x40248, graftLeftReg), (0x40410, ckptStat), (0x40414, jnlSpan),
  (0x40418, fun d => sat 24 (d.jnl.recRecords / 1000) + 2 ^ 24 * sat 8 d.jnl.recTorn), (0x4041C, fun d => d.jnl.mirrorFix)]

/-- HL (all links together), HBM, ECC, LDC. -/
def roHl : RoRegs := [
  (0x58008, fun d => bitsAt [(0, 10, linksIn d [lsActive, lsP1, lsP2]), (16, 10, linksIn d [lsFailed])]),
  (0x60000, fun d => d.ecc.hbmStat % 4 + 4 * b2n (inS2 d)),
  (0x60008, fun d => hbmOut d (bitsAt [(0, 16, hbmMap d), (16, 16, cdiv (9 * regionSum d) 8)])),
  (0x6000C, fun d => hbmOut d (hbmWbuf d)), (0x60010, fun d => hbmOut d (hbmPools d)),
  (0x60020, fun d => d.ecc.hbmCe), (0x60024, fun d => d.ecc.hbmUe), (0x60028, fun d => d.ecc.hbmAddr),
  (0x61000, fun d => bitsAt [(0, 5, d.ecc.queue.length), (8, 1, b2n d.ecc.ovf), (9, 1, b2n d.ecc.ue)]),
  (0x61004, fun d => d.ecc.ovfCnt), (0x61008, fun d => d.ecc.sramCe), (0x6100C, fun d => d.ecc.sramUe), (0x61010, fun d => d.ecc.narrow),
  (0x61014, fun d => d.ecc.guardW + 2 ^ 16 * d.ecc.guardR), (0x61018, fun d => d.ecc.fabric),
  (0x61020, fun d => d.ecc.last.w0.toNat), (0x61024, fun d => d.ecc.last.w1.toNat), (0x61028, fun d => d.ecc.last.w2.toNat), (0x6102C, fun d => d.ecc.last.w3.toNat),
  (0x61040, fun d => if secLevel d = 0 then rd d 0x61040 else 0),
  (0x62004, fun d => b2n (decide (d.id.variant = .z9H))), (0x62010, fun d => d.ecc.hardFail), (0x62014, fun d => d.ecc.softA + 2 ^ 16 * d.ecc.softB),
  (0x62018, fun d => d.ecc.softFail), (0x6201C, fun d => d.ecc.cbMax),
  (0x62020, fun d => bitsAt [(0, 9, sumL (d.ecc.softUse.map (·.2))), (16, 9, d.ecc.softWait.length)]), (0x62024, fun d => bitSet d.ecc.fenced)]

/-- SEC, SCU. -/
def roSec : RoRegs := [
  (0x80000, fun d => bitsAt [(0, 2, secLevel d), (8, 6, d.sec.epoch), (14, 1, b2n d.sec.erasePend)]),
  (0x801E0, fun d => bitsAt [(8, 1, b2n d.sec.ka.isSome), (9, 1, b2n d.sec.sig.isSome), (16, 2, d.sec.ownResult)]),
  (0x80284, fun d => bitsAt [(0, 2, d.sec.cmdResult), (4, 4, d.sec.cmdReason), (8, 1, b2n d.sec.nonce.isSome), (9, 1, b2n d.sec.lowering)]),
  (0x80300, fun d => bitsAt [(0, 1, b2n d.sec.rngReady), (1, 1, b2n d.sec.rngFailed), (8, 8, d.sec.rngFails)]), (0x80310, secBoot),
  (0x81000, fun d => 2 ^ 8 * d.scu.holder), (0x81004, fun d => d.scu.op), (0x81008, fun d => d.scu.ofs), (0x8100C, fun d => d.scu.len),
  (0x81010, fun d => bitsAt [(0, 1, b2n d.scu.busy), (1, 1, b2n d.scu.fin), (2, 1, b2n d.scu.tagBad), (3, 1, b2n d.scu.err)])]

/-- PWR, CLK, CLO. The level shows once a clock runs. -/
def roPwr : RoRegs := [
  (0x90000, fun d => if d.pwr.cdiv = 0 then 0 else
    bitsAt [(0, 3, d.pwr.pl), (4, 3, ceilNow d), (7, 1, b2n d.pwr.pl6Fast), (8, 2, plLimit d), (10, 1, b2n d.pwr.move.isSome)]),
  (0x90008, pwrSleepReg), (0x90018, fun d => 2 ^ 16 * b2n d.pwr.gpioLatched + 2 ^ 17 * b2n (devLatched d)),
  (0x9001C, fun d => bitsAt [(0, 1, b2n d.pwr.klinkUp), (8, 8, d.pwr.klinkResync), (16, 16, d.pwr.klinkCrc)]),
  (0x90020, fun d => bitsAt [(0, 12, d.pwr.vddc), (16, 8, d.pwr.margin)]),
  (0x90040, fun d => pwrDom d 0), (0x90044, fun d => pwrDom d 1), (0x90048, fun d => pwrDom d 2), (0x9004C, fun d => pwrDom d 3), (0x90050, fun d => pwrDom d 4),
  (0x90060, fun _ => 0x00050014), (0x90064, fun _ => 0x0FA005DC), (0x90068, fun _ => 0x00320258), (0x9006C, fun _ => 0x000A0014), (0x90070, fun _ => 0x000A0014),
  (0x90074, fun _ => 0xFFFF1770),
  (0x90400, fun d => bitsAt [(0, 1, b2n d.pwr.pllLock), (1, 1, b2n d.pwr.holdover), (4, 4, d.pwr.cdiv), (8, 8, d.pwr.clkLoss)]),
  (0x90404, fun d => 4800 / d.pwr.cdiv),
  (0xC0020, fun d => if d.clo.phase = 0 then 0 else bitsAt [(0, 1, b2n (listArmed d)), (8, 3, zeroReason d)]),
  (0xC0024, fun d => bitsAt [(0, 2, d.kpr.lastResult), (2, 3, d.kpr.lastCause), (16, 16, sat 16 d.kpr.lastDuration)]),
  (0xC0028, fun d => bitsAt [(0, 4, d.clo.phase), (4, 1, b2n d.clo.ready), (5, 1, b2n d.clo.ckptOld), (6, 1, d.clo.image), (7, 1, b2n d.clo.format)]),
  (0xC0030, fun d => d.clo.dpCnt)]

/-- THM, AGE, TMX. -/
def roThm : RoRegs := [
  (0xA0000, fun d => match thmMax d with | some (i, t) => bitsAt [(0, 12, temp12 t), (16, 6, i), (31, 1, 1)] | none => 0), (0xA0008, thmTemp),
  (0xA0018, fun d => bitsAt [(0, 3, d.thm.ceil), (4, 3, d.thm.elec), (8, 1, b2n d.thm.warn), (9, 1, b2n d.thm.rateWarn), (10, 1, b2n (throttled d)),
    (11, 1, b2n d.thm.stopping), (12, 1, b2n d.thm.hbmHot)]),
  (0xA0024, fun d => bitsAt [(0, 16, bucketMs d), (16, 1, b2n d.thm.sprint)]),
  (0xA0028, fun d => bitsAt [(0, 8, sat 8 d.thm.steps), (8, 8, sat 8 d.thm.throttles), (16, 8, sat 8 d.thm.stopCnt), (24, 8, sat 8 d.thm.trips)]),
  (0xA1000, fun d => bitsAt [(0, 16, d.age.eolYears), (16, 5, d.age.sentinel)]),
  (0xA1008, fun d => sat 16 (tgetD d.age.drift (fld (rd d 0xA1004) 0 5) 0).toNat),
  (0xA1010, fun d => sat 32 (tgetD d.age.cells (16 * fld (rd d 0xA100C) 0 3 + fld (rd d 0xA100C) 4 4) 0)), (0xA1014, ageAvg),
  (0xA1020, fun d => bitsAt [(0, 16, bankEol d), (16, 7, bankFade d)]),
  (0xB0050, fun d => d.mgt.gpio % 2 ^ 16 + 2 ^ 16 * bitSet ((List.range 16).filter (tmxDrives d))), (0xB0054, fun d => d.mgt.tmxRefused)]

/-- The power-die window. -/
def roKpr : RoRegs := [
  (0x100000, fun d => bitsAt [(0, 4, d.kpr.state), (4, 1, b2n (vinOk d)), (5, 1, b2n d.kpr.vauxOk), (6, 1, b2n d.kpr.pf), (8, 4, d.kpr.cause)]),
  (0x100010, fun d => d.kpr.pwrcyc % 2 ^ 24), (0x100014, fun d => d.kpr.glitch),
  (0x101004, fun d => b2n (d.hld.soft && decide (d.hld.calSt = 2)) + 2 * b2n d.hld.bleed),
  (0x101008, fun d => bitsAt [(0, 2, d.hld.calSt), (4, 2, d.hld.result), (8, 4, d.hld.reason), (12, 1, b2n d.hld.valid),
    (16, 16, if d.hld.valid then sat 16 ((d.io.now - d.hld.validAt) / 3600000000000) else 0)]),
  (0x10100C, fun d => sat 24 d.hld.cap), (0x101010, fun d => sat 16 d.hld.esr),
  (0x101014, fun d => bitsAt [(0, 16, d.hld.vhold), (16, 1, b2n d.hld.charging), (17, 1, b2n d.hld.safe)]), (0x102004, pmdSample),
  (0x103004, fun d => d.sil.head + 2 ^ 16 * b2n d.sil.wrapped), (0x103008, fun d => silOldest d.sil), (0x103010, fun d => d.sil.rseq),
  (0x103014, fun d => bitsAt [(0, 16, sat 16 d.sil.dropped), (16, 12, d.sil.tokens)]), (0x103018, fun d => d.sil.clrCnt), (0x10301C, silClearReg),
  (0x104000, fun d => bitsAt [(0, 1, b2n d.id.mgtMode), (1, 7, 0x1C + d.id.mgtAddr), (8, 1, b2n (ownerMgt d))]),
  (0x104004, fun d => match d.mgt.eid with | some e => 1 + 2 ^ 8 * e | none => 0), (0x104008, fun _ => Config.ianaNumber.toNat),
  (0x10400C, fun d => sat 16 d.mgt.arbMgmt + 2 ^ 16 * sat 16 d.mgt.arbPmbus), (0x104010, fun d => sat 16 d.mgt.pec + 2 ^ 16 * sat 16 d.mgt.timeouts),
  (0x105010, fun d => bitsAt [(0, 1, b2n d.thm.xtalOk), (1, 1, b2n d.thm.xtalLost), (8, 8, d.thm.rcTrim), (16, 12, temp12 d.thm.trimTemp)])]

/-- Every register whose value the device computes, one word each. -/
def roRegs : RoRegs := roQm ++ roSmt ++ roAlm ++ roMed ++ roRow ++ roHl ++ roSec ++ roPwr ++ roThm ++ roKpr

/-- The 64-bit quantities that only read: the offset of the low word, the value (R524). -/
def ro64 : RoRegs := [
  (0x20108, fun d => smtHeld d), (0x40098, fun d => d.med.weedBlk), (0x40210, fun d => bitSet d.med.failedLg), (0x40408, fun d => d.jnl.seq % 2 ^ 48),
  (0x62008, fun d => d.ecc.cw), (0x80008, fun _ => Config.deviceId.toNat), (0xA0030, fun d => bitSet (d.thm.failed.filter fun i => decide (i < 49))),
  (0xC0010, fun d => d.clo.ceil), (0xC0018, dirtyNow)]

/-! ### Registers in arrays -/

/-- Is an offset one of n words from a base? -/
def among (base n off : Nat) : Bool := decide (base ≤ off) && decide (off < base + 4 * n) && decide ((off - base) % 4 = 0)

/-- The word of a link's block (R331-R369). -/
def linkWord (d : Dev) (l w : Nat) : Nat :=
  if !linkPresent d l then 0 else
  let k := linkAt d l
  match w with
  | 0 => bitsAt [(0, 3, k.st), (3, 1, b2n k.locked), (8, 8, k.present), (16, 8, bitSet ((List.range 8).filter fun t => decide (tgetD d.maps.dieSvc (8 * l + t) 0 ≠ 0))), (24, 8, k.temp)]
  | 1 => (seqAt d l).ctrl
  | 2 => k.errCrc + 2 ^ 16 * k.errSync
  | 3 => bitsAt [(0, 16, k.replays), (16, 8, k.retrains), (24, 8, k.lockLosses)]
  | 4 => bitsAt [(0, 8, k.timeouts), (8, 6, (seqAt d l).ops.length)]
  | 5 => bitsAt [(0, 3, k.txPre), (4, 3, k.brPre), (8, 8, k.eye)]
  | 6 => bitsAt [(0, 16, k.buffer), (16, 16, k.fwVer)]
  | _ => 0

/-- A pool's word. -/
def poolWord (d : Dev) (kind i : Nat) : Nat := match d.bpm.pools[i]? with
  | none => 0
  | some p => match kind with
    | 0 => sat 24 p.free.length
    | 1 => sat 24 (p.total - p.lost)
    | _ => p.fallback

/-- A register of an array. -/
def arrayWord (d : Dev) (off : Nat) : Nat :=
  if among 0x10000 5 off then poolWord d 0 ((off - 0x10000) / 4)
  else if among 0x10020 5 off then poolWord d 1 ((off - 0x10020) / 4)
  else if among 0x10040 5 off then poolWord d 2 ((off - 0x10040) / 4)
  else if among 0x1400 640 off then (if locMailbox d then leNat (mbxBytes d off 4) else 0)
  else if decide (0x21000 ≤ off) && decide (off < 0x22000) && decide (off % 64 = 0x24) then
    bitsAt [(0, 1, b2n (ifUp d ((off - 0x21000) / 64))), (1, 3, tgetD d.smt.links ((off - 0x21000) / 64) 0)]
  else if among 0x40070 5 off then d.med.xplCnt.getD ((off - 0x40070) / 4) 0
  else if among 0x50000 8192 off then linkWord d ((off - 0x50000) / 64) (off % 64 / 4)
  else if among 0x58040 16 off then bitSet ((List.range 32).filter fun i => decide ((linkAt d (8 * (off - 0x58040) + i)).st = lsFailed))
  else if among 0x80040 24 off then beWord 96 Config.devicePub.toNat ((off - 0x80040) / 4)
  else if among 0x80200 4 off then (match d.sec.nonce with | some n => beWord 16 n.toNat ((off - 0x80200) / 4) | none => 0)
  else if among 0x81040 3 off then leNat (bytesAt d.scu.iv (off - 0x81040) 4)
  else if among 0x84000 4096 off then leNat (bytesAt d.scu.buf (off - 0x84000) 4)
  else if among 0x105000 4 off then
    bitsAt [(0, 12, temp12 (tgetD d.thm.pth ((off - 0x105000) / 4) 0)), (12, 1, b2n (d.thm.pthFailed.contains ((off - 0x105000) / 4)))]
  else 0

/-- The word at an aligned offset of the map; a 64-bit quantity that is written low word first shows the low word staged (R14). -/
def plainWord (d : Dev) (off : Nat) : Nat := match roRegs.find? fun r => decide (r.1 = off) with
  | some r => r.2 d
  | none =>
    if (specAt off).isSome then (match tget d.rf.stage off with | some w => w.toNat | none => rd d off) else arrayWord d off

/-! ### The map as a path reads it -/

/-- Registers that exist once per path. -/
def pathWord (d : Dev) (p : Path) (off : Nat) : Option Nat :=
  if off = 0x103000 then some (silPath d p).cursor else if off = 0x10300C then some (silFreezeReg d p) else none

/-- A 64-bit quantity that only reads, as the offset of one of its words: its low word's offset, whether it is the high word, its value. -/
def quadAt (d : Dev) (off : Nat) : Option (Nat × Bool × Nat) :=
  match ro64.find? fun r => decide (r.1 = off) || decide (r.1 + 4 = off) with
  | some r => some (r.1, decide (r.1 ≠ off), r.2 d)
  | none => none

/-- The latch of a path for a quantity. -/
def latchKey (p : Path) (low : Nat) : Nat := 2 * low + b2n (decide (p = .mgmt))

/-- Read an aligned word of the map that the path may read: a low word latches its high word; the high word takes and releases the latch (R524). -/
def mapWord (p : Path) (off : Nat) (d : Dev) : Word × Dev :=
  match pathWord d p off with
  | some v => (BitVec.ofNat 32 v, d)
  | none =>
    if among 0x103100 16 off then silWord p ((off - 0x103100) / 4) d else
    match quadAt d off with
    | some (low, false, v) =>
      (BitVec.ofNat 32 v, { d with rf := { d.rf with latch := tset d.rf.latch (latchKey p low) (BitVec.ofNat 32 (v / 2 ^ 32)) } })
    | some (low, true, v) => match tget d.rf.latch (latchKey p low) with
      | some w => (w, { d with rf := { d.rf with latch := tdel d.rf.latch (latchKey p low) } })
      | none => (BitVec.ofNat 32 (v / 2 ^ 32), d)
    | none => (BitVec.ofNat 32 (plainWord d off), d)

/-- Registers that every physical function and the management endpoint read (R172, R514). -/
def idReg (off : Nat) : Bool := decide (off = 0) || decide (off = 0x10) || decide (off = 0x14)

/-- May a path read an aligned offset of the map now? -/
def canRead (d : Dev) (p : Path) (off : Nat) : Bool :=
  reachable d p off ||
  (idReg off && d.kpr.running && d.pwr.aon && (match p with
    | .bar0 | .otherPf => hasPcx d 0 || hasPcx d 1
    | .mgmt => d.pwr.klinkUp
    | _ => false))

/-! ### A read -/

/-- Read an aligned word by a path. -/
def readWord (p : Path) (off : Nat) (d : Dev) : Word × Dev := match p with
  | .cfg fn => (BitVec.ofNat 32 (cfgWord d fn off), d)
  | .bar4 fn => (BitVec.ofNat 32 (bar4Word d fn off), d)
  | .bar2 fn => bar2Read fn off d
  | .sriov l => (BitVec.ofNat 32 (sriovWord d l), d)
  | _ => if canRead d p off then mapWord p off d else (0, d)

/-- A read by software: the word that holds the addressed bytes (R522) goes out as the answer. -/
def readReg (p : Path) (off : Nat) (d : Dev) : Dev :=
  let r := readWord p (off - off % 4) d
  send (.regRead off r.1) r.2

/-- REG64_LOW_READ (R524): a read of a register; where the offset names the low word of a 64-bit quantity that only reads, the high word is latched for the path. -/
def execReg64LowRead (path : Path) (off : Nat) (s : State) : Host.Outcome State Fault Refusal := s.onReg path (readReg path off)

end Sys2Proof.Machine
end

