-- ==== Sys2Proof/Machine/Mgt.lean ====
section
/-!
DEFINITION. The management endpoint's control and PLDM messages, bus arbitration and the test access ports (spec/15_sillage_and_debug.md R512-R516, R520, R521,
spec/14_thermal_and_health.md R496). Message layouts beyond what the manual prints follow the standards it names (notes/assumptions/32.md).
-/

namespace Sys2Proof.Machine

def onMgt (f : Mgt → Mgt) (d : Dev) : Dev := { d with mgt := f d.mgt }

/-- Kinds of message: MCTP control, PLDM, vendor-defined. -/
def mkControl : Nat := 0
def mkPldm : Nat := 1
def mkVendor : Nat := 0x7F

/-- A response is offered to the bus; the one offered before it has been sent. -/
def reply (kind : Nat) (body : List Nat) (t : Nat) (d : Dev) : Dev :=
  let d := withSome d.mgt.msg (fun m => send (.mctp m.kind m.body)) d
  onMgt (fun g => { g with msg := some { kind := kind, body := body, since := t, losses := 0 } }) d

/-- A message arrives: with a PEC error, or malformed, it is counted and nothing more; while the power die does not run there is no endpoint (R527). -/
def onMessage (pec : Bool) (t : Nat) (f : Dev → Dev) (d : Dev) : Dev :=
  onlyIf d.kpr.running (fun d => if pec then f d else onMgt (fun g => { g with pec := satInc 16 g.pec }) d) (tick t d)

/-- Bytes of a number as naturals, first least significant. -/
def natBytes (n v : Nat) : List Nat := (leBytes n v).map (·.toNat)

/-! ### MCTP control (R513) -/

/-- SET_ENDPOINT_ID: an assigned endpoint id, 8-254. -/
def execSetEndpointId (pec : Bool) (op eid t : Nat) (s : State) : Host.Outcome State Fault Refusal :=
  s.on (onMessage pec t fun d =>
    if op ≤ 1 ∧ 8 ≤ eid ∧ eid ≤ 254 then reply mkControl [0, 0, eid, 0] t (onMgt (fun g => { g with eid := some eid }) d)
    else reply mkControl [2] t d)

/-- GET_ENDPOINT_ID. -/
def execGetEndpointId (pec : Bool) (t : Nat) (s : State) : Host.Outcome State Fault Refusal :=
  s.on (onMessage pec t fun d => reply mkControl [0, d.mgt.eid.getD 0, 0, 0] t d)

/-- GET_MCTP_VERSION_SUPPORT: the base specification, control, PLDM and vendor-defined messages. -/
def execGetMctpVersionSupport (pec : Bool) (ty t : Nat) (s : State) : Host.Outcome State Fault Refusal :=
  s.on (onMessage pec t fun d =>
    if [0xFF, 0, 1, 0x7F].contains ty then reply mkControl ([0, 1] ++ natBytes 4 (Config.mctpVersion ty).toNat) t d else reply mkControl [0x80] t d)

/-- GET_MESSAGE_TYPE_SUPPORT. -/
def execGetMessageTypeSupport (pec : Bool) (t : Nat) (s : State) : Host.Outcome State Fault Refusal :=
  s.on (onMessage pec t fun d => reply mkControl [0, 2, 0x01, 0x7F] t d)

/-- GET_VENDOR_DEFINED_MESSAGE_SUPPORT: one vendor, format 0x01, Treiviat's enterprise number. -/
def execGetVendorDefinedMessageSupport (pec : Bool) (selector t : Nat) (s : State) : Host.Outcome State Fault Refusal :=
  s.on (onMessage pec t fun d =>
    if selector = 0 then reply mkControl ([0, 0xFF, 0x01] ++ (natBytes 4 Config.ianaNumber.toNat).reverse ++ (natBytes 2 Config.vendorSet.toNat).reverse) t d
    else reply mkControl [2] t d)

/-! ### PLDM (R496, R513, R515) -/

/-- Commands of type 0: SetTID, GetTID, GetPLDMVersion, GetPLDMTypes (0, 2 and 5), GetPLDMCommands. -/
def pldmBase (cmd arg t : Nat) (d : Dev) : Dev := match cmd with
  | 1 => if 1 ≤ arg ∧ arg ≤ 254 then reply mkPldm [0] t (onMgt (fun g => { g with tid := arg }) d) else reply mkPldm [2] t d
  | 2 => reply mkPldm [0, d.mgt.tid] t d
  | 3 => if [0, 2, 5].contains arg then reply mkPldm (0 :: natBytes 4 (Config.pldmVersion arg).toNat) t d else reply mkPldm [0x83] t d
  | 4 => reply mkPldm [0, 0x25, 0, 0, 0, 0, 0, 0, 0] t d
  | 5 => if [0, 2, 5].contains arg then reply mkPldm (0 :: natBytes 32 (Config.pldmCommands arg).toNat) t d else reply mkPldm [0x83] t d
  | _ => reply mkPldm [5] t d

/-- PLDM_BASE. -/
def execPldmBase (pec : Bool) (cmd arg t : Nat) (s : State) : Host.Outcome State Fault Refusal := s.on (onMessage pec t (pldmBase cmd arg t))

/-- A sensor as it answers: failed, initializing, without a reading now, or a value with its thresholds: upper warning, critical, fatal, lower warning. -/
inductive SensorNow where
  | failed | initializing | unavailable
  | value (v : Int) (warn crit fatal low : Option Int)
  deriving DecidableEq, Repr

/-- A main-die sensor. -/
def mainSensor (d : Dev) (i : Nat) : SensorNow :=
  if d.thm.failed.contains i then .failed
  else if !d.pwr.aon || stale d i || !thas d.thm.temps i then .unavailable
  else if i = 48 then .value (tgetD d.thm.temps i 0) (some 850) (some 950) (some 1000) none
  else .value (tgetD d.thm.temps i 0) (some (warnLimit d i)) (some 1050) (some 1150) none

/-- A prediction in tenths of a year, shown in days. -/
def dayPrediction (tenths : Nat) : SensorNow := if tenths = 0xFFFF then .initializing else .value (tenths * 36525 / 1000 : Nat) none none none (some 365)

/-- The sensors of R496; none: no such sensor here. With the main die off its rails give no power, and the last predictions are shown (R511). -/
def sensorNow (d : Dev) (id : Nat) : Option SensorNow :=
  if id = 1 then some (match thmMax d with | some (i, t) => .value t (some (warnLimit d i)) (some 1050) (some 1150) none | none => .unavailable)
  else if id = 2 then some (mainSensor d 48)
  else if 3 ≤ id ∧ id ≤ 6 then
    some (if d.thm.pthFailed.contains (id - 3) then .failed else if thas d.thm.pth (id - 3) then .value (tgetD d.thm.pth (id - 3) 0) (some 1100) none (some 1250) none else .unavailable)
  else if 0x10 ≤ id ∧ id ≤ 0x3F then (if sensorPresent d (id - 0x10) then some (mainSensor d (id - 0x10)) else none)
  else if id = 0x40 then some (if d.pwr.aon then .value (d.pwr.pl : Nat) none none none none else .unavailable)
  else if id = 0x41 then some (if d.pwr.aon then .value (bucketMs d : Nat) none none none none else .unavailable)
  else if id = 0x42 then some (if d.pwr.aon then (match d.thm.pw.head? with | some e => .value (e.2 / 1000 : Nat) (some 250) (some 290) none none | none => .unavailable)
    else .value 0 (some 250) (some 290) none none)
  else if id = 0x60 then some (dayPrediction (if d.pwr.aon then d.age.eolYears else d.age.lastSilicon))
  else if id = 0x61 then some (dayPrediction (if d.pwr.aon then d.med.eolYears else d.age.lastFlash))
  else if id = 0x62 then some (dayPrediction (bankEol d))
  else none

/-- Present state: lower warning 5, upper warning 8, critical 9, fatal 10, else normal 1. -/
def presentState (v : Int) (warn crit fatal low : Option Int) : Nat :=
  if fatal.any fun x => decide (x ≤ v) then 10 else if crit.any fun x => decide (x ≤ v) then 9 else if warn.any fun x => decide (x ≤ v) then 8
  else if low.any fun x => decide (v ≤ x) then 5 else 1

/-- Completion code, operational state, present state, reading in 32 bits. -/
def sensorBody : Option SensorNow → List Nat
  | none => [0x80]
  | some .failed => [0, 4, 0, 0, 0, 0, 0]
  | some .initializing => [0, 5, 0, 0, 0, 0, 0]
  | some .unavailable => [0, 2, 0, 0, 0, 0, 0]
  | some (.value v w c f l) => [0, 0, presentState v w c f l] ++ natBytes 4 (twos 32 v)

/-- PLDM_SENSOR_READ. -/
def execPldmSensorRead (pec : Bool) (sensorId t : Nat) (s : State) : Host.Outcome State Fault Refusal :=
  s.on (onMessage pec t fun d => reply mkPldm (sensorBody (sensorNow d sensorId)) t d)

/-- A firmware update ends: the image lies in the slot that is not running; it verifies, it fails, or the update was abandoned. The slot of an update that did not end well holds
no image that passes. -/
def firmwareUpdate (img : BootImage) (abandoned : Bool) (t : Nat) (d : Dev) : Dev :=
  if d.clo.ready && !d.sec.lowering && mainUp d then
    let slot := 1 - d.clo.image
    let ok := imagePasses d img && !abandoned
    let d := raise .fwUpdate [slot, img.version, if abandoned then 2 else if ok then 0 else 1] d
    reply mkPldm [0] t { d with sec := { d.sec with slots := tset d.sec.slots slot { img with good := img.good && !abandoned } } }
  else reply mkPldm [0x8A] t d

/-- PLDM_FIRMWARE_UPDATE. -/
def execPldmFirmwareUpdate (pec : Bool) (img : BootImage) (abandoned : Bool) (t : Nat) (s : State) : Host.Outcome State Fault Refusal :=
  s.on (onMessage pec t (firmwareUpdate img abandoned t))

/-! ### Arbitration (R516) -/

/-- MCTP_TIMEOUT: a message that lost arbitration and is unsent 100 ms after it was offered. -/
def execMctpTimeout (t : Nat) (s : State) : Host.Outcome State Fault Refusal :=
  s.on fun d => withSome d.mgt.msg (fun m => onlyIf (d.kpr.running && decide (m.losses ≠ 0) && decide (m.since + 100000000 ≤ t)) (onMgt fun g => { g with msg := none })) (tick t d)

/-- The eighth loss in a row of a transaction is recorded, once. -/
def lossRecord (bus target losses : Nat) (d : Dev) : Dev := if losses = 8 then raiseP .arbLoss [bus, target, 8] d else d

/-- A lost arbitration: bus 0 is the management bus in SMBus mode, with a message offered; bus 1 the PMBus, where it may hold back the VOUT_COMMAND of a move. -/
def arbLoss (bus target : Nat) (d : Dev) : Dev := match bus with
  | 0 => withSome d.mgt.msg (fun m => onlyIf (!d.id.mgtMode) fun d =>
      lossRecord 0 target (m.losses + 1) (onMgt (fun g => { g with arbMgmt := satInc 16 g.arbMgmt, msg := some { m with losses := m.losses + 1 } }) d)) d
  | _ => onlyIf (decide (d.kpr.state ≠ 0)) (fun d =>
      lossRecord 1 target (d.mgt.arbRun + 1) (onPwr (fun p => { p with arbHeld := p.move.isSome }) (onMgt (fun g => { g with arbPmbus := satInc 16 g.arbPmbus, arbRun := g.arbRun + 1 }) d))) d

/-- PMBUS_ARB_LOSS: the device stops driving and retries the whole transaction. -/
def execPmbusArbLoss (bus target t : Nat) (s : State) : Host.Outcome State Fault Refusal :=
  s.on fun d => onlyIf (d.kpr.running && decide (bus < 2)) (arbLoss bus target) (tick t d)

/-! ### JTAG (R520, R521) -/

/-- The instruction that takes effect in a TAP. -/
def tapEffect (d : Dev) (main : Bool) (i : TapInstr) : TapInstr :=
  if main && !d.pwr.aon then .bypass
  else match i with
    | .debug => if secLevel d = 0 then .debug else .bypass
    | .extest | .intest | .clamp | .highz => if main && !(d.id.bscan && atPhase d 1) then .bypass else i
    | .bypass | .idcode => i

/-- An IDCODE: version, part, manufacturer. -/
def idcode (main : Bool) : Nat := 2 ^ 28 + 2 ^ 12 * (if main then 0x0A39 else 0x0A3B) + 2 * Config.jedecId.toNat + 1

/-- JTAG_INSTRUCTION, for the main-die TAP or the power-die TAP. -/
def execJtagInstruction (main : Bool) (i : TapInstr) (s : State) : Host.Outcome State Fault Refusal :=
  s.on fun d => onlyIf d.kpr.running (fun d =>
    let e := tapEffect d main i
    let d := onMgt (fun g => if main then { g with tapMain := e } else { g with tapPower := e }) d
    if e = .idcode then send (.tdo (idcode main)) d else d) d

end Sys2Proof.Machine
end

