-- ==== Sys2Proof/Machine/RegAccess.lean ====
section
/-!
DEFINITION. What a write of each register does (spec/16_register_map.md R522-R533, R14, R15): registers with an effect of their own, the setup lock, 64-bit
quantities, configuration space and BAR4, and the management endpoint's register-access messages (spec/15_sillage_and_debug.md R514).
-/

namespace Sys2Proof.Machine

/-- The effect of a row of the table inside a register write. -/
def runRow (f : State → Host.Outcome State Fault Refusal) (d : Dev) : Dev := match f { dev := d, pending := [] } with
  | .next s => s.dev
  | .fault _ => d
  | .refused _ => d

def onRf (f : RegFile → RegFile) (d : Dev) : Dev := { d with rf := f d.rf }

/-! ### The setup lock (R530) -/

/-- LOCK: every RWL field is read-only, and the power die copies every RWL value; halves of 64-bit quantities that wait are dropped. -/
def setupLock (d : Dev) : Dev :=
  if d.rf.lock then d
  else onRf (fun r => { r with lock := true, copy := tfilter r.regs (fun off _ => (specAt off).any fun s => decide (s.rwl ≠ 0)), stage := [] }) d

/-- GLB_SETUP_LOCK. -/
def execGlbSetupLock (path : Path) (v : Word) (s : State) : Host.Outcome State Fault Refusal :=
  s.onReg path fun d => onlyIf (reachable d path 0x40 && bit v.toNat 0) setupLock d

/-! ### 64-bit quantities (R14) -/

/-- Is an offset the low word of a 64-bit quantity that software writes: the admin ring bases, an interface's MAC address? -/
def low64 (off : Nat) : Bool :=
  decide (off = 0x1000) || decide (off = 0x1008) || (decide (0x21000 ≤ off) && decide (off < 0x22000) && decide (off % 64 = 0))

/-- The low word waits for the high word. -/
def stageLow (off v : Nat) (d : Dev) : Dev :=
  if d.rf.lock then d else onRf (fun r => { r with stage := tset r.stage off (BitVec.ofNat 32 (v &&& wmask d off)) }) d

/-- The high word makes the whole value take effect. -/
def takeHigh (off v : Nat) (d : Dev) : Dev :=
  if d.rf.lock then d else
  let d := match tget d.rf.stage (off - 4) with | some w => wrMasked (off - 4) w.toNat d | none => d
  wrMasked off v (onRf (fun r => { r with stage := tdel r.stage (off - 4) }) d)

/-! ### Registers with an effect of their own -/

/-- SEC_SL: RAISE1 at SL0, RAISE2 at SL1. -/
def writeSl (p : Path) (v : Word) (d : Dev) : Dev := if secLevel d = 0 then runRow (execRaise1 p v) d else runRow (execRaise2 p v) d

/-- SEC_CMD: 1 lower, 2 and 3 replace a key, 4 advance the SVN; another command is refused with no reason of the table. -/
def writeSecCmd (p : Path) (v : Word) (t : Nat) (d : Dev) : Dev := match v.toNat % 16 with
  | 1 => runRow (execSecCmdLower p v t) d
  | 2 => runRow (execSecCmdReplaceKa p v) d
  | 3 => runRow (execSecCmdReplaceSig p v) d
  | 4 => runRow (execSecCmdAdvanceSvn p v) d
  | n => cmdEnd n 3 0 d

/-- SCU_CTRL: OP, and START where bit 4 is set; an OP outside 1-6 sets ERR. -/
def writeScuCtrl (p : Path) (v : Word) (d : Dev) : Dev :=
  let op := v.toNat % 16
  if !holds d p then d
  else if !bit v.toNat 4 then (if d.scu.busy then d else onScu (fun u => { u with op := op }) d)
  else if d.scu.busy then d
  else if 1 ≤ op ∧ op ≤ 6 then scuStart op d
  else onScu (fun u => { u with op := op, tagBad := false, err := true }) d

/-- Bits of SCU_OFS and SCU_LEN that exist. -/
def scuMask (v : Nat) : Nat := v &&& 0x3FFF3FFF

/-- PWR_PORT_HOLD: the links of ports newly held go down (R450). -/
def writeHold (v : Nat) (d : Dev) : Dev :=
  let was := heldPorts d
  let d := wrMasked 0x90014 (v &&& portHoldMask d) d
  let down := fun i => bit (heldPorts d) i && !bit was i
  let d := onSmt (fun s => { s with links := tfilter s.links fun i _ => !down (i / 8) }) d
  forAll ((List.range 8).filter fun l => down (8 + l / 4) && (pcxEntry d l).isSome) resetLink d

/-- HLD_CFG: a target of 0 stops the charger; another lets it run. -/
def writeHldCfg (v : Nat) (d : Dev) : Dev :=
  let d := wrMasked 0x101000 v d
  { d with hld := { d.hld with charging := decide (hldTarget d ≠ 0) && !d.kpr.pf && !d.hld.bleed && decide (d.hld.calSt ≠ 2) &&
    (decide (d.kpr.state = 2) || decide (d.kpr.state = 5)) } }

/-- HLD_CTRL: BLEED as written, then CAL. -/
def writeHldCtrl (p : Path) (v : Word) (t : Nat) (d : Dev) : Dev :=
  let d := if bit v.toNat 1 then runRow (execHldCtrlBleedSet p t) d else runRow (execHldCtrlBleedClear p t) d
  if bit v.toNat 0 then runRow (execHldCtrlCal p t) d else d

/-- Carry out a row where a bit of the value is set. -/
def ifBit (v : Word) (i : Nat) (f : Dev → Dev) (d : Dev) : Dev := if bit v.toNat i then f d else d

/-- The registers whose write does more than store; each with its effect, by path, value and time. -/
def writeEffects : List (Nat × (Path → Word → Nat → Dev → Dev)) := [
  (0x40, fun _ v _ => ifBit v 0 setupLock),
  (0x1004, fun _ v _ => takeHigh 0x1004 v.toNat), (0x100C, fun _ v _ => takeHigh 0x100C v.toNat),
  (0x1014, fun p v _ => runRow (execAdminRingEnable p v)), (0x1038, fun p v t => runRow (execQmMbxDb p v t)),
  (0x61000, fun _ v _ => onEcc fun e => { e with ovf := e.ovf && !bit v.toNat 8, ue := e.ue && !bit v.toNat 9 }),
  (0x61040, fun p v _ => runRow (execEccInject p v)),
  (0x80000, fun p v _ => writeSl p v),
  (0x801E0, fun p v _ d => ifBit v 1 (runRow (execCommitSig p)) (ifBit v 0 (runRow (execCommitKa p)) d)), (0x80280, fun p v t => writeSecCmd p v t),
  (0x81000, fun p v _ d => ifBit v 0 (runRow (execScuTake p)) (ifBit v 1 (runRow (execScuRelease p)) d)), (0x81004, fun p v _ => writeScuCtrl p v),
  (0x81008, fun p v _ d => onlyIf (holds d p) (onScu fun u => { u with ofs := scuMask v.toNat }) d),
  (0x8100C, fun p v _ d => onlyIf (holds d p) (onScu fun u => { u with len := scuMask v.toNat }) d),
  (0x81010, fun p v _ d => onlyIf (holds d p && bit v.toNat 1) (onScu fun u => { u with fin := false }) d),
  (0x90004, fun _ v t d => runRow (execPlCeilingChange t) (wrMasked 0x90004 v.toNat d)), (0x90008, fun _ v t => writeSleep v.toNat t),
  (0x90014, fun _ v _ => writeHold v.toNat), (0x90018, fun p v _ => ifBit v 0 (runRow (execPwrPadRelease p))),
  (0xA1024, fun p v _ d => ifBit v 8 (runRow (execAgeBankReset p)) (wrMasked 0xA1024 v.toNat d)), (0xB0000, fun _ v _ d => tmxCheck (wrMasked 0xB0000 v.toNat d)),
  (0x100008, fun p v t d => ifBit v 1 (runRow (execKprCtrlShutdown p t)) (ifBit v 0 (runRow (execKprCtrlWarm p t)) d)),
  (0x101000, fun _ v _ => writeHldCfg v.toNat), (0x101004, fun p v t => writeHldCtrl p v t),
  (0x103000, fun p v _ => onSilPath p fun x => { x with cursor := v.toNat % 4096 }), (0x10300C, fun p v t => silFreeze p v.toNat t),
  (0x10301C, fun _ v _ => ifBit v 0 silClearGo), (0x105010, fun _ v _ => ifBit v 1 (onThm fun h => { h with xtalLost := false }))]

/-- A write in an array: mailbox entries, interface addresses, link controls, the cipher unit's key, IV and buffer, test selects. -/
def writeArray (p : Path) (off : Nat) (v : Word) (t : Nat) (d : Dev) : Dev :=
  if among 0x1400 512 off then (if locMailbox d then mbxStore off (leBytes 4 v.toNat) d else d)
  else if low64 off then stageLow off v.toNat d
  else if decide (0x21000 ≤ off) && decide (off < 0x22000) && decide (off % 64 = 4) then takeHigh off v.toNat d
  else if decide (0x21000 ≤ off) && decide (off < 0x22000) && decide (off % 64 = 0x1C) then ipv6Last ((off - 0x21000) / 64) v.toNat d
  else if among 0x50000 8192 off && decide (off % 64 = 4) then
    let l := (off - 0x50000) / 64
    ifBit v 2 (runRow (execHlLctrlReturn p l t)) (ifBit v 1 (runRow (execHlLctrlFull p l t)) (ifBit v 0 (runRow (execHlLctrlRetrain p l t)) d))
  else if among 0x81020 8 off then onlyIf (holds d p) (onScu fun u => { u with key := bytesPut (off - 0x81020) (leBytes 4 v.toNat) u.key }) d
  else if among 0x81040 3 off then onlyIf (holds d p) (onScu fun u => { u with iv := bytesPut (off - 0x81040) (leBytes 4 v.toNat) u.iv }) d
  else if among 0x84000 4096 off then onlyIf (holds d p) (onScu fun u => { u with buf := bytesPut (off - 0x84000) (leBytes 4 v.toNat) u.buf }) d
  else if among 0xB0010 16 off || among 0x104080 4 off then tmxCheck (wrMasked off v.toNat d)
  else wrMasked off v.toNat d

/-- A write of an aligned word of the map by a path that reaches it: the writable fields take the value (R15); fields that lock set, and registers that only read, ignore it. -/
def mapWrite (p : Path) (off : Nat) (v : Word) (d : Dev) : Dev := match writeEffects.find? fun e => decide (e.1 = off) with
  | some e => e.2 p v d.io.now d
  | none => writeArray p off v d.io.now d

/-! ### A write -/

/-- Write an aligned word by a path; in the map an offset that is not aligned is ignored (R522). -/
def writeWord (p : Path) (off : Nat) (v : Word) (d : Dev) : Dev := match p with
  | .bar2 fn => bar2Write fn off true v d
  | .cfg fn => onlyIf (decide (off % 4 = 0)) (cfgWrite fn off v) d
  | .bar4 fn => onlyIf (decide (off % 4 = 0)) (bar4Write fn off v) d
  | .sriov l => onlyIf (decide (off % 4 = 0)) (sriovWrite l v) d
  | _ => onlyIf (decide (off % 4 = 0) && reachable d p off) (mapWrite p off v) d

/-- A write of any width (R522): a 64-bit one is two words, the lower offset first; a narrower one is ignored. The doorbells take words alone, and count what they ignore (R80). -/
def writeWide (p : Path) (off : Nat) (v : Word) (w : Width) (d : Dev) : Dev := match w, p with
  | .word, _ => writeWord p off v d
  | _, .bar2 fn => bar2Write fn off false v d
  | .narrow, _ => d
  | .double hi, _ => writeWord p (off + 4) hi (writeWord p off v d)

/-- REGISTER_WRITE (R15, R522, R523). -/
def execRegisterWrite (path : Path) (off : Nat) (v : RegVal) (s : State) : Host.Outcome State Fault Refusal := s.onReg path (writeWide path off v.v v.w)

/-- REG64_HIGH_WRITE (R14): the high word of a 64-bit quantity that software writes. -/
def execReg64HighWrite (path : Path) (off : Nat) (v : Word) (s : State) : Host.Outcome State Fault Refusal :=
  s.onReg path fun d => onlyIf (low64 (off - 4) && decide (4 ≤ off)) (writeWord path off v) d

/-! ### Register-access messages (R514, R529) -/

/-- Read n words from an offset, the lowest first. -/
def readWords (off : Nat) : Nat → Dev → List Nat × Dev
  | 0, d => ([], d)
  | n + 1, d =>
    let r := readWord .mgmt off d
    let rest := readWords (off + 4) n r.2
    (natBytes 4 r.1.toNat ++ rest.1, rest.2)

/-- Write words from an offset. -/
def writeWords (off : Nat) : List Byte → Nat → Dev → Dev
  | _, 0, d => d
  | l, n + 1, d => writeWords (off + 4) (l.drop 4) n (writeWord .mgmt off (BitVec.ofNat 32 (leAt l 0 4)) d)

/-- The words a request names. -/
def accessOffsets (off n : Nat) : List Nat := (List.range n).map fun i => off + 4 * i

/-- Is a request one that R514 allows: the operation, the count, the zero bytes, the alignment, data for each word written? -/
def accessBad (b : List Byte) : Bool :=
  let op := leAt b 0 1
  let n := leAt b 1 1
  !(decide (8 ≤ b.length) && (decide (op = 1) || decide (op = 2)) && decide (1 ≤ n) && decide (n ≤ 16) && decide (leAt b 2 2 = 0) && decide (leAt b 4 4 % 4 = 0) &&
    decide (b.length = 8 + (if op = 2 then 4 * n else 0)))

/-- May the endpoint name these words: all of the map as the owner, else the power-die window and, to read, the registers that identify the part? -/
def accessAllowed (d : Dev) (write : Bool) (offs : List Nat) : Bool := offs.all fun o => ownerMgt d || inPowerDie o || (idReg o && !write)

/-- Are the main-die words among them out of reach: the main die off or the keeper link down (R529)? -/
def accessCut (d : Dev) (offs : List Nat) : Bool := (offs.any fun o => !inPowerDie o) && !(d.pwr.aon && d.pwr.klinkUp)

/-- A register-access request: 3 a bad one, 1 refused, 2 out of reach, 0 done. A write that is done wakes the part from S2 (R462). -/
def registerAccess (b : List Byte) (t : Nat) (d : Dev) : Dev :=
  let write := decide (leAt b 0 1 = 2)
  let off := leAt b 4 4
  let n := leAt b 1 1
  if accessBad b then reply mkVendor [3] t d
  else if !accessAllowed d write (accessOffsets off n) then reply mkVendor [1] t d
  else if accessCut d (accessOffsets off n) then reply mkVendor [2] t d
  else if write then reply mkVendor [0] t (writeWords off (b.drop 8) n (wakeS2 t d))
  else
    let r := readWords off n d
    reply mkVendor (0 :: r.1) t r.2

/-- REGISTER_ACCESS_REQUEST. -/
def execRegisterAccessRequest (pec : Bool) (bytes : List Byte) (t : Nat) (s : State) : Host.Outcome State Fault Refusal :=
  s.on (onMessage pec t (registerAccess bytes t))

end Sys2Proof.Machine
end

