-- ==== Sys2Proof/Machine/Dispatch.lean ====
section
/-!
DEFINITION. Every command and its meaning: one arm per constructor of Instr.
-/

namespace Sys2Proof.Machine

/-- A command's effect on everything but the queue. -/
def exec (i : Instr) (s : State) : Host.Outcome State Fault Refusal :=
  match i with
  | .nop id => Sys2Proof.Machine.execNop id s
  | .read id sg => Sys2Proof.Machine.execRead id sg s
  | .zwrite id sg => Sys2Proof.Machine.execZwrite id sg s
  | .zappend id sg => Sys2Proof.Machine.execZappend id sg s
  | .zmgmtOpen id => Sys2Proof.Machine.execZmgmtOpen id s
  | .zmgmtClose id => Sys2Proof.Machine.execZmgmtClose id s
  | .zmgmtFinish id => Sys2Proof.Machine.execZmgmtFinish id s
  | .zmgmtReset id => Sys2Proof.Machine.execZmgmtReset id s
  | .zmgmtQuery id => Sys2Proof.Machine.execZmgmtQuery id s
  | .cwrite id sg => Sys2Proof.Machine.execCwrite id sg s
  | .cread id sg => Sys2Proof.Machine.execCread id sg s
  | .copy id => Sys2Proof.Machine.execCopy id s
  | .wait id t => Sys2Proof.Machine.execWait id t s
  | .abort id => Sys2Proof.Machine.execAbort id s
  | .tenantCreate id blk => Sys2Proof.Machine.execTenantCreate id blk s
  | .tenantGrant id blk => Sys2Proof.Machine.execTenantGrant id blk s
  | .tenantDelete id => Sys2Proof.Machine.execTenantDelete id s
  | .ringCreate id => Sys2Proof.Machine.execRingCreate id s
  | .ringDelete id => Sys2Proof.Machine.execRingDelete id s
  | .plotCreate id blk => Sys2Proof.Machine.execPlotCreate id blk s
  | .regionCreate id blk => Sys2Proof.Machine.execRegionCreate id blk s
  | .plotDelete id => Sys2Proof.Machine.execPlotDelete id s
  | .plotHints id => Sys2Proof.Machine.execPlotHints id s
  | .accordSet id => Sys2Proof.Machine.execAccordSet id s
  | .connCreate id blk => Sys2Proof.Machine.execConnCreate id blk s
  | .connDelete id => Sys2Proof.Machine.execConnDelete id s
  | .connKey id blk => Sys2Proof.Machine.execConnKey id blk s
  | .graftStart id => Sys2Proof.Machine.execGraftStart id s
  | .sqTail fn sq v t => Sys2Proof.Machine.execSqTail fn sq v t s
  | .cqHead fn cq v t => Sys2Proof.Machine.execCqHead fn cq v t s
  | .cqCountRead fn cq acc => Sys2Proof.Machine.execCqCountRead fn cq acc s
  | .qmMbxDb path v t => Sys2Proof.Machine.execQmMbxDb path v t s
  | .adminRingEnable path v => Sys2Proof.Machine.execAdminRingEnable path v s
  | .glbSetupLock path v => Sys2Proof.Machine.execGlbSetupLock path v s
  | .registerWrite path off v => Sys2Proof.Machine.execRegisterWrite path off v s
  | .reg64HighWrite path off v => Sys2Proof.Machine.execReg64HighWrite path off v s
  | .reg64LowRead path off => Sys2Proof.Machine.execReg64LowRead path off s
  | .smtIfIpv6LastWrite path iface v => Sys2Proof.Machine.execSmtIfIpv6LastWrite path iface v s
  | .descriptorFetch sq desc t => Sys2Proof.Machine.execDescriptorFetch sq desc t s
  | .rangeLockGrant id => Sys2Proof.Machine.execRangeLockGrant id s
  | .writeCommit id data tags => Sys2Proof.Machine.execWriteCommit id data tags s
  | .writeAcknowledge t => Sys2Proof.Machine.execWriteAcknowledge t s
  | .completionPost id t => Sys2Proof.Machine.execCompletionPost id t s
  | .coalesceTimerExpiry cq t => Sys2Proof.Machine.execCoalesceTimerExpiry cq t s
  | .waitTimeout id t => Sys2Proof.Machine.execWaitTimeout id t s
  | .bufferGrant => Sys2Proof.Machine.execBufferGrant s
  | .bufferReturn pool ptr => Sys2Proof.Machine.execBufferReturn pool ptr s
  | .telemetryPeriod t => Sys2Proof.Machine.execTelemetryPeriod t s
  | .accordMissSecond t => Sys2Proof.Machine.execAccordMissSecond t s
  | .almanacPeriod t => Sys2Proof.Machine.execAlmanacPeriod t s
  | .almanacSlot t => Sys2Proof.Machine.execAlmanacSlot t s
  | .blockedTimeExpiry die t => Sys2Proof.Machine.execBlockedTimeExpiry die t s
  | .ldpcDecodeDone job res t => Sys2Proof.Machine.execLdpcDecodeDone job res t s
  | .softBufferGrant cluster => Sys2Proof.Machine.execSoftBufferGrant cluster s
  | .stripeIdleSpill stripe t => Sys2Proof.Machine.execStripeIdleSpill stripe t s
  | .weedSwitch bad t => Sys2Proof.Machine.execWeedSwitch bad t s
  | .transplantSwitch row pos bad t => Sys2Proof.Machine.execTransplantSwitch row pos bad t s
  | .rebuildReplace row pos bad t => Sys2Proof.Machine.execRebuildReplace row pos bad t s
  | .graftZoneSwitch plot zone bad t => Sys2Proof.Machine.execGraftZoneSwitch plot zone bad t s
  | .rowReadsDrained row t => Sys2Proof.Machine.execRowReadsDrained row t s
  | .patrolStripe row stripe bits bad sp sq t => Sys2Proof.Machine.execPatrolStripe row stripe bits bad sp sq t s
  | .medHourTick t => Sys2Proof.Machine.execMedHourTick t s
  | .hlFrameReceive link fs pay fin t => Sys2Proof.Machine.execHlFrameReceive link fs pay fin t s
  | .hlDinFrame link t => Sys2Proof.Machine.execHlDinFrame link t s
  | .hlRspFrame link t => Sys2Proof.Machine.execHlRspFrame link t s
  | .hlAlert link t => Sys2Proof.Machine.execHlAlert link t s
  | .hlLctlAck link blocks t => Sys2Proof.Machine.execHlLctlAck link blocks t s
  | .hlLctlNak link blocks t => Sys2Proof.Machine.execHlLctlNak link blocks t s
  | .hlParkAck link blocks t => Sys2Proof.Machine.execHlParkAck link blocks t s
  | .hlParkNak link blocks t => Sys2Proof.Machine.execHlParkNak link blocks t s
  | .hlP1IdleTimer link t => Sys2Proof.Machine.execHlP1IdleTimer link t s
  | .hlReplayTimer link t => Sys2Proof.Machine.execHlReplayTimer link t s
  | .hlLockLoss link t => Sys2Proof.Machine.execHlLockLoss link t s
  | .hlRetrainDone link t => Sys2Proof.Machine.execHlRetrainDone link t s
  | .hlRetrainTimeout link t => Sys2Proof.Machine.execHlRetrainTimeout link t s
  | .hlTrainingDone link txPre brPre eye credit t => Sys2Proof.Machine.execHlTrainingDone link txPre brPre eye credit t s
  | .hlTrainingTimeout link t => Sys2Proof.Machine.execHlTrainingTimeout link t s
  | .hlBridgeWake link t => Sys2Proof.Machine.execHlBridgeWake link t s
  | .lgParkTimer lg t => Sys2Proof.Machine.execLgParkTimer lg t s
  | .hlOpTimeout link otag t => Sys2Proof.Machine.execHlOpTimeout link otag t s
  | .hlResetTimeout link otag t => Sys2Proof.Machine.execHlResetTimeout link otag t s
  | .hlRetryTimer link t => Sys2Proof.Machine.execHlRetryTimer link t s
  | .hlLctrlRetrain path link t => Sys2Proof.Machine.execHlLctrlRetrain path link t s
  | .hlLctrlFull path link t => Sys2Proof.Machine.execHlLctrlFull path link t s
  | .hlLctrlReturn path link t => Sys2Proof.Machine.execHlLctrlReturn path link t s
  | .smtBell p t => Sys2Proof.Machine.execSmtBell p t s
  | .smtRresp p t => Sys2Proof.Machine.execSmtRresp p t s
  | .smtAckRx p t => Sys2Proof.Machine.execSmtAckRx p t s
  | .smtCredRx p t => Sys2Proof.Machine.execSmtCredRx p t s
  | .smtKeepRx p t => Sys2Proof.Machine.execSmtKeepRx p t s
  | .smtCloseRx p t => Sys2Proof.Machine.execSmtCloseRx p t s
  | .smtArpRequest iface eth spa tpa t => Sys2Proof.Machine.execSmtArpRequest iface eth spa tpa t s
  | .smtNeighborSolicit iface eth src target t => Sys2Proof.Machine.execSmtNeighborSolicit iface eth src target t s
  | .smtIcmpEcho iface eth src dst body t => Sys2Proof.Machine.execSmtIcmpEcho iface eth src dst body t s
  | .smtFrameDrop iface p t => Sys2Proof.Machine.execSmtFrameDrop iface p t s
  | .smtRtoExpiry conn t => Sys2Proof.Machine.execSmtRtoExpiry conn t s
  | .smtAckDelayTimer conn t => Sys2Proof.Machine.execSmtAckDelayTimer conn t s
  | .smtKeepIdle conn t => Sys2Proof.Machine.execSmtKeepIdle conn t s
  | .smtDeadTimer conn t => Sys2Proof.Machine.execSmtDeadTimer conn t s
  | .smtEcnHold conn t => Sys2Proof.Machine.execSmtEcnHold conn t s
  | .smtKeyDrainTimer conn t => Sys2Proof.Machine.execSmtKeyDrainTimer conn t s
  | .smtCloseTimer conn t => Sys2Proof.Machine.execSmtCloseTimer conn t s
  | .ethParkTimer port t => Sys2Proof.Machine.execEthParkTimer port t s
  | .pcxParkTimer port t => Sys2Proof.Machine.execPcxParkTimer port t s
  | .pcxFlr fn => Sys2Proof.Machine.execPcxFlr fn s
  | .pcxOwnerFlr => Sys2Proof.Machine.execPcxOwnerFlr s
  | .pcxVfDisable link => Sys2Proof.Machine.execPcxVfDisable link s
  | .pcxPerst link => Sys2Proof.Machine.execPcxPerst link s
  | .pcxHotReset link => Sys2Proof.Machine.execPcxHotReset link s
  | .pcxDlDown link => Sys2Proof.Machine.execPcxDlDown link s
  | .pcxDmaError fn kind hit => Sys2Proof.Machine.execPcxDmaError fn kind hit s
  | .ceilingRecompute t => Sys2Proof.Machine.execCeilingRecompute t s
  | .holdupShortTimer t => Sys2Proof.Machine.execHoldupShortTimer t s
  | .vinDrop mv t => Sys2Proof.Machine.execVinDrop mv t s
  | .vinGlitch mv t => Sys2Proof.Machine.execVinGlitch mv t s
  | .powerFail t => Sys2Proof.Machine.execPowerFail t s
  | .flushDone stopAt t => Sys2Proof.Machine.execFlushDone stopAt t s
  | .vinReturn mv t => Sys2Proof.Machine.execVinReturn mv t s
  | .keeperWdogExpiry t => Sys2Proof.Machine.execKeeperWdogExpiry t s
  | .heartbeat t => Sys2Proof.Machine.execHeartbeat t s
  | .kprCtrlWarm path t => Sys2Proof.Machine.execKprCtrlWarm path t s
  | .kprCtrlShutdown path t => Sys2Proof.Machine.execKprCtrlShutdown path t s
  | .cleanShutdownDone t => Sys2Proof.Machine.execCleanShutdownDone t s
  | .hldCtrlCal path t => Sys2Proof.Machine.execHldCtrlCal path t s
  | .hldCalSchedule t => Sys2Proof.Machine.execHldCalSchedule t s
  | .hldCalDone v step t => Sys2Proof.Machine.execHldCalDone v step t s
  | .hldCalAbort sinkFault t => Sys2Proof.Machine.execHldCalAbort sinkFault t s
  | .hldCtrlBleedSet path t => Sys2Proof.Machine.execHldCtrlBleedSet path t s
  | .hldCtrlBleedClear path t => Sys2Proof.Machine.execHldCtrlBleedClear path t s
  | .bleedDone mv t => Sys2Proof.Machine.execBleedDone mv t s
  | .leakageCheck t => Sys2Proof.Machine.execLeakageCheck t s
  | .adcSample chan code t => Sys2Proof.Machine.execAdcSample chan code t s
  | .jnlPageTimer e => Sys2Proof.Machine.execJnlPageTimer e s
  | .checkpointTimer t => Sys2Proof.Machine.execCheckpointTimer t s
  | .checkpointDone e => Sys2Proof.Machine.execCheckpointDone e s
  | .coldReset vin vaux t => Sys2Proof.Machine.execColdReset vin vaux t s
  | .railPowerGood rail t => Sys2Proof.Machine.execRailPowerGood rail t s
  | .railPgTimeout vout t => Sys2Proof.Machine.execRailPgTimeout vout t s
  | .railFault rail vout t => Sys2Proof.Machine.execRailFault rail vout t s
  | .sramFillDone temp t => Sys2Proof.Machine.execSramFillDone temp t s
  | .warmupDone temp t => Sys2Proof.Machine.execWarmupDone temp t s
  | .warmupTimeout temp t => Sys2Proof.Machine.execWarmupTimeout temp t s
  | .hbmFillDone t => Sys2Proof.Machine.execHbmFillDone t s
  | .bootVerifyDone a b pools t => Sys2Proof.Machine.execBootVerifyDone a b pools t s
  | .discoveryDone dies clusters t => Sys2Proof.Machine.execDiscoveryDone dies clusters t s
  | .checkpointLoadDone ok0 ok1 t => Sys2Proof.Machine.execCheckpointLoadDone ok0 ok1 t s
  | .journalReplayDone gap repaired unknown t => Sys2Proof.Machine.execJournalReplayDone gap repaired unknown t s
  | .rescueIntakeDone t => Sys2Proof.Machine.execRescueIntakeDone t s
  | .rngReady => Sys2Proof.Machine.execRngReady s
  | .rngHealthFail t => Sys2Proof.Machine.execRngHealthFail t s
  | .plCeilingChange t => Sys2Proof.Machine.execPlCeilingChange t s
  | .plMoveDone t => Sys2Proof.Machine.execPlMoveDone t s
  | .pl6ModeCheck margin t => Sys2Proof.Machine.execPl6ModeCheck margin t s
  | .vddcAdapt margin t => Sys2Proof.Machine.execVddcAdapt margin t s
  | .pmbusArbLoss bus target t => Sys2Proof.Machine.execPmbusArbLoss bus target t s
  | .s1IdleTimer t => Sys2Proof.Machine.execS1IdleTimer t s
  | .s2IdleTimer t => Sys2Proof.Machine.execS2IdleTimer t s
  | .sleepEntryDone unit t => Sys2Proof.Machine.execSleepEntryDone unit t s
  | .sleepExitDone unit t => Sys2Proof.Machine.execSleepExitDone unit t s
  | .pwrSleepS2 path t => Sys2Proof.Machine.execPwrSleepS2 path t s
  | .pwrSleepS3 path t => Sys2Proof.Machine.execPwrSleepS3 path t s
  | .pwrPadRelease path => Sys2Proof.Machine.execPwrPadRelease path s
  | .klinkResync up crc t => Sys2Proof.Machine.execKlinkResync up crc t s
  | .klinkPfTimeout t => Sys2Proof.Machine.execKlinkPfTimeout t s
  | .clkLoss lock t => Sys2Proof.Machine.execClkLoss lock t s
  | .xtalLost t => Sys2Proof.Machine.execXtalLost t s
  | .rcTrim temp xtal t => Sys2Proof.Machine.execRcTrim temp xtal t s
  | .thmSample sensor temp t => Sys2Proof.Machine.execThmSample sensor temp t s
  | .sensorTimeout sensor t => Sys2Proof.Machine.execSensorTimeout sensor t s
  | .hbmSensorRead temp t => Sys2Proof.Machine.execHbmSensorRead temp t s
  | .pthSample sensor temp t => Sys2Proof.Machine.execPthSample sensor temp t s
  | .throttleStep t => Sys2Proof.Machine.execThrottleStep t s
  | .thermalCeilingRise t => Sys2Proof.Machine.execThermalCeilingRise t s
  | .orderlyStopDone t => Sys2Proof.Machine.execOrderlyStopDone t s
  | .thermalRestart t => Sys2Proof.Machine.execThermalRestart t s
  | .powerSample rails vinMw vddcMa busy t => Sys2Proof.Machine.execPowerSample rails vinMw vddcMa busy t s
  | .ageHourTick freqs t => Sys2Proof.Machine.execAgeHourTick freqs t s
  | .silRecord t => Sys2Proof.Machine.execSilRecord t s
  | .silProgramDone t => Sys2Proof.Machine.execSilProgramDone t s
  | .silSectorEraseDone t => Sys2Proof.Machine.execSilSectorEraseDone t s
  | .silTokenTick t => Sys2Proof.Machine.execSilTokenTick t s
  | .silHourStore t => Sys2Proof.Machine.execSilHourStore t s
  | .silFreeze path v t => Sys2Proof.Machine.execSilFreeze path v t s
  | .silFreezeTimeout path t => Sys2Proof.Machine.execSilFreezeTimeout path t s
  | .silWindowRead path word => Sys2Proof.Machine.execSilWindowRead path word s
  | .silClearGo path t => Sys2Proof.Machine.execSilClearGo path t s
  | .silClearDone t => Sys2Proof.Machine.execSilClearDone t s
  | .mainRecordStore busy t => Sys2Proof.Machine.execMainRecordStore busy t s
  | .registerAccessRequest pec bytes t => Sys2Proof.Machine.execRegisterAccessRequest pec bytes t s
  | .setEndpointId pec op eid t => Sys2Proof.Machine.execSetEndpointId pec op eid t s
  | .getEndpointId pec t => Sys2Proof.Machine.execGetEndpointId pec t s
  | .getMctpVersionSupport pec ty t => Sys2Proof.Machine.execGetMctpVersionSupport pec ty t s
  | .getMessageTypeSupport pec t => Sys2Proof.Machine.execGetMessageTypeSupport pec t s
  | .getVendorDefinedMessageSupport pec selector t => Sys2Proof.Machine.execGetVendorDefinedMessageSupport pec selector t s
  | .pldmBase pec cmd arg t => Sys2Proof.Machine.execPldmBase pec cmd arg t s
  | .pldmSensorRead pec sensorId t => Sys2Proof.Machine.execPldmSensorRead pec sensorId t s
  | .pldmFirmwareUpdate pec img abandoned t => Sys2Proof.Machine.execPldmFirmwareUpdate pec img abandoned t s
  | .mctpTimeout t => Sys2Proof.Machine.execMctpTimeout t s
  | .commitKa path => Sys2Proof.Machine.execCommitKa path s
  | .commitSig path => Sys2Proof.Machine.execCommitSig path s
  | .raise1 path v => Sys2Proof.Machine.execRaise1 path v s
  | .raise2 path v => Sys2Proof.Machine.execRaise2 path v s
  | .secCmdLower path v t => Sys2Proof.Machine.execSecCmdLower path v t s
  | .loweringDone beds failures t => Sys2Proof.Machine.execLoweringDone beds failures t s
  | .secCmdReplaceKa path v => Sys2Proof.Machine.execSecCmdReplaceKa path v s
  | .secCmdReplaceSig path v => Sys2Proof.Machine.execSecCmdReplaceSig path v s
  | .secCmdAdvanceSvn path v => Sys2Proof.Machine.execSecCmdAdvanceSvn path v s
  | .scuTake path => Sys2Proof.Machine.execScuTake path s
  | .scuRelease path => Sys2Proof.Machine.execScuRelease path s
  | .scuGcmEncrypt path v => Sys2Proof.Machine.execScuGcmEncrypt path v s
  | .scuGcmDecrypt path v => Sys2Proof.Machine.execScuGcmDecrypt path v s
  | .scuCmac path v => Sys2Proof.Machine.execScuCmac path v s
  | .scuKeyWrap path v => Sys2Proof.Machine.execScuKeyWrap path v s
  | .scuKeyUnwrap path v => Sys2Proof.Machine.execScuKeyUnwrap path v s
  | .scuSha384 path v => Sys2Proof.Machine.execScuSha384 path v s
  | .scuOpDone => Sys2Proof.Machine.execScuOpDone s
  | .memCorrectable e t => Sys2Proof.Machine.execMemCorrectable e t s
  | .memUncorrectable e mismatch hit t => Sys2Proof.Machine.execMemUncorrectable e mismatch hit t s
  | .narrowWriteRefused e t => Sys2Proof.Machine.execNarrowWriteRefused e t s
  | .fabricParityFail again e hit t => Sys2Proof.Machine.execFabricParityFail again e hit t s
  | .errorRecordHandled => Sys2Proof.Machine.execErrorRecordHandled s
  | .eccInject path v => Sys2Proof.Machine.execEccInject path v s
  | .ageBankReset path => Sys2Proof.Machine.execAgeBankReset path s
  | .rootPllLock t => Sys2Proof.Machine.execRootPllLock t s
  | .vinStable mv t => Sys2Proof.Machine.execVinStable mv t s
  | .inrushDone t => Sys2Proof.Machine.execInrushDone t s
  | .railSequenceRestart mv t => Sys2Proof.Machine.execRailSequenceRestart mv t s
  | .railPowerDownStep t => Sys2Proof.Machine.execRailPowerDownStep t s
  | .vinAboveRange mv t => Sys2Proof.Machine.execVinAboveRange mv t s
  | .allSuppliesLost t => Sys2Proof.Machine.execAllSuppliesLost t s
  | .linkGroupPllFail lg t => Sys2Proof.Machine.execLinkGroupPllFail lg t s
  | .pcxLinkTrained link rate width => Sys2Proof.Machine.execPcxLinkTrained link rate width s
  | .ethLinkStateChange iface speed => Sys2Proof.Machine.execEthLinkStateChange iface speed s
  | .pcxBusMasterEnable fn => Sys2Proof.Machine.execPcxBusMasterEnable fn s
  | .jtagInstruction main instr => Sys2Proof.Machine.execJtagInstruction main instr s

end Sys2Proof.Machine
end

