-- ==== Sys2Proof/Safety.lean ====
section
/-!
DEFINITION. What counts as a safe step and a safe run, in the terms the statements use: neither a fault nor a refusal. Also the words the statements share: a
command that stands outstanding, a command that has ended, and what a command leaves alone.
-/

namespace Sys2Proof.Machine

/-- The next state of a step, if it has one. -/
def nextOf (o : Host.Outcome State Fault Refusal) : Option State := match o with
  | .next s => some s
  | _ => none

/-- A step from here answers a next state. -/
def SafeStep (s : State) : Prop := ∃ s', step s = .next s'

/-- Every step of a run of n steps answers a next state. -/
def SafeRun : Nat → State → Prop
  | 0, _ => True
  | n + 1, s => ∃ s', step s = .next s' ∧ SafeRun n s'

/-- A command of a ring stands outstanding and may start: fetched, not yet checked, of this opcode; the part is awake (S0) and power has not failed (R101); where it changes the maps, the
journal tail has room (R316); and it is its turn to ask for what it reads (R147). -/
def Outstanding (s : State) (id opc : Nat) (c : Cmd) : Prop :=
  tget s.dev.qm.cmds id = some c ∧ c.stage = .fetched ∧ dOpc c.desc = opc ∧ s.dev.pwr.sleep = .s0 ∧ halting s.dev = false ∧
  (changesMap opc && journalFull s.dev) = false ∧ askTurn s.dev id c = true

/-- A command has its status, result and faulty field, and its completion waits to be posted (R95, R98, R99). -/
def Ended (t : State) (id : Nat) (c : Cmd) (st : Status) (result field : Nat) : Prop :=
  tget t.dev.qm.cmds id = some { c with stage := .done, status := st, result := BitVec.ofNat 64 result, field := field }

/-- Nothing changed but the named outstanding commands, and the model's own time (the latest told, when the part was last not idle, and until when the conditions of a missed target stood). -/
def CmdFrame (ids : List Nat) (s t : State) : Prop :=
  t = { s with dev := { s.dev with
    qm := { s.dev.qm with cmds := t.dev.qm.cmds }
    io := { s.dev.io with now := t.dev.io.now, stood := t.dev.io.stood }
    pwr := { s.dev.pwr with activeAt := t.dev.pwr.activeAt } } } ∧
  ∀ j, j ∉ ids → tget t.dev.qm.cmds j = tget s.dev.qm.cmds j

/-- A PCIe command's parameter block of n bytes finds a buffer at once (R115). -/
def BlockBuffer (s : State) (id n : Nat) (c : Cmd) : Prop := ∀ f, bindOf s.dev c = some (.fn f) → blockReady s.dev id n = true

/-- An admin command whose turn it is, on a part whose main die runs. -/
def AdminTurn (s : State) (id opc : Nat) (c : Cmd) : Prop := Outstanding s id opc c ∧ adminTurn s.dev id c = true ∧ mainUp s.dev = true

/-- Nothing stands in the way of a new range-lock entry (R113, R114): every earlier entry is in the table, none conflicts with it, and there is room. -/
def LockOpen (s : State) (e : Lock) : Prop :=
  (∀ x ∈ s.dev.qm.locks, x.entered = true ∧ x.cmd ≠ e.cmd ∧ lockConflict x e = false) ∧ lockUsed s.dev.qm.locks < 8192 ∧
  lockUsedBy s.dev.qm.locks e.tenant < lockMax s.dev

/-- The entry a command asks for. -/
def lockFor (id : Nat) (p : Plot) (plot first last : Nat) (excl : Bool) : Lock :=
  { cmd := id, tenant := p.tenant, plot := plot, first := first, last := last, excl := excl, entered := false, held := false }

/-- A Herarn link that the configuration has, on a part whose main die runs, in a state of HL_LSTAT. -/
def LinkIn (s : State) (link st : Nat) : Prop := linkPresent s.dev link = true ∧ mainUp s.dev = true ∧ (linkAt s.dev link).st = st

/-- A link-control block of a code: its type byte and its CRC are right (R339). -/
def LctlOk (blk : List Byte) (code : Nat) : Prop := leAt blk 0 1 = 0x4B ∧ crc32c (slice blk 0 12) = leAt blk 12 4 ∧ leAt blk 1 1 = code

/-- What a link's line brings in a command: blocks that descramble to these, SKP blocks removed (R331-R334), with no frame in reception. -/
def LineReads (s : State) (link : Nat) (blocks : List (Nat × List Byte)) (l : List LineBlk) : Prop :=
  (lineRead s.dev link blocks).filter (fun b => decide (b ≠ .skp)) = l ∧ (seqAt s.dev link).rxPart = none

/-- The line brings one link-control block of a code, the last of the command's blocks (R339). -/
def LctlReads (s : State) (link : Nat) (blocks : List (Nat × List Byte)) (blk : List Byte) (code : Nat) : Prop :=
  LctlOk blk code ∧ LineReads s link blocks [.ctl blk] ∧ (lineRead s.dev link blocks).getLast? = some (.ctl blk)

/-- A frame as it goes out on a link. -/
def frameOut (link : Nat) (f : HlFrame) : Out := .herarn link f.kind f.target f.seq f.len f.otag f.offset f.pay

/-- Two parts are alike but for the model's own time. -/
def SameButTime (d e : Dev) : Prop :=
  e = { d with io := { d.io with now := e.io.now, stood := e.io.stood }, pwr := { d.pwr with activeAt := e.pwr.activeAt } }

/-- A datagram of a type that passes every check of R121 and R142 for an Open connection: its interface can receive, its VLAN and its size fit the interface, the UDP checksum and port, VERSION, the connection and its peer, the key
generation, the length and FLAGS, and the tag; pay is the plaintext. -/
def Verified (d : Dev) (p : RxPkt) (ty i : Nat) (k : Conn) (pay : List Byte) : Prop :=
  rxOk d p.iface = true ∧ csumOk d p = true ∧ vlanOk d p.iface p.vlan = true ∧ ipBytes p.src p.bytes.length ≤ ifMtu d p.iface ∧ p.dport = udpPort d ∧ (rxHdr p.bytes).ver = 1 ∧ (rxHdr p.bytes).ty = ty ∧
  connNamed d (rxHdr p.bytes).cid = some (i, k) ∧ k.st = .isOpen ∧ p.src = k.peer ∧ p.bytes.length = 48 + (rxHdr p.bytes).len ∧ bit (rxHdr p.bytes).flags 0 = false ∧
  ∃ key, keyOf k (rxHdr p.bytes).kgen = some key ∧
    gcmOpen key (smtNonce k.salt (if ty = 5 ∨ ty = 6 ∨ ty = 7 ∨ ty = 9 then 2 else 0) (rxHdr p.bytes).psn) (p.bytes.take 32) (slice p.bytes 32 (rxHdr p.bytes).len)
      (p.bytes.drop (32 + (rxHdr p.bytes).len)) = some pay

/-- A data-space packet that is the next in order, on a connection that holds nothing above a gap, with seals left under the key (R151, R164). -/
def InOrder (p : RxPkt) (k : Conn) : Prop :=
  (rxHdr p.bytes).psn = k.rxCum ∧ k.rxCum < 2 ^ 32 ∧ k.rxSet = [] ∧ k.held = [] ∧
  (if (rxHdr p.bytes).kgen = k.kgen then k.rxSealed else k.oldSealed) < sealLimit

/-- A control packet later than every one accepted, with the seals it and the numbers skipped before it take left under its key (R156, R164). -/
def LaterControl (p : RxPkt) (k : Conn) : Prop :=
  ((rxHdr p.bytes).psn + 2 ^ 32 - k.ctlRx) % 2 ^ 32 ≠ 0 ∧ ((rxHdr p.bytes).psn + 2 ^ 32 - k.ctlRx) % 2 ^ 32 < 2 ^ 31 ∧
  (if (rxHdr p.bytes).kgen = k.kgen then k.rxSealedCtl else k.oldSealedCtl) + ((rxHdr p.bytes).psn + 2 ^ 32 - k.ctlRx) % 2 ^ 32 ≤ sealLimit

/-- A supply beyond its absolute maximum, as a command tells it (R535): the spec gives no behaviour there. -/
def SupplyBeyond (c : Instr) (d : Dev) : Prop :=
  (∃ vin vaux t, c = .coldReset vin vaux t ∧ d.kpr.running = false ∧ 16000 < vin) ∨
  (∃ mv t, c = .vinAboveRange mv t ∧ d.kpr.running = true ∧ 16000 < mv) ∨
  (∃ code t, c = .adcSample 0 code t ∧ d.kpr.running = true ∧ 16000 < adcMv (d.hld.chans.getD 0 {}).coarse (code % 262144))

/-- The range-lock table's entries in arrival order: one for a command, granted ones in the table, and no granted entry behind one it conflicts with (R113). -/
def LocksApart (l : List Lock) : Prop :=
  (l.map (·.cmd)).Nodup ∧ (∀ e ∈ l, e.held = true → e.entered = true) ∧ l.Pairwise fun a b => b.held = true → lockConflict a b = false

/-- A column of data members with its P, and with Q where the row is Durable (R262, R267). -/
def leanColumn (ds : List Payload) : Column := ds.zipIdx.map (fun e => (e.2, e.1)) ++ [(ds.length, parityP ds)]
def durableColumn (ds : List Payload) : Column := leanColumn ds ++ [(ds.length + 1, parityQ ds)]

/-- What every step keeps: the stored registers, the staged halves and the read latches in canonical form; the epochs, counts and allowance within their ranges; Sillage's ring
in its 4,096 slots. -/
def StateInv (s : State) : Prop :=
  Tbl.wf s.dev.rf.regs = true ∧ Tbl.wf s.dev.rf.stage = true ∧ Tbl.wf s.dev.rf.latch = true ∧ s.dev.sec.epoch ≤ 32 ∧ s.dev.kpr.pwrcyc < 2 ^ 24 ∧
  s.dev.sil.tokens ≤ 2048 ∧ s.dev.sil.head < 4096 ∧ s.dev.sil.rseq < 2 ^ 32 ∧ Tbl.wf s.dev.sil.slots = true ∧ ∀ e ∈ s.dev.sil.slots, e.1 < 4096

end Sys2Proof.Machine
end

