-- ==== Sys2Proof/Certificates/Slice0/Obligations.lean ====
section
/-!
DEFINITION. The statements for the provers: that every command answers a next state and what it leaves, family by family, each with its frame; then statements about
the whole part. Where a clause rests on a choice or a reading of the model, its docstring names the log entry.
-/

section
open Sys2Proof Sys2Proof.Machine

/-! ### Commands and rings -/

/-- NOP (R87), WAIT (R105), a WAIT's time-out (R107) and ABORT (R110): what each answers, and that nothing else changes. -/
def Obligations.NopWaitAbortComplete : Prop :=
  (∀ s id c, Outstanding s id 0x00 c →
    ∃ t, exec (.nop id) s = .next t ∧ Ended t id c .ok 0 0xFF ∧ CmdFrame [id] s t) ∧
  (∀ s id tm c r, Outstanding s id 0x08 c → dArg c.desc 0 ≤ 60000 →
    tget s.dev.qm.cqs (fld (dArg c.desc 1) 0 16) = some r → r.tenant = tenantOf s.dev c → r.telem = false →
    ∃ t, exec (.wait id tm) s = .next t ∧ CmdFrame [id] s t ∧
      (if dArg c.desc 2 + 2 ^ 32 * dArg c.desc 3 ≤ r.count then Ended t id c .ok r.count 0xFF
       else tget t.dev.qm.cmds id = some { c with stage := .transfer })) ∧
  (∀ s id tm c, tget s.dev.qm.cmds id = some c → dOpc c.desc = 0x08 → c.stage = .transfer → dArg c.desc 0 ≠ 0 →
    c.arrived + 1000000 * dArg c.desc 0 ≤ tm →
    ∃ t, exec (.waitTimeout id tm) s = .next t ∧ Ended t id c .waitTimeout 0 0xFF ∧ CmdFrame [id] s t) ∧
  (∀ s id c r, Outstanding s id 0x09 c → tget s.dev.qm.sqs (fld (dArg c.desc 1) 0 16) = some r → r.tenant = tenantOf s.dev c →
    (target s.dev id (fld (dArg c.desc 1) 0 16) (fld (dArg c.desc 1) 16 16) = none →
      ∃ t, exec (.abort id) s = .next t ∧ Ended t id c .ok 2 0xFF ∧ CmdFrame [id] s t) ∧
    (∀ i tc, target s.dev id (fld (dArg c.desc 1) 0 16) (fld (dArg c.desc 1) 16 16) = some (i, tc) → tget s.dev.qm.cmds i = some tc →
      ∃ t, exec (.abort id) s = .next t ∧
        (beforeCommit tc = false → Ended t id c .ok 1 0xFF ∧ CmdFrame [id] s t) ∧
        (beforeCommit tc = true → Ended t i tc .aborted 0 0xFF ∧ Ended t id { c with after := some i } .ok 0 0xFF)))

/-- Doorbells (R80) and the owner admin ring (R79): SQ_TAIL, CQ_HEAD, QM_MBX_DB, CQ_COUNT_READ and ADMIN_RING_ENABLE. A doorbell for a ring bound elsewhere, or
beyond the ring, changes no ring and is counted. CQ_COUNT_READ (R80): the low word latches the high word for the function, whose next read of the high word takes and
releases it; a 64-bit read returns both words of one instant. ADMIN_RING_ENABLE (R79): setting ENABLE starts the owner's ring, in host memory with its registers'
bases and sizes or in the mailbox with 16 entries; a zero base sets ERR and leaves it off; setting ENABLE again after ERR starts the ring anew; clearing ENABLE stops it. -/
def Obligations.DoorbellsAndCountsComplete : Prop :=
  ((∀ s fn sq v tm r, mainUp s.dev = true → pcxOn s.dev (fn / 1024) = true → tget s.dev.qm.sqs sq = some r → r.bind = .fn fn → r.halted = false →
     fld v.toNat 0 16 < 2 ^ r.log2 →
     ∃ t, exec (.sqTail fn sq v tm) s = .next t ∧ tget t.dev.qm.sqs sq = some { r with tail := fld v.toNat 0 16 } ∧
       (∀ j, j ≠ sq → tget t.dev.qm.sqs j = tget s.dev.qm.sqs j) ∧
       t = { s with dev := { s.dev with qm := { s.dev.qm with sqs := t.dev.qm.sqs, adminAwait := t.dev.qm.adminAwait }
                                        pwr := t.dev.pwr, io := { s.dev.io with now := t.dev.io.now, stood := t.dev.io.stood } } }) ∧
   (∀ s fn sq v tm r, mainUp s.dev = true → pcxOn s.dev (fn / 1024) = true → tget s.dev.qm.sqs sq = some r → (r.bind ≠ .fn fn ∨ 2 ^ r.log2 ≤ fld v.toNat 0 16) →
     ∃ t, exec (.sqTail fn sq v tm) s = .next t ∧ t.dev.qm = { s.dev.qm with dbReject := satInc 32 s.dev.qm.dbReject }) ∧
   (∀ s fn cq v tm r, mainUp s.dev = true → pcxOn s.dev (fn / 1024) = true → tget s.dev.qm.cqs cq = some r → r.bind = .fn fn → r.halted = false →
     fld v.toNat 0 16 < 2 ^ r.log2 →
     ∃ t, exec (.cqHead fn cq v tm) s = .next t ∧ tget t.dev.qm.cqs cq = some { r with head := fld v.toNat 0 16 } ∧
       (∀ j, j ≠ cq → tget t.dev.qm.cqs j = tget s.dev.qm.cqs j) ∧
       t = { s with dev := { s.dev with qm := { s.dev.qm with cqs := t.dev.qm.cqs }
                                        pwr := t.dev.pwr, io := { s.dev.io with now := t.dev.io.now, stood := t.dev.io.stood } } }) ∧
   (∀ s path v tm r, reachable s.dev path 0x1038 = true → ownerMgt s.dev = true → tget s.dev.qm.sqs 0 = some r → r.bind = .mailbox →
     r.halted = false → bit v.toNat 15 = true → bit v.toNat 31 = false → fld v.toNat 0 4 < 2 ^ r.log2 →
     ∃ t, exec (.qmMbxDb path v tm) s = .next t ∧ tget t.dev.qm.sqs 0 = some { r with tail := fld v.toNat 0 4 } ∧ t.dev.qm.cqs = s.dev.qm.cqs) ∧
   (∀ s path v tm r, reachable s.dev path 0x1038 = true → ownerMgt s.dev = true → tget s.dev.qm.cqs 0 = some r → r.bind = .mailbox →
     r.halted = false → bit v.toNat 15 = false → bit v.toNat 31 = true → fld v.toNat 16 4 < 2 ^ r.log2 →
     ∃ t, exec (.qmMbxDb path v tm) s = .next t ∧ tget t.dev.qm.cqs 0 = some { r with head := fld v.toNat 16 4 } ∧ t.dev.qm.sqs = s.dev.qm.sqs)) ∧
  (∀ s fn cq r, mainUp s.dev = true → pcxOn s.dev (fn / 1024) = true → tget s.dev.qm.cqs cq = some r → r.bind = .fn fn →
     (∃ t, exec (.cqCountRead fn cq .both) s = .next t ∧ t.dev = { s.dev with io := { s.dev.io with out := s.dev.io.out ++
         [.regRead (cq * 4096 + 0x810) (BitVec.ofNat 32 (r.count % 2 ^ 32)), .regRead (cq * 4096 + 0x814) (BitVec.ofNat 32 (r.count / 2 ^ 32))] } }) ∧
     (∃ t, exec (.cqCountRead fn cq .lo) s = .next t ∧
       t.dev.io.out = s.dev.io.out ++ [.regRead (cq * 4096 + 0x810) (BitVec.ofNat 32 (r.count % 2 ^ 32))] ∧
       tget t.dev.qm.countLatch (fn * 65536 + cq) = some (BitVec.ofNat 32 (r.count / 2 ^ 32)) ∧
       t.dev = { s.dev with qm := { s.dev.qm with countLatch := t.dev.qm.countLatch }, io := { s.dev.io with out := t.dev.io.out } }) ∧
     (∀ w, tget s.dev.qm.countLatch (fn * 65536 + cq) = some w →
       ∃ t, exec (.cqCountRead fn cq .hi) s = .next t ∧ t.dev.io.out = s.dev.io.out ++ [.regRead (cq * 4096 + 0x814) w] ∧
         t.dev = { s.dev with qm := { s.dev.qm with countLatch := tdel s.dev.qm.countLatch (fn * 65536 + cq) }, io := { s.dev.io with out := t.dev.io.out } }) ∧
     (tget s.dev.qm.countLatch (fn * 65536 + cq) = none →
       ∃ t, exec (.cqCountRead fn cq .hi) s = .next t ∧
         t.dev = { s.dev with io := { s.dev.io with out := s.dev.io.out ++ [.regRead (cq * 4096 + 0x814) (BitVec.ofNat 32 (r.count / 2 ^ 32))] } })) ∧
  (∀ s path v, reachable s.dev path 0x1014 = true → s.dev.rf.lock = false → Tbl.wf s.dev.rf.regs = true →
     ∃ t, exec (.adminRingEnable path v) s = .next t ∧
       (v.getLsbD 0 = false → t.dev.qm = { s.dev.qm with adminOn := false }) ∧
       (v.getLsbD 0 = true → (s.dev.qm.adminOn = false ∨ s.dev.qm.adminErr = true) → ownerMgt s.dev = true →
         t.dev.qm.adminOn = true ∧ t.dev.qm.adminErr = false ∧
         (∃ q, tget t.dev.qm.sqs 0 = some q ∧ q.admin = true ∧ q.tenant = none ∧ q.bind = .mailbox ∧ q.log2 = 4 ∧ q.head = 0 ∧ q.tail = 0) ∧
         (∃ q, tget t.dev.qm.cqs 0 = some q ∧ q.tenant = none ∧ q.bind = .mailbox ∧ q.log2 = 4 ∧ q.count = 0 ∧ q.phase = true)) ∧
       (v.getLsbD 0 = true → (s.dev.qm.adminOn = false ∨ s.dev.qm.adminErr = true) → ownerMgt s.dev = false → (rd64 s.dev 0x1000 = 0 ∨ rd64 s.dev 0x1008 = 0) →
         t.dev.qm = { s.dev.qm with adminOn := false, adminErr := true }) ∧
       (v.getLsbD 0 = true → (s.dev.qm.adminOn = false ∨ s.dev.qm.adminErr = true) → ownerMgt s.dev = false → rd64 s.dev 0x1000 ≠ 0 → rd64 s.dev 0x1008 ≠ 0 →
         t.dev.qm.adminOn = true ∧ t.dev.qm.adminErr = false ∧
         (∃ q, tget t.dev.qm.sqs 0 = some q ∧ q.admin = true ∧ q.tenant = none ∧ q.bind = .fn 0 ∧ q.base = rd64 s.dev 0x1000 ∧
           q.log2 = adminLog2 (fld (rd s.dev 0x1010) 0 4)) ∧
         (∃ q, tget t.dev.qm.cqs 0 = some q ∧ q.tenant = none ∧ q.bind = .fn 0 ∧ q.base = rd64 s.dev 0x1008 ∧
           q.log2 = adminLog2 (fld (rd s.dev 0x1010) 8 4) ∧ q.vector = fld v.toNat 16 11 ∧ q.count = 0 ∧ q.phase = true)))

/-- RING_CREATE (R73, R93) and RING_DELETE (R94): an accepted creation makes a ring with the lowest free number and the descriptor's fields; the deletion of an
unused completion ring removes it; a submission ring with commands outstanding stops fetching. -/
def Obligations.RingCreateDeleteComplete : Prop :=
  (∀ s id c, Outstanding s id 0x83 c → adminTurn s.dev id c = true → ringCreateFault s.dev c = none → fld (dArg c.desc 0) 16 2 ≤ 1 →
    ∃ t r, exec (.ringCreate id) s = .next t ∧ Ended t id c .ok (tfree s.dev.qm.sqs 1) 0xFF ∧
      tget t.dev.qm.sqs (tfree s.dev.qm.sqs 1) = some r ∧
      r.tenant = (if bit (dArg c.desc 0) 31 then none else some (fld (dArg c.desc 0) 0 12)) ∧ r.admin = decide (fld (dArg c.desc 0) 16 2 = 1) ∧
      r.base = dDptr c.desc ∧ r.log2 = fld (dArg c.desc 1) 0 5 ∧ r.cq = fld (dArg c.desc 1) 16 16 ∧ r.head = 0 ∧ r.tail = 0 ∧
      (∀ j, j ≠ tfree s.dev.qm.sqs 1 → tget t.dev.qm.sqs j = tget s.dev.qm.sqs j) ∧
      t = { s with dev := { s.dev with qm := { s.dev.qm with sqs := t.dev.qm.sqs, cmds := t.dev.qm.cmds } } }) ∧
  (∀ s id c, Outstanding s id 0x83 c → adminTurn s.dev id c = true → ringCreateFault s.dev c = none → 2 ≤ fld (dArg c.desc 0) 16 2 →
    ∃ t r, exec (.ringCreate id) s = .next t ∧ Ended t id c .ok (tfree s.dev.qm.cqs 1) 0xFF ∧
      tget t.dev.qm.cqs (tfree s.dev.qm.cqs 1) = some r ∧
      r.tenant = (if bit (dArg c.desc 0) 31 then none else some (fld (dArg c.desc 0) 0 12)) ∧ r.telem = decide (fld (dArg c.desc 0) 16 2 = 3) ∧
      r.base = dDptr c.desc ∧ r.log2 = fld (dArg c.desc 1) 0 5 ∧ r.vector = fld (dArg c.desc 3) 0 11 ∧ r.coalCount = fld (dArg c.desc 3) 16 8 ∧
      r.coalTime = fld (dArg c.desc 3) 24 8 ∧ r.count = 0 ∧ r.widx = 0 ∧ r.head = 0 ∧ r.phase = true ∧
      (∀ j, j ≠ tfree s.dev.qm.cqs 1 → tget t.dev.qm.cqs j = tget s.dev.qm.cqs j) ∧
      t = { s with dev := { s.dev with qm := { s.dev.qm with cqs := t.dev.qm.cqs, cmds := t.dev.qm.cmds } } }) ∧
  (∀ s id c, Outstanding s id 0x84 c → adminTurn s.dev id c = true → fld (dArg c.desc 0) 0 16 ≠ 0 →
    (bit (dArg c.desc 0) 31 = true → thas s.dev.qm.cqs (fld (dArg c.desc 0) 0 16) = true → cqNamed s.dev (fld (dArg c.desc 0) 0 16) = false →
      ∃ t, exec (.ringDelete id) s = .next t ∧ Ended t id c .ok 0 0xFF ∧
        t = { s with dev := { s.dev with qm := { s.dev.qm with cqs := tdel s.dev.qm.cqs (fld (dArg c.desc 0) 0 16), cmds := t.dev.qm.cmds } } }) ∧
    (∀ r i o, bit (dArg c.desc 0) 31 = false → tget s.dev.qm.sqs (fld (dArg c.desc 0) 0 16) = some r → r.held = none →
      tget s.dev.qm.cmds i = some o → o.sq = fld (dArg c.desc 0) 0 16 → i ≠ id →
      ∃ t, exec (.ringDelete id) s = .next t ∧ tget t.dev.qm.cmds id = some { c with stage := .transfer, past := true } ∧
        tget t.dev.qm.sqs (fld (dArg c.desc 0) 0 16) = some { r with deleting := some id } ∧
        canFetch t.dev (fld (dArg c.desc 0) 0 16) = false))

/-- DESCRIPTOR_FETCH (R76): a fetch on a PCIe ring reserves a completion slot, reads 64 bytes at the head, moves the head on and makes the command outstanding.
COMPLETION_POST (R77, R78, R95) and COALESCE_TIMER_EXPIRY (R81): a completion of a PCIe ring is written at the write index with the ring's phase and counted, and the
index moves on; the coalescing time's end sends the ring's interrupt. -/
def Obligations.FetchAndPostComplete : Prop :=
  (∀ s sq desc tm r q f, canFetch s.dev sq = true → tget s.dev.qm.sqs sq = some r → r.bind = .fn f → tget s.dev.qm.cqs r.cq = some q →
     ∃ t c, exec (.descriptorFetch sq desc tm) s = .next t ∧ tget t.dev.qm.cmds s.dev.qm.nextCmd = some c ∧
       t.dev.qm.nextCmd = s.dev.qm.nextCmd + 1 ∧ c.sq = sq ∧ c.desc = desc ∧ c.sqhd = (r.head + 1) % 2 ^ r.log2 ∧ c.arrived = tm ∧
       (fetchStatus s.dev sq r.admin desc = none → c.stage = .fetched) ∧
       (∀ st fl, fetchStatus s.dev sq r.admin desc = some (st, fl) → c.stage = .done ∧ c.status = st ∧ c.field = fl) ∧
       (∃ r', tget t.dev.qm.sqs sq = some r' ∧ r'.head = (r.head + 1) % 2 ^ r.log2 ∧ r'.tail = r.tail) ∧
       tget t.dev.qm.cqs r.cq = some { q with reserved := q.reserved + 1 } ∧
       t.dev.io.out = s.dev.io.out ++ [.dmaRead f (r.base + 64 * r.head) 64] ∧
       (∀ j, j ≠ s.dev.qm.nextCmd → tget t.dev.qm.cmds j = tget s.dev.qm.cmds j) ∧
       t = { s with dev := { s.dev with qm := t.dev.qm, pwr := t.dev.pwr, io := t.dev.io
                                        med := { s.dev.med with mapLines := t.dev.med.mapLines, mapc := t.dev.med.mapc }
                                        sec := { s.dev.sec with xts := t.dev.sec.xts } } }) ∧
  ((∀ s id tm c sr r f, tget s.dev.qm.cmds id = some c → canPost s.dev id c = true → ringOf s.dev c = some sr → tget s.dev.qm.cqs sr.cq = some r →
     r.bind = .fn f → discarded c r s.dev = false →
     ∃ t q rest, exec (.completionPost id tm) s = .next t ∧
       t.dev.io.out = s.dev.io.out ++ .dma f (r.base + 32 * r.widx) 32 (completionBytes (withCauses (tick tm s.dev) id c tm) (svcOf c tm) (missed c (svcOf c tm)) r.phase) :: rest ∧
       tget t.dev.qm.cqs sr.cq = some q ∧ q.count = r.count + 1 ∧ q.widx = (r.widx + 1) % 2 ^ r.log2 ∧
       q.phase = (if (r.widx + 1) % 2 ^ r.log2 = 0 then !r.phase else r.phase) ∧ q.reserved = r.reserved - 1 ∧
       (∀ j, j ≠ sr.cq → tget t.dev.qm.cqs j = tget s.dev.qm.cqs j)) ∧
   (∀ s cq tm r x f m, tget s.dev.qm.cqs cq = some r → r.firstAt = some x → r.coalTime ≠ 0 → x + 1000 * r.coalTime ≤ tm → r.halted = false →
     r.bind = .fn f → tget s.dev.pcx.msix (f * 2048 + r.vector) = some m → m.masked = false → msixOn s.dev f = true → busMaster s.dev f = true →
     ∃ t, exec (.coalesceTimerExpiry cq tm) s = .next t ∧ t.dev.io.out = s.dev.io.out ++ [.msix f m.addr m.data] ∧
       tget t.dev.qm.cqs cq = some { r with sinceIrq := 0, firstAt := none } ∧
       t = { s with dev := { s.dev with qm := { s.dev.qm with cqs := t.dev.qm.cqs }, io := t.dev.io,
                                        pwr := { s.dev.pwr with activeAt := t.dev.pwr.activeAt } } }))

/-! ### Tenants and plots -/

/-- TENANT_CREATE (R39), TENANT_GRANT (R40), TENANT_DELETE (R41): with a block in range and the sums within the device, the tenant has exactly the grants of the
block; a tenant that owns nothing is removed. Each change is a journal record. -/
def Obligations.TenantCommandsComplete : Prop :=
  (∀ s id blk c l, AdminTurn s id 0x80 c → BlockBuffer s id 32 c → readBlk s.dev c 32 blk = .got l → grantFault s.dev (grantsOf l) = none →
    tfree s.dev.maps.tenants 0 < 4096 → overSum s.dev none (grantsOf l) = false →
    ∃ t, exec (.tenantCreate id blk) s = .next t ∧ Ended t id c .ok (tfree s.dev.maps.tenants 0) 0xFF ∧
      tget t.dev.maps.tenants (tfree s.dev.maps.tenants 0) = some { grants := grantsOf l, accord := none } ∧
      t.dev.jnl.tail = s.dev.jnl.tail ++ [(s.dev.jnl.seq, .tenant (tfree s.dev.maps.tenants 0) (some { grants := grantsOf l, accord := none }) 0)] ∧
      (∀ j, j ≠ tfree s.dev.maps.tenants 0 → tget t.dev.maps.tenants j = tget s.dev.maps.tenants j) ∧
      t = { s with dev := { s.dev with qm := { s.dev.qm with cmds := t.dev.qm.cmds }, maps := { s.dev.maps with tenants := t.dev.maps.tenants },
                                       jnl := t.dev.jnl, io := t.dev.io, bpm := t.dev.bpm, sil := t.dev.sil } }) ∧
  (∀ s id blk c l x, AdminTurn s id 0x81 c → BlockBuffer s id 32 c → readBlk s.dev c 32 blk = .got l → grantFault s.dev (grantsOf l) = none →
    tget s.dev.maps.tenants (fld (dArg c.desc 0) 0 12) = some x → overSum s.dev (some (fld (dArg c.desc 0) 0 12)) (grantsOf l) = false →
    ∃ t, exec (.tenantGrant id blk) s = .next t ∧ Ended t id c .ok 0 0xFF ∧
      tget t.dev.maps.tenants (fld (dArg c.desc 0) 0 12) = some { x with grants := grantsOf l } ∧
      (∀ j, j ≠ fld (dArg c.desc 0) 0 12 → tget t.dev.maps.tenants j = tget s.dev.maps.tenants j) ∧
      t = { s with dev := { s.dev with qm := { s.dev.qm with cmds := t.dev.qm.cmds }, maps := { s.dev.maps with tenants := t.dev.maps.tenants },
                                       jnl := t.dev.jnl, io := t.dev.io, bpm := t.dev.bpm, sil := t.dev.sil } }) ∧
  (∀ s id c, AdminTurn s id 0x82 c → thas s.dev.maps.tenants (fld (dArg c.desc 0) 0 12) = true → tenantBusy s.dev (fld (dArg c.desc 0) 0 12) = false →
    ∃ t, exec (.tenantDelete id) s = .next t ∧ Ended t id c .ok 0 0xFF ∧
      t = { s with dev := { s.dev with qm := { s.dev.qm with cmds := t.dev.qm.cmds }
                                       maps := { s.dev.maps with tenants := tdel s.dev.maps.tenants (fld (dArg c.desc 0) 0 12) }, jnl := t.dev.jnl } }) ∧
  (∀ s id c, AdminTurn s id 0x82 c → thas s.dev.maps.tenants (fld (dArg c.desc 0) 0 12) = true → tenantBusy s.dev (fld (dArg c.desc 0) 0 12) = true →
    ∃ t, exec (.tenantDelete id) s = .next t ∧ Ended t id c .tenantBusy 0 0xFF ∧ CmdFrame [id] s t)

/-- PLOT_CREATE (R42, R415) and REGION_CREATE (R62): the plot or region with the block's fields under the lowest free id, and its key; a drawn seed that gives two
equal halves is refused. PLOT_DELETE (R46, R417): with no earlier command on the plot its key is destroyed and the plot is gone; with one, the deletion waits and
refuses the plot to commands fetched from now on. PLOT_HINTS (R92) replaces the default hints. -/
def Obligations.PlotCommandsComplete : Prop :=
  ((∀ s id blk c l p k, AdminTurn s id 0x85 c → BlockBuffer s id 64 c → readBlk s.dev c 64 blk = .got l → plotFault l = none → profileOf (pbProfile l) = some p →
     actingTenant s.dev c (fld (dArg c.desc 0) 0 12) = some k → (pbDurable l = true → hasQ s.dev = true) → plotRoom s.dev k = true →
     mediaRefused s.dev k (pbProfile l) = false → pbWrapped l = false → s.dev.sec.rngReady = true →
     ∃ t, exec (.plotCreate id blk) s = .next t ∧
       (seedBad ((drawn s.dev 0).setWidth 256) (freePlot s.dev) = true → Ended t id c .keyUnwrap 0 0xFF ∧ t.dev.maps = s.dev.maps) ∧
       (seedBad ((drawn s.dev 0).setWidth 256) (freePlot s.dev) = false → Ended t id c .ok (freePlot s.dev) 0xFF ∧
         tget t.dev.maps.plots (freePlot s.dev) = some { tenant := k, region := false, durable := pbDurable l, k := pbK l, mc := pbMc l, profile := pbProfile l,
                                                         count := pbCount l, cap := zoneCap p (pbK l) (pbMc l), span := pow2Up (zoneCap p (pbK l) (pbMc l)), hints := pbHints l } ∧
         tget t.dev.sec.store (freePlot s.dev) = some ((drawn s.dev 0).setWidth 256) ∧
         (∀ j, j ≠ freePlot s.dev → tget t.dev.maps.plots j = tget s.dev.maps.plots j))) ∧
   (∀ s id blk c l x, AdminTurn s id 0x86 c → BlockBuffer s id 64 c → readBlk s.dev c 64 blk = .got l → (profileOf (pbProfile l)).isSome = true → pbCount l ≠ 0 →
     tget s.dev.maps.tenants (fld (dArg c.desc 0) 0 12) = some x → (pbDurable l = true → hasQ s.dev = true) →
     regionOf s.dev (fld (dArg c.desc 0) 0 12) = none → plotRoom s.dev (fld (dArg c.desc 0) 0 12) = true → pbCount l ≤ x.grants.region →
     regionSum s.dev + pbCount l ≤ regionLimit s.dev → regionSum s.dev + pbCount l ≤ s.dev.ecc.cmapRes →
     quotaUsed s.dev (fld (dArg c.desc 0) 0 12) + pbCount l * gibBlocks ≤ x.grants.quota * gibBlocks → pbWrapped l = false → s.dev.sec.rngReady = true →
     ∃ t, exec (.regionCreate id blk) s = .next t ∧
       (seedBad ((drawn s.dev 0).setWidth 256) (freePlot s.dev) = true → Ended t id c .keyUnwrap 0 0xFF ∧ t.dev.maps = s.dev.maps) ∧
       (seedBad ((drawn s.dev 0).setWidth 256) (freePlot s.dev) = false → Ended t id c .ok (freePlot s.dev) 0xFF ∧
         tget t.dev.maps.plots (freePlot s.dev) = some { tenant := fld (dArg c.desc 0) 0 12, region := true, durable := pbDurable l, k := 16, mc := 0,
                                                         profile := pbProfile l, count := pbCount l, cap := pbCount l * gibBlocks, span := pbCount l * gibBlocks, hints := pbHints l } ∧
         tget t.dev.sec.store (freePlot s.dev) = some ((drawn s.dev 0).setWidth 256)))) ∧
  ((∀ s id c k p, AdminTurn s id 0x87 c → actingTenant s.dev c (fld (dArg c.desc 0) 0 12) = some k → plotFor s.dev id (some k) (dPlot c.desc) = some p →
     earlierOn s.dev id c.sq s.dev.qm.nextCmd (dPlot c.desc) = false →
     ∃ t, exec (.plotDelete id) s = .next t ∧ Ended t id c .ok 0 0xFF ∧ t.dev.maps.plots = tdel s.dev.maps.plots (dPlot c.desc) ∧
       t.dev.sec = { s.dev.sec with store := tdel s.dev.sec.store (dPlot c.desc), wiped := s.dev.sec.wiped ++ [dPlot c.desc]
                                    xts := s.dev.sec.xts.filter fun p => decide (p ≠ dPlot c.desc) }) ∧
   (∀ s id c k p, AdminTurn s id 0x87 c → actingTenant s.dev c (fld (dArg c.desc 0) 0 12) = some k → plotFor s.dev id (some k) (dPlot c.desc) = some p →
     earlierOn s.dev id c.sq s.dev.qm.nextCmd (dPlot c.desc) = true →
     ∃ t, exec (.plotDelete id) s = .next t ∧ tget t.dev.qm.cmds id = some { c with stage := .transfer, past := true } ∧ t.dev.maps = s.dev.maps ∧
       (∀ i x, s.dev.qm.nextCmd ≤ i → plotFor t.dev i x (dPlot c.desc) = none)) ∧
   (∀ s id c k p, AdminTurn s id 0x88 c → actingTenant s.dev c (fld (dArg c.desc 0) 0 12) = some k → plotFor s.dev id (some k) (dPlot c.desc) = some p →
     ∃ t, exec (.plotHints id) s = .next t ∧ Ended t id c .ok 0 0xFF ∧ tget t.dev.maps.plots (dPlot c.desc) = some { p with hints := dHints c.desc } ∧
       (∀ j, j ≠ dPlot c.desc → tget t.dev.maps.plots j = tget s.dev.maps.plots j) ∧
       t = { s with dev := { s.dev with qm := { s.dev.qm with cmds := t.dev.qm.cmds }, maps := { s.dev.maps with plots := t.dev.maps.plots }, jnl := t.dev.jnl } }))

/-- ACCORD_SET (R68, R70, R211, R212) and GRAFT_START (R287, R288): an admitted accord stands; a shortfall of die time or bandwidth refuses it, and the result names
the shortfalls; bit 31 removes it; until the command's completion is posted, the accord before it is noted for commands still fetched under it (R71); a graft the plot can take starts Copying and is recorded. -/
def Obligations.AccordAndGraftComplete : Prop :=
  (∀ s id c x, AdminTurn s id 0x89 c → tget s.dev.maps.tenants (fld (dArg c.desc 0) 0 12) = some x → bit (dArg c.desc 1) 31 = true →
    ∃ t, exec (.accordSet id) s = .next t ∧ Ended t id { c with accOld := some (fld (dArg c.desc 0) 0 12, x.accord) } .ok 0 0xFF ∧
      tget t.dev.maps.tenants (fld (dArg c.desc 0) 0 12) = some { x with accord := none }) ∧
  (∀ s id c x, AdminTurn s id 0x89 c → tget s.dev.maps.tenants (fld (dArg c.desc 0) 0 12) = some x → bit (dArg c.desc 1) 31 = false →
    (accordIn c).share ≤ 1000 → (accordIn c).bw ≤ 8300 → ((accordIn c).durable = true → hasQ s.dev = true) →
    (s.dev.maps.plots.any fun e => decide (e.2.tenant = fld (dArg c.desc 0) 0 12) && belowBound (accordIn c).lat e.2.profile) = false →
    ∃ t, exec (.accordSet id) s = .next t ∧
      (let trial := withAccord (fld (dArg c.desc 0) 0 12) (some (accordIn c)) s.dev
       let short := dieShort trial (loadOf trial)
       let bw := bwSum trial - hostGbps s.dev
       if short.1 ≠ 0 ∨ bw ≠ 0 ∨ ((accordIn c).durable = true ∧ (accordIn c).lat ≤ 6 ∧ bit (rd s.dev 0x30104) 8 = false) then
         Ended t id c .accordRefused (short.1 + 2 ^ 16 * short.2 + 2 ^ 32 * bw) 0xFF ∧ CmdFrame [id] s t
       else Ended t id { c with accOld := some (fld (dArg c.desc 0) 0 12, x.accord) } .ok 0 0xFF ∧
         tget t.dev.maps.tenants (fld (dArg c.desc 0) 0 12) = some { x with accord := some (accordIn c) })) ∧
  (∀ s id c k p f, AdminTurn s id 0x8D c → actingTenant s.dev c (fld (dArg c.desc 1) 0 12) = some k → plotFor s.dev id (some k) (dPlot c.desc) = some p →
    profileOf p.profile = some f → (bit (dArg c.desc 0) 0 = true → hasQ s.dev = true) →
    graftFault s.dev p (fld (dArg c.desc 0) 8 5) (fld (dArg c.desc 0) 16 2) (bit (dArg c.desc 0) 0) = false → thas s.dev.maps.grafts (dPlot c.desc) = false →
    p.region = false → plotValid s.dev (dPlot c.desc) ≤
      (freeRows s.dev p.profile (rowSize (bit (dArg c.desc 0) 0) (fld (dArg c.desc 0) 8 5)) - reserveRows s.dev p.profile) * (fld (dArg c.desc 0) 8 5 * f.bedBlocks) →
    ∃ t, exec (.graftStart id) s = .next t ∧ Ended t id c .ok 0 0xFF ∧
      tget t.dev.maps.grafts (dPlot c.desc) = some { st := 1, durable := bit (dArg c.desc 0) 0, k := fld (dArg c.desc 0) 8 5, mc := fld (dArg c.desc 0) 16 2, waitSpace := false } ∧
      t.dev.sil.inboxMain = s.dev.sil.inboxMain ++ [⟨.graftStart, [dPlot c.desc, b2n (bit (dArg c.desc 0) 0) + 2 ^ 8 * fld (dArg c.desc 0) 8 5 + 2 ^ 16 * fld (dArg c.desc 0) 16 2]⟩])

/-! ### Zones, reads and writes -/

/-- ZMGMT_OPEN (R48): an Implicitly Open zone becomes Explicitly Open; a Closed one opens where the open-zone grant has room; an Empty one opens with a row share
where the grants, the quota and a row share allow it. ZMGMT_CLOSE, ZMGMT_FINISH, ZMGMT_RESET (R48, R60) and ZMGMT_QUERY (R58): what each does to the zone; the query
answers state and write pointer and changes nothing. -/
def Obligations.ZoneManagementComplete : Prop :=
  (∀ s id c p, Outstanding s id 0x04 c → zact c.desc = 1 → mainUp s.dev = true → plotFor s.dev id (tenantOf s.dev c) (dPlot c.desc) = some p →
     p.region = false → dZone c.desc < p.count →
     ((zoneOf s.dev (dPlot c.desc) (dZone c.desc)).st = .iOpen →
       ∃ t, exec (.zmgmtOpen id) s = .next t ∧ Ended t id c .ok 0 0xFF ∧
         zoneOf t.dev (dPlot c.desc) (dZone c.desc) = { zoneOf s.dev (dPlot c.desc) (dZone c.desc) with st := .eOpen }) ∧
     ((zoneOf s.dev (dPlot c.desc) (dZone c.desc)).st = .closed → openFull s.dev p.tenant = false →
       ∃ t, exec (.zmgmtOpen id) s = .next t ∧ Ended t id c .ok 0 0xFF ∧
         zoneOf t.dev (dPlot c.desc) (dZone c.desc) = { zoneOf s.dev (dPlot c.desc) (dZone c.desc) with st := .eOpen } ∧
         (∀ j, j ≠ zkey (dPlot c.desc) (dZone c.desc) → tget t.dev.maps.zones j = tget s.dev.maps.zones j)) ∧
     (∀ row slot d, (zoneOf s.dev (dPlot c.desc) (dZone c.desc)).st = .empty → openFull s.dev p.tenant = false → activeFull s.dev p.tenant = false →
       quotaFull s.dev p.tenant p.cap = false → takeShare (shareWant s.dev (dPlot c.desc) p c.desc) s.dev = some (row, slot, d) →
       ∃ t, exec (.zmgmtOpen id) s = .next t ∧ Ended t id c .ok 0 0xFF ∧
         zoneOf t.dev (dPlot c.desc) (dZone c.desc) = { st := .eOpen, row := some row, slot := slot, wp := 0, written := 0, commit := s.dev.clo.nextPos, lost := false }) ∧
     ((zoneOf s.dev (dPlot c.desc) (dZone c.desc)).st = .empty → openFull s.dev p.tenant = false → activeFull s.dev p.tenant = true →
       ∃ t, exec (.zmgmtOpen id) s = .next t ∧ Ended t id c .tooManyActive 0 0xFF ∧ t.dev.maps = s.dev.maps)) ∧
  (∀ s id c p, Outstanding s id 0x04 c → mainUp s.dev = true → plotFor s.dev id (tenantOf s.dev c) (dPlot c.desc) = some p →
     p.region = false → dZone c.desc < p.count →
     (zact c.desc = 2 → (zoneOf s.dev (dPlot c.desc) (dZone c.desc)).st.isOpen = true → (∀ e ∈ s.dev.alm.jobs, e.2.cmd ≠ id) →
       ∃ t, exec (.zmgmtClose id) s = .next t ∧ Ended t id c .ok 0 0xFF ∧
         (0 < (zoneOf s.dev (dPlot c.desc) (dZone c.desc)).wp →
           zoneOf t.dev (dPlot c.desc) (dZone c.desc) = { zoneOf s.dev (dPlot c.desc) (dZone c.desc) with st := .closed }) ∧
         ((zoneOf s.dev (dPlot c.desc) (dZone c.desc)).wp = 0 → t.dev.maps.zones = tdel s.dev.maps.zones (zkey (dPlot c.desc) (dZone c.desc)))) ∧
     (zact c.desc = 3 → (zoneOf s.dev (dPlot c.desc) (dZone c.desc)).st.active = true → (∀ e ∈ s.dev.alm.jobs, e.2.cmd ≠ id) →
       LockOpen s (lockFor id p (dPlot c.desc) (dZone c.desc * p.span) ((dZone c.desc + 1) * p.span - 1) true) →
       ∃ t, exec (.zmgmtFinish id) s = .next t ∧ Ended t id { c with waitFrom := s.dev.io.now } .ok 0 0xFF ∧
         zoneOf t.dev (dPlot c.desc) (dZone c.desc) = { zoneOf s.dev (dPlot c.desc) (dZone c.desc) with st := .full, wp := p.cap } ∧
         (∀ j, j ≠ zkey (dPlot c.desc) (dZone c.desc) → tget t.dev.maps.zones j = tget s.dev.maps.zones j)) ∧
     (zact c.desc = 4 → (zoneOf s.dev (dPlot c.desc) (dZone c.desc)).st ≠ .empty → (∀ e ∈ s.dev.alm.jobs, e.2.cmd ≠ id) →
       LockOpen s (lockFor id p (dPlot c.desc) (dZone c.desc * p.span) ((dZone c.desc + 1) * p.span - 1) true) →
       ∃ t, exec (.zmgmtReset id) s = .next t ∧
         Ended t id { c with waitFrom := s.dev.io.now, held := tdel c.held (zkey (dPlot c.desc) (dZone c.desc)) } .ok 0 0xFF ∧
         t.dev.maps.zones = tdel s.dev.maps.zones (zkey (dPlot c.desc) (dZone c.desc))) ∧
     (zact c.desc = 5 →
       ∃ t, exec (.zmgmtQuery id) s = .next t ∧ CmdFrame [id] s t ∧
         Ended t id c .ok ((zoneOf s.dev (dPlot c.desc) (dZone c.desc)).wp + 2 ^ 32 * (zoneOf s.dev (dPlot c.desc) (dZone c.desc)).st.code) 0xFF))

/-- READ and CREAD (R56, R65, R26, R376) of one block on a PCIe ring that lies in the write buffer, or of a region block never written: the block's 4,096 bytes go to
DPTR, zeros for the unwritten region block, and the command ends with ST_OK; a buffered block that fails its guard ends it with ST_MEDIA_LOST. -/
def Obligations.ReadsOfBufferedAndUnwrittenBlocksComplete : Prop :=
  ∀ s id sg c p f, dNblk c.desc = 1 → dList c.desc = false → dHtag c.desc = false → dDptr c.desc % 64 = 0 → mainUp s.dev = true → c.discard = false →
    bindOf s.dev c = some (.fn f) → plotFor s.dev id (tenantOf s.dev c) (dPlot c.desc) = some p →
    (p.region = true → dLba c.desc < p.cap) → LockOpen s (lockFor id p (dPlot c.desc) (dLba c.desc) (dLba c.desc) false) →
    (∀ e ∈ s.dev.alm.jobs, e.2.cmd ≠ id) →
    (∀ x, source s.dev c.held (dPlot c.desc) p (dLba c.desc) = .buffer x →
      (Outstanding s id 0x01 c → ∃ t c', exec (.read id sg) s = .next t ∧ tget t.dev.qm.cmds id = some c' ∧ c'.stage = .done ∧ c'.field = 0xFF ∧
        (guardOk x (dPlot c.desc) (dLba c.desc) = true → gotOf x = .have x → c'.status = .ok ∧ .dma f (dDptr c.desc) 4096 (pData x).toNat ∈ t.dev.io.out) ∧
        (guardOk x (dPlot c.desc) (dLba c.desc) = false → c'.status = .mediaLost) ∧
        t.dev.maps.zones = s.dev.maps.zones ∧ t.dev.clo = s.dev.clo) ∧
      (Outstanding s id 0x06 c → p.region = true → ∃ t c', exec (.cread id sg) s = .next t ∧ tget t.dev.qm.cmds id = some c' ∧ c'.stage = .done ∧
        (guardOk x (dPlot c.desc) (dLba c.desc) = true → gotOf x = .have x → c'.status = .ok ∧ .dma f (dDptr c.desc) 4096 (pData x).toNat ∈ t.dev.io.out) ∧
        (guardOk x (dPlot c.desc) (dLba c.desc) = false → c'.status = .mediaLost) ∧ t.dev.clo = s.dev.clo)) ∧
    (source s.dev c.held (dPlot c.desc) p (dLba c.desc) = .zeros → p.region = true → Outstanding s id 0x06 c →
      ∃ t c', exec (.cread id sg) s = .next t ∧ tget t.dev.qm.cmds id = some c' ∧ c'.stage = .done ∧ c'.status = .ok ∧
        .dma f (dDptr c.desc) 4096 0 ∈ t.dev.io.out ∧ t.dev.clo = s.dev.clo)

/-- ZWRITE, ZAPPEND, CWRITE and COPY up to their transfer (R53, R54, R65, R88), on a PCIe ring without a scatter list or tags: the writes ask for their data at DPTR,
the CWRITE and the COPY under their range lock; the COPY asks for a buffer. RANGE_LOCK_GRANT (R113), BUFFER_GRANT (R115) and BUFFER_RETURN (R116): a waiting CWRITE
whose entry no earlier one conflicts with holds its range and asks for its data; the first waiting request that a pool can serve takes that pool's first buffer; a
returned buffer is free again, and a bad pointer is counted, recorded and kept out of use. -/
def Obligations.WritesAndGrantsComplete : Prop :=
  (∀ s id sg c p f, dList c.desc = false → dHtag c.desc = false → dDptr c.desc % 64 = 0 → mainUp s.dev = true → bindOf s.dev c = some (.fn f) →
     plotFor s.dev id (tenantOf s.dev c) (dPlot c.desc) = some p →
     (Outstanding s id 0x02 c → p.region = false → dLba c.desc / p.span < p.count →
       ∃ t c', exec (.zwrite id sg) s = .next t ∧ tget t.dev.qm.cmds id = some c' ∧ c'.stage = .transfer ∧
         t = { s with dev := { s.dev with qm := { s.dev.qm with cmds := t.dev.qm.cmds }
                                          io := { s.dev.io with out := s.dev.io.out ++ [.dmaRead f (dDptr c.desc) (4096 * dNblk c.desc)] } } }) ∧
     (Outstanding s id 0x03 c → p.region = false → dZone c.desc < p.count →
       ∃ t c', exec (.zappend id sg) s = .next t ∧ tget t.dev.qm.cmds id = some c' ∧ c'.stage = .transfer ∧
         t = { s with dev := { s.dev with qm := { s.dev.qm with cmds := t.dev.qm.cmds }
                                          io := { s.dev.io with out := s.dev.io.out ++ [.dmaRead f (dDptr c.desc) (4096 * dNblk c.desc)] } } }) ∧
     (Outstanding s id 0x05 c → p.region = true → dLba c.desc + dNblk c.desc ≤ p.cap →
       LockOpen s (lockFor id p (dPlot c.desc) (dLba c.desc) (dLba c.desc + dNblk c.desc - 1) true) →
       ∃ t c', exec (.cwrite id sg) s = .next t ∧ tget t.dev.qm.cmds id = some c' ∧ c'.stage = .transfer ∧ lockHeld t.dev.qm.locks id = true ∧
         t = { s with dev := { s.dev with qm := { s.dev.qm with cmds := t.dev.qm.cmds, locks := t.dev.qm.locks, lockHigh := t.dev.qm.lockHigh }
                                          io := { s.dev.io with out := s.dev.io.out ++ [.dmaRead f (dDptr c.desc) (4096 * dNblk c.desc)] } } }) ∧
     (∀ q, Outstanding s id 0x07 c → p.region = false → plotFor s.dev id (tenantOf s.dev c) (fld (dArg c.desc 0) 0 14) = some q → q.region = false →
       (∀ i < dNblk c.desc, ∃ x, source s.dev c.held (dPlot c.desc) p (dLba c.desc + i) = .buffer x) → dArg c.desc 1 < q.count →
       LockOpen s (lockFor id p (dPlot c.desc) (dLba c.desc) (dLba c.desc + dNblk c.desc - 1) false) →
       ∃ t c', exec (.copy id) s = .next t ∧ tget t.dev.qm.cmds id = some c' ∧ c'.stage = .spaceWait ∧ lockHeld t.dev.qm.locks id = true ∧
         t.dev.bpm.waiting = s.dev.bpm.waiting ++ [(poolFor (4096 * dNblk c.desc), .copy id)] ∧ t.dev.maps = s.dev.maps)) ∧
  ((∀ s id c p f, tget s.dev.qm.cmds id = some c → c.stage = .lockWait → dOpc c.desc = 0x05 → halting s.dev = false → lockFree s.dev.qm.locks id = true →
     plotFor s.dev id (tenantOf s.dev c) (dPlot c.desc) = some p → bindOf s.dev c = some (.fn f) → c.segs = [⟨dDptr c.desc, 4096 * dNblk c.desc, dRkey c.desc⟩] →
     dHtag c.desc = false →
     ∃ t c', exec (.rangeLockGrant id) s = .next t ∧ tget t.dev.qm.cmds id = some c' ∧ c'.stage = .transfer ∧ lockHeld t.dev.qm.locks id = true ∧
       c'.causes = c.causes ++ [(8, s.dev.io.now - c.waitFrom)] ∧
       t.dev.io.out = s.dev.io.out ++ [.dmaRead f (dDptr c.desc) (4096 * dNblk c.desc)] ∧ t.dev.maps = s.dev.maps) ∧
   (∀ s want id pool ptr, servable s.dev = some ((want, .copy id), pool, ptr) → tget s.dev.qm.cmds id = none →
     ∃ t, exec .bufferGrant s = .next t ∧
       t = { s with dev := { s.dev with bpm := { s.dev.bpm with pools := takeFrom want pool s.dev.bpm.pools, waiting := s.dev.bpm.waiting.erase (want, .copy id)
                                                                granted := s.dev.bpm.granted ++ [(.copy id, pool, ptr)] } } }) ∧
   (∀ s want id pool ptr c p, servable s.dev = some ((want, .copy id), pool, ptr) → tget s.dev.qm.cmds id = some c → dOpc c.desc = 0x07 →
     plotFor s.dev id (tenantOf s.dev c) (dPlot c.desc) = some p →
     ∃ t, exec .bufferGrant s = .next t ∧ t.dev.bpm.granted = s.dev.bpm.granted ++ [(.copy id, pool, ptr)] ∧
       t.dev.bpm.pools = takeFrom want pool s.dev.bpm.pools ∧ (∃ c', tget t.dev.qm.cmds id = some c' ∧ c'.waitFrom = s.dev.io.now)) ∧
   (∀ s pool ptr p, mainUp s.dev = true → s.dev.bpm.pools[pool]? = some p →
     ∃ t, exec (.bufferReturn pool ptr) s = .next t ∧
       (badReturn p ptr = none → t.dev.bpm.pools = s.dev.bpm.pools.set pool { p with free := p.free ++ [ptr] } ∧ t.dev.bpm.bad = s.dev.bpm.bad ∧
         t = { s with dev := { s.dev with bpm := t.dev.bpm } }) ∧
       (∀ k, badReturn p ptr = some k → t.dev.bpm.bad = satInc 16 s.dev.bpm.bad ∧ t.dev.bpm.badPool = pool ∧ t.dev.bpm.badKind = k ∧
         t.dev.bpm.pools = s.dev.bpm.pools.set pool { p with lost := p.lost + 1, free := p.free.filter fun x => decide (x ≠ ptr) } ∧
         t.dev.sil.inboxMain = s.dev.sil.inboxMain ++ [⟨.bpmBadReturn, [pool, k]⟩])))

/-- WRITE_COMMIT (R52, R53, R54): the blocks of a ZWRITE or ZAPPEND at the write pointer of an open zone stand at the end of the budget queue under their LBAs, the
write pointer moves on by their number, a zone that reaches its capacity is Full, and the command waits for its acknowledgement. A write that is not at the write
pointer, or goes beyond the capacity, places nothing. -/
def Obligations.WriteCommitMovesThePointer : Prop :=
  ∀ s id data tags c p row, tget s.dev.qm.cmds id = some c → mayCommit s.dev id c = true → (dOpc c.desc = 2 ∨ dOpc c.desc = 3) →
    plotFor s.dev id (tenantOf s.dev c) (dPlot c.desc) = some p → (∀ e ∈ s.dev.alm.jobs, e.2.cmd ≠ id) →
    let z := if dOpc c.desc = 2 then dLba c.desc / p.span else dZone c.desc
    let v := zoneOf s.dev (dPlot c.desc) z
    v.st.isOpen = true → v.row = some row →
    ((dOpc c.desc = 3 ∨ dLba c.desc % p.span = v.wp) → v.wp + dNblk c.desc ≤ p.cap →
      ∃ t c', exec (.writeCommit id data tags) s = .next t ∧
        zoneOf t.dev (dPlot c.desc) z = { v with
          st := if v.wp + dNblk c.desc = p.cap then .full else v.st
          wp := v.wp + dNblk c.desc, written := v.written + dNblk c.desc, commit := s.dev.clo.nextPos } ∧
        t.dev.clo.nextPos = s.dev.clo.nextPos + dNblk c.desc ∧
        (∀ i < dNblk c.desc, tget t.dev.clo.buf (s.dev.clo.nextPos + i) = some {
          plot := dPlot c.desc, lba := z * p.span + v.wp + i, spilled := false
          pay := blockPayload s.dev c data tags (dPlot c.desc) (z * p.span + v.wp + i) i }) ∧
        tget t.dev.qm.cmds id = some c' ∧ c'.stage = .committed ∧ c'.past = true ∧ c'.pos0 = s.dev.clo.nextPos ∧ c'.npos = dNblk c.desc ∧
        (dOpc c.desc = 3 → c'.result = BitVec.ofNat 64 (z * p.span + v.wp))) ∧
    (p.cap < (if dOpc c.desc = 2 then dLba c.desc % p.span else v.wp) + dNblk c.desc →
      ∃ t, exec (.writeCommit id data tags) s = .next t ∧ Ended t id c .zoneBoundary 0 0xFF ∧ t.dev.maps.zones = s.dev.maps.zones ∧ t.dev.clo = s.dev.clo) ∧
    (dOpc c.desc = 2 → dLba c.desc % p.span + dNblk c.desc ≤ p.cap → dLba c.desc % p.span ≠ v.wp →
      ∃ t, exec (.writeCommit id data tags) s = .next t ∧ Ended t id c .zoneInvalidWrite 0 0xFF ∧ t.dev.maps.zones = s.dev.maps.zones ∧ t.dev.clo = s.dev.clo)

/-- WRITE_ACKNOWLEDGE (R291, R306): the command at the head of the budget queue is acknowledged when its blocks are on media, or its dirty prefix lies within the
ceiling while the flush list is armed; else it waits and is marked. STRIPE_IDLE_SPILL (R270): a stripe that must be spilled begins to be written to a
rescue row, which is in use from then on; its blocks stay in the write buffer. -/
def Obligations.AcknowledgeAndSpillComplete : Prop :=
  (∀ s tm id c, mainUp s.dev = true → s.dev.kpr.pf = false → s.dev.kpr.flush = none → ackHead s.dev = some (id, c) → tget s.dev.qm.cmds id = some c →
    ∃ t c', exec (.writeAcknowledge tm) s = .next t ∧ tget t.dev.qm.cmds id = some c' ∧
      (mayAck s.dev c = true → c'.stage = .done ∧ c'.status = .ok ∧ c'.result = c.result ∧ t.dev.clo.ackPos = c.pos0 + c.npos) ∧
      (mayAck s.dev c = false → c' = { c with dp := 1 } ∧ t.dev.clo = s.dev.clo) ∧
      (∀ j, j ≠ id → tget t.dev.qm.cmds j = tget s.dev.qm.cmds j) ∧ t.dev.maps = s.dev.maps ∧ t.dev.clo.buf = s.dev.clo.buf) ∧
  (∀ s key tm x row, mainUp s.dev = true → tget s.dev.med.stripes key = some x → x.spilled = false → x.spilling = false → x.fill = false →
    spillDue (tick tm s.dev) key x = true → maySpill s.dev = true → rescueFor s.dev (spillBlocks s.dev key x).length = some row →
    ∃ t, exec (.stripeIdleSpill key tm) s = .next t ∧ tget t.dev.med.stripes key = some { x with spilling := true } ∧ row ∈ t.dev.jnl.used ∧
      (∀ i b, tget s.dev.clo.buf i = some b → ∃ b', tget t.dev.clo.buf i = some b' ∧ b' = { b with at_ := b'.at_ }))

/-! ### Media and the Almanac -/

/-- TELEMETRY_PERIOD (R118, R119) and ACCORD_MISS_SECOND (R217): the owner's ring gets the device slot with its phase, the sequence counts on and the figures start
again; each tenant that missed targets has one record, and its misses start again. ALMANAC_PERIOD (R192, R186), ALMANAC_SLOT (R192, R201), BLOCKED_TIME_EXPIRY
(R198): the busy times of the period become those of the last one; at a slot boundary it is settled on which dies the slot is for background work; a die's blocked
time ends. -/
def Obligations.PeriodReportsAndAlmanacComplete : Prop :=
  ((∀ s tm cq r f, serving s.dev = true → s.dev.qm.telemDue + 1000000 * telemPeriod s.dev ≤ tm → inS2 s.dev = false →
     (s.dev.qm.cqs.filter fun e => e.2.telem) = [(cq, r)] → tget s.dev.qm.cqs cq = some r → r.tenant = none → r.bind = .fn f → r.halted = false → busMaster s.dev f = true →
     1 + (s.dev.alm.stats.filter fun e => decide (e.2.ended ≠ 0)).length ≤ cqFree r →
     ∃ t, exec (.telemetryPeriod tm) s = .next t ∧ t.dev.qm.telemSeq = s.dev.qm.telemSeq + 1 ∧ t.dev.qm.telemDue = tm ∧ t.dev.qm.telemDrop = s.dev.qm.telemDrop ∧
       .dma f (r.base + 1024 * r.widx) 1024 (deviceSlot (tick tm s.dev) s.dev.qm.telemSeq (s.dev.alm.stats.filter fun e => decide (e.2.ended ≠ 0)).length
         + 256 ^ 1023 * b2n r.phase) ∈ t.dev.io.out ∧
       (∀ e ∈ t.dev.alm.stats, e.2.ended = 0 ∧ e.2.reads = 0 ∧ e.2.writes = 0)) ∧
   (∀ s tm cq r, serving s.dev = true → s.dev.qm.telemDue + 1000000 * telemPeriod s.dev ≤ tm → inS2 s.dev = false →
     (s.dev.qm.cqs.filter fun e => e.2.telem) = [(cq, r)] → tget s.dev.qm.cqs cq = some r → r.tenant = none → r.halted = false → mayIssue s.dev r.bind = true →
     cqFree r < 1 + (s.dev.alm.stats.filter fun e => decide (e.2.ended ≠ 0)).length →
     ∃ t, exec (.telemetryPeriod tm) s = .next t ∧ t.dev.qm.telemDrop = satInc 32 s.dev.qm.telemDrop ∧ t.dev.qm.telemSeq = s.dev.qm.telemSeq + 1 ∧
       t.dev.io.out = s.dev.io.out ∧ t.dev.qm.cqs = s.dev.qm.cqs) ∧
   (∀ s tm, mainUp s.dev = true → s.dev.clo.ready = true → s.dev.alm.missDue ≤ tm →
     ∃ t, exec (.accordMissSecond tm) s = .next t ∧ t.dev.alm.missDue = tm + 1000000000 ∧ (∀ e ∈ t.dev.alm.stats, e.2.misses = []) ∧
       t.dev.sil.inboxMain = s.dev.sil.inboxMain ++ (s.dev.alm.stats.filter fun e => decide (e.2.misses ≠ [])).map
         fun e => ⟨.accordMiss, e.1 :: sumL (e.2.misses.map (·.2)) :: topReasons e.2.misses⟩)) ∧
  ((∀ s tm, mainUp s.dev = true → s.dev.alm.periodAt + 2000000 ≤ tm →
     ∃ t, exec (.almanacPeriod tm) s = .next t ∧
       t.dev = { tick tm s.dev with alm := { s.dev.alm with
         periodAt := tm / 2000000 * 2000000, rbUsed := []
         dies := tmap s.dev.alm.dies fun _ x => { x with busyLast := x.busy, busy := 0, used := [] } } }) ∧
   (∀ s tm, mainUp s.dev = true → s.dev.alm.slotAt + 250000 ≤ tm →
     ∃ t, exec (.almanacSlot tm) s = .next t ∧ t.dev.alm.slotAt = tm / 250000 * 250000 ∧
       t.dev.alm.slotBg = (s.dev.alm.dies.map (·.1)).filter fun die => slotIsBg (tick tm s.dev) (tm / 250000 * 250000 / 250000 % 8) die) ∧
   (∀ s die tm x, mainUp s.dev = true → tget s.dev.alm.dies die = some x → x.blockedUntil ≠ 0 → x.blockedUntil ≤ tm →
     (∀ e ∈ s.dev.alm.ops, e.2.die ≠ die ∧ e.2.kind ≠ .readPage) → (∀ e ∈ s.dev.alm.bsets, e.2.contains die = false) →
     ∃ t, exec (.blockedTimeExpiry die tm) s = .next t ∧ tget t.dev.alm.dies die = some { x with blockedUntil := 0 } ∧
       (∀ j, j ≠ die → tget t.dev.alm.dies j = tget s.dev.alm.dies j) ∧ blockedNow t.dev die = false ∧ t.dev.alm.ops = s.dev.alm.ops))

/-- LDPC_DECODE_DONE (R389-R391, R376) and SOFT_BUFFER_GRANT (R392): a decoded codeword whose block passes its guard gives the block to the command, a one-block READ
then ends; every codeword counts; a failed one is read again with offsets while retries remain, and counts as a hard failure; the first waiting soft decode takes a
free soft buffer. -/
def Obligations.DecodeEndsComplete : Prop :=
  (∀ s job bits tm j r c, mainUp s.dev = true → tget s.dev.alm.jobs job = some j → rowAt s.dev j.row = some r → j.parent = none → j.st = .decoding →
    tget s.dev.qm.cmds j.cmd = some c → c.stage = .reading → dOpc c.desc = 0x01 → c.got = [.pending] → j.idx = 0 → c.status = .ok → connOf s.dev c = none →
    ∃ t c', exec (.ldpcDecodeDone job (.decoded bits true) tm) s = .next t ∧ t.dev.ecc.cw = s.dev.ecc.cw + 1 ∧ tget t.dev.qm.cmds j.cmd = some c' ∧
      c'.ew = (c.ew || decide ((theProfile r.profile).ew < min bits 1023)) ∧
      (guardOk (jobPayload s.dev j r) j.plot j.lba = true → gotOf (jobPayload s.dev j r) = .have (jobPayload s.dev j r) → c'.stage = .done ∧ c'.status = .ok) ∧
      (guardOk (jobPayload s.dev j r) j.plot j.lba = false → t.dev.ecc.guardR = satInc 16 s.dev.ecc.guardR)) ∧
  (∀ s job tm j r c, mainUp s.dev = true → tget s.dev.alm.jobs job = some j → rowAt s.dev j.row = some r → j.parent = none → j.st = .decoding →
    tget s.dev.qm.cmds j.cmd = some c → c.lat = 7 → j.retries < softRetries s.dev → s.dev.ecc.softWait = [] →
    ∃ t, exec (.ldpcDecodeDone job .failed tm) s = .next t ∧ t.dev.ecc.cw = s.dev.ecc.cw + 1 ∧ t.dev.ecc.hardFail = satInc 32 s.dev.ecc.hardFail ∧
      tget t.dev.alm.jobs job = some { j with st := .retrying, retries := j.retries + 1, senses := 0 } ∧
      ∃ c', tget t.dev.qm.cmds j.cmd = some c' ∧ c' = { c with dp := c'.dp }) ∧
  (∀ s cluster i j k, mainUp s.dev = true → tgetD s.dev.ecc.softUse cluster 0 < 8 → s.dev.ecc.softWait = [i] → tget s.dev.alm.jobs i = some j → j.parent = none →
    freeSoft s.dev (jobCluster s.dev j) = some k →
    ∃ t, exec (.softBufferGrant cluster) s = .next t ∧ t.dev.ecc.softWait = [] ∧ tgetD t.dev.ecc.softUse k 0 = tgetD s.dev.ecc.softUse k 0 + 1 ∧
      tget t.dev.alm.jobs i = some { j with st := .soft, cluster := k, senses := 0 })

/-- WEED_SWITCH (R246) and GRAFT_ZONE_SWITCH (R289): when the copy is on flash, the zone lies in its destination slot with its write pointer kept; a graft's
copy of a zone that changed since it began is discarded and the zone stays. -/
def Obligations.ZoneMovesSwitch : Prop :=
  (∀ s bad tm row k c p z, mainUp s.dev = true → s.dev.med.weedRow = some row → (tfind s.dev.med.copies fun k c => decide (c.src = row) && copied s.dev k c) = some (k, c) →
    tget s.dev.maps.plots c.plot = some p → p.region = false → tget s.dev.maps.zones (zkey c.plot c.zone) = some z →
    ∃ t z', exec (.weedSwitch bad tm) s = .next t ∧ tget t.dev.maps.zones (zkey c.plot c.zone) = some z' ∧ z'.row = some c.dst ∧ z'.slot = c.slot ∧ z'.wp = z.wp ∧
      t.dev.med.weedBlk = s.dev.med.weedBlk + validOf z p) ∧
  (∀ s plot zone bad tm c p z, mainUp s.dev = true → tget s.dev.med.copies (zkey plot zone) = some c → c.plot = plot → c.zone = zone → zone < 2 ^ 31 →
    s.dev.med.weedRow ≠ some c.src → copied s.dev (zkey plot zone) c = true → tget s.dev.maps.plots plot = some p → p.region = false →
    tget s.dev.maps.zones (zkey plot zone) = some z →
    ∃ t z', exec (.graftZoneSwitch plot zone bad tm) s = .next t ∧ tget t.dev.maps.zones (zkey plot zone) = some z' ∧ z'.wp = z.wp ∧
      (z.wp = c.wp → z.st = c.st → z'.row = some c.dst ∧ z'.slot = c.slot) ∧
      (z.wp ≠ c.wp ∨ z.st ≠ c.st → z' = z ∧ t.dev.clo = s.dev.clo))

/-- TRANSPLANT_SWITCH (R252) and REBUILD_REPLACE (R279): once its pages are programmed, the fresh bed stands in the row's position and the old one waits for its reads; counts go up.
ROW_READS_DRAINED (R242): an old row that no read holds any more leaves the row table by a journal record, and its beds are Released. PATROL_STRIPE (R284, R286) and
MED_HOUR_TICK (R251): a stripe whose pages are read and in which the
checks find nothing takes the pass on to the next stripe, and after a row's last stripe to the next row; each hour the effective-hour counter of a link group
without reports grows by 128 sixteenths, and the hour's means start again. -/
def Obligations.BedsRowsAndPatrolComplete : Prop :=
  ((∀ s row pos bad tm x r, mainUp s.dev = true → tget s.dev.med.xpls (pkey row pos) = some x → rowAt s.dev row = some r → pos < r.n → pos < r.pos.length →
     x.running = true → x.writing = true → readyToWrite s.dev (.xpl (pkey row pos)) x.die x.bed = true → (bedOf s.dev (r.dieBed pos).1 (r.dieBed pos).2).st ≠ .suspect →
     ∃ t r', exec (.transplantSwitch row pos bad tm) s = .next t ∧ rowAt t.dev row = some r' ∧ r'.dieBed pos = (x.die, x.bed) ∧
       (∀ i, i ≠ pos → r'.dieBed i = r.dieBed i) ∧
       t.dev.med.old = s.dev.med.old ++ [{ row := row, die := (r.dieBed pos).1, bed := (r.dieBed pos).2, next := .released, cause := 1 }]) ∧
   (∀ s row pos bad tm b r, mainUp s.dev = true → tget s.dev.med.rebuilds (pkey row pos) = some b → rowAt s.dev row = some r → pos < r.n → pos < r.pos.length →
     b.running = true → b.writing = true → readyToWrite s.dev (.rebuild (pkey row pos)) b.die b.bed = true →
     ∃ t r', exec (.rebuildReplace row pos bad tm) s = .next t ∧ rowAt t.dev row = some r' ∧ r'.dieBed pos = (b.die, b.bed) ∧
       (∀ i, i ≠ pos → r'.dieBed i = r.dieBed i) ∧ t.dev.med.rebuilt = satInc 32 s.dev.med.rebuilt)) ∧
  (∀ s row tm r, mainUp s.dev = true → readsHold s.dev row = false → s.dev.med.oldRows.contains row = true → rowAt s.dev row = some r → s.dev.med.old = [] →
     s.dev.med.rebuilds = [] → (∀ p ∈ r.pos, dieFailed s.dev p.1 = false ∧ (bedOf s.dev p.1 p.2).st ≠ .retired ∧ (bedOf s.dev p.1 p.2).st ≠ .suspect) →
     ∃ t, exec (.rowReadsDrained row tm) s = .next t ∧ t.dev.med.oldRows.contains row = false ∧ (∃ n, (n, JRec.row row none) ∈ t.dev.jnl.tail) ∧
       (∀ p ∈ r.pos, (bedOf t.dev p.1 p.2).st = .released)) ∧
  ((∀ s row stripe bits tm r, rowAt (patrolPeriod tm (tick tm s.dev)) row = some r → mainUp s.dev = true → patrolOn s.dev = true → s.dev.clo.ready = true →
     patrolNext (patrolPeriod tm (tick tm s.dev)) = some row → (patrolPeriod tm (tick tm s.dev)).med.patrolRow = row →
     (patrolPeriod tm (tick tm s.dev)).med.patrolFrom = stripe → (patrolPeriod tm (tick tm s.dev)).med.patrolRead = true →
     owed (patrolPeriod tm (tick tm s.dev)) (.patrol row) = 0 → (∀ o ∈ s.dev.alm.ops, o.2.kind ≠ .readPage) →
     ∃ t, exec (.patrolStripe row stripe bits [] [] [] tm) s = .next t ∧
       (stripe + 1 ≠ (theProfile r.profile).pages → t.dev.med.patrolFrom = stripe + 1) ∧
       (stripe + 1 = (theProfile r.profile).pages → t.dev.med.patrolFrom = 0 ∧ t.dev.med.patrolRow = row + 1 ∧ row ∈ t.dev.med.patrolDone ∧ t.dev.med.patAcc = [])) ∧
   (∀ s tm, mainUp s.dev = true → s.dev.med.hourDue + 3600000000000 ≤ tm →
     ∃ t, exec (.medHourTick tm) s = .next t ∧ t.dev.med.hourDue = tm / 3600000000000 * 3600000000000 ∧
       (∀ g < linkGroups s.dev, hottest s.dev g = none → effHour t.dev g = effHour s.dev g + 128) ∧
       t.dev.hl = { s.dev.hl with links := tmap s.dev.hl.links fun _ k => { k with tempSum := 0, tempN := 0 } }))

/-! ### Herarn links -/

/-- HL_FRAME_RECEIVE (R331-R334, R341, R343): blocks that the line's scrambler turns into a frame. A good frame with the expected SEQ is accepted and acknowledged; one with a bad FCRC is
counted and changes nothing else of the link but the scramblers, the count of blocks sent and the time of the last NAK. -/
def Obligations.HerarnFrameReceived : Prop :=
  ∀ s link b1 b2 b3 (fs : List Byte) (chunks : List (List Byte)) (fin : List Byte) tm, LinkIn s link lsActive → LineReads s link (b1 ++ b2 ++ b3) (.ctl fs :: chunks.map .data ++ [.ctl fin]) → fsOk fs = true → leAt fin 0 1 = 0x2D →
    (∀ x ∈ chunks, x.length = 16) → 16 * chunks.length = fsLen fs →
    (crc32c (fs ++ chunks.flatten ++ slice fin 0 12) = leAt fin 12 4 → fsSeq fs = (seqAt s.dev link).rxSeq →
      ∃ t, exec (.hlFrameReceive link b1 b2 b3 tm) s = .next t ∧ (seqAt t.dev link).rxSeq = (fsSeq fs + 1) % 65536 ∧
        (seqAt t.dev link).inbox = (seqAt s.dev link).inbox ++ [{ kind := fsKind fs, target := fsTarget fs, seq := fsSeq fs, len := fsLen fs, otag := leAt fs 6 1, offset := leAt fs 8 4, pay := chunks.flatten }] ∧
        .lctl link 0 (fsSeq fs) ∈ t.dev.io.out ∧
        t = { s with dev := { s.dev with hl := t.dev.hl, io := { s.dev.io with now := t.dev.io.now, stood := t.dev.io.stood, out := t.dev.io.out, line := t.dev.io.line }, pwr := { s.dev.pwr with activeAt := t.dev.pwr.activeAt } } }) ∧
    (crc32c (fs ++ chunks.flatten ++ slice fin 0 12) ≠ leAt fin 12 4 →
      ∃ t, exec (.hlFrameReceive link b1 b2 b3 tm) s = .next t ∧ (linkAt t.dev link).errCrc = satInc 16 (linkAt s.dev link).errCrc ∧
        (let q := seqAt t.dev link
         q = { seqAt s.dev link with nakAt := q.nakAt, rxScr := q.rxScr, txScr := q.txScr, txBlks := q.txBlks, txDraw := q.txDraw }) ∧
        t = { s with dev := { s.dev with hl := t.dev.hl, io := { s.dev.io with now := t.dev.io.now, stood := t.dev.io.stood, out := t.dev.io.out, line := t.dev.io.line }, pwr := { s.dev.pwr with activeAt := t.dev.pwr.activeAt } } })

/-- HL_DIN_FRAME (R363), HL_RSP_FRAME (R360, R364, R371, R254), HL_ALERT (R364): data counts against its operation; a good answer to a read sends its codeword to
decode; a good answer to an erase leaves the bed Erased with one more cycle; an alert is recorded and its temperature kept. -/
def Obligations.HerarnAnswersTakenUp : Prop :=
  (∀ s link tm f rest o, (seqAt s.dev link).inbox = f :: rest → f.kind = kDin → tget (seqAt s.dev link).ops f.otag = some o →
    ∃ t o', exec (.hlDinFrame link tm) s = .next t ∧ (seqAt t.dev link).inbox = rest ∧ tget (seqAt t.dev link).ops f.otag = some o' ∧ o'.din = o.din + f.len ∧
      o'.data = (if o.opc = opGeometry ∨ o.opc = opBadmap then o.data ++ f.pay else o.data) ∧
      t = { s with dev := { s.dev with hl := t.dev.hl, io := { s.dev.io with now := t.dev.io.now, stood := t.dev.io.stood }, pwr := { s.dev.pwr with activeAt := t.dev.pwr.activeAt } } }) ∧
  (∀ s link tm f rest o i x jn j, (seqAt s.dev link).inbox = f :: rest → f.kind = kRsp → f.otag ≠ 0xFF → tget (seqAt s.dev link).ops f.otag = some o →
    o.opc = opRead → o.op = some i → leAt f.pay 1 1 = 0 → tget s.dev.alm.ops i = some x → x.kind = .readPage → x.jobs = [jn] →
    tget s.dev.alm.jobs jn = some j → j.st = .sensing → s.dev.pwr.parking = [] → (∀ e ∈ s.dev.alm.ops, e.1 ≠ i → e.2.kind ≠ .readPage) →
    ∃ t, exec (.hlRspFrame link tm) s = .next t ∧ tget t.dev.alm.jobs jn = some { j with st := .decoding } ∧ (linkAt t.dev link).temp = leAt f.pay 3 1 ∧
      (x.ahead < 2 → (stripeAt s.dev x.row x.stripe).spilled = false → (∀ r, rowAt s.dev x.row = some r → r.kind ≠ 2) → x.crowded = false → x.replays ≤ 3 →
        x.retrains < 2 → t.dev.qm = s.dev.qm)) ∧
  (∀ s link tm f rest o i x, (seqAt s.dev link).inbox = f :: rest → f.kind = kRsp → f.otag ≠ 0xFF → tget (seqAt s.dev link).ops f.otag = some o →
    o.opc = opErase → o.op = some i → leAt f.pay 1 1 = 0 → tget s.dev.alm.ops i = some x → x.kind = .erase → s.dev.med.toErase.contains (x.die, x.bed) = false →
    ∃ t, exec (.hlRspFrame link tm) s = .next t ∧ (bedOf t.dev x.die x.bed).st = .erased ∧ (bedOf t.dev x.die x.bed).pe = satInc 16 (bedOf s.dev x.die x.bed).pe ∧
      (bedOf t.dev x.die x.bed).skips = []) ∧
  (∀ s link tm f rest, (seqAt s.dev link).inbox = f :: rest → f.kind = kRsp → f.otag = 0xFF →
    ∃ t, exec (.hlAlert link tm) s = .next t ∧ t.dev.sil.inboxMain = s.dev.sil.inboxMain ++ [⟨.bridgeAlert, [link, leAt f.pay 3 1]⟩] ∧
      (linkAt t.dev link).temp = leAt f.pay 3 1 ∧ (seqAt t.dev link).inbox = rest)

/-- HL_LCTL_ACK (R342), HL_LCTL_NAK (R345), HL_REPLAY_TIMER (R346): acknowledged frames leave the replay buffer; the others are sent again in order, and the replay
is counted. HL_P1_IDLE_TIMER, HL_PARK_ACK, HL_PARK_NAK (R356), HL_BRIDGE_WAKE (R358): an idle link asks to park, with a PARK block on its line (R339); the ACK puts it in P1, the NAK keeps it Active; a
wake takes a parked link out by a retrain. -/
def Obligations.HerarnAcknowledgeReplayAndParking : Prop :=
  ((∀ s link blocks blk tm, LinkIn s link lsActive → LctlReads s link blocks blk 0 → (seqAt s.dev link).queue = [] →
     ∃ t, exec (.hlLctlAck link blocks tm) s = .next t ∧
       (seqAt t.dev link).unacked = (seqAt s.dev link).unacked.filter (fun f => !seqLe f.seq (leAt blk 2 2)) ∧ t.dev.io.out = s.dev.io.out ∧
       t = { s with dev := { s.dev with hl := t.dev.hl, io := { s.dev.io with now := t.dev.io.now, stood := t.dev.io.stood }, pwr := { s.dev.pwr with activeAt := t.dev.pwr.activeAt } } }) ∧
   (∀ s link blocks blk tm, LinkIn s link lsActive → LctlReads s link blocks blk 1 → (seqAt s.dev link).queue = [] → (seqAt s.dev link).sameReplay < 3 →
     (seqAt s.dev link).retrainAt.length ≤ cfgRtmax s.dev → ((seqAt s.dev link).unacked.filter fun f => !seqLe f.seq (leAt blk 2 2)) ≠ [] →
     ∃ t, exec (.hlLctlNak link blocks tm) s = .next t ∧
       t.dev.io.out = s.dev.io.out ++ ((seqAt s.dev link).unacked.filter fun f => !seqLe f.seq (leAt blk 2 2)).map (frameOut link) ∧
       (linkAt t.dev link).replays = satInc 16 (linkAt s.dev link).replays ∧
       t.dev.alm = (onReads link (fun o => { o with replays := o.replays + 1 }) s.dev).alm) ∧
   (∀ s link tm, LinkIn s link lsActive → (seqAt s.dev link).unacked ≠ [] → (seqAt s.dev link).replayFrom + 2000 ≤ tm → (seqAt s.dev link).sameReplay < 3 →
     (seqAt s.dev link).retrainAt.length ≤ cfgRtmax s.dev →
     ∃ t, exec (.hlReplayTimer link tm) s = .next t ∧ t.dev.io.out = s.dev.io.out ++ (seqAt s.dev link).unacked.map (frameOut link) ∧
       (linkAt t.dev link).replays = satInc 16 (linkAt s.dev link).replays ∧ (seqAt t.dev link).unacked = (seqAt s.dev link).unacked) ∧
   (∀ s link tm, LinkIn s link lsActive → (seqAt s.dev link).unacked ≠ [] → (seqAt s.dev link).replayFrom + 2000 ≤ tm → 3 ≤ (seqAt s.dev link).sameReplay →
     ((seqAt s.dev link).retrainAt.filter fun x => decide (tm < x + 1000000000)).length < cfgRtmax s.dev →
     ∃ t, exec (.hlReplayTimer link tm) s = .next t ∧ (linkAt t.dev link).st = lsRetrain ∧ t.dev.io.out = s.dev.io.out ++ [.linkAct link 1])) ∧
  ((∀ s link tm, LinkIn s link lsActive → mayPark s.dev link tm = true →
     ∃ t, exec (.hlP1IdleTimer link tm) s = .next t ∧ (seqAt t.dev link).parking = true ∧
       t.dev.io.out = s.dev.io.out ++ [.lctl link 2 (((seqAt s.dev link).rxSeq + 65535) % 65536)] ∧ (linkAt t.dev link) = (linkAt s.dev link) ∧
       t.dev.io.line = s.dev.io.line ++ (lineOut link { seqAt s.dev link with parking := true } (lctlBlks { seqAt s.dev link with parking := true } 2)).1.map fun b => (link, b)) ∧
   (∀ s link blocks blk tm, LinkIn s link lsActive → LctlReads s link blocks blk 3 → (seqAt s.dev link).parking = true → (seqAt s.dev link).queue = [] →
     ∃ t, exec (.hlParkAck link blocks tm) s = .next t ∧ linkAt t.dev link = { linkAt s.dev link with st := lsP1 } ∧ (seqAt t.dev link).parking = false) ∧
   (∀ s link blocks blk tm, LinkIn s link lsActive → LctlReads s link blocks blk 4 →
     ∃ t, exec (.hlParkNak link blocks tm) s = .next t ∧ linkAt t.dev link = linkAt s.dev link ∧ (seqAt t.dev link).parking = false) ∧
   (∀ s link tm st, (st = lsP1 ∨ st = lsP2) → LinkIn s link st → parkRun s.dev (.lg (link / 8)) = none →
     ∃ t, exec (.hlBridgeWake link tm) s = .next t ∧ linkAt t.dev link = { linkAt s.dev link with st := lsRetrain } ∧ (seqAt t.dev link).waking = true ∧
       t.dev.io.out = s.dev.io.out ++ [.linkAct link 0]))

/-- HL_LOCK_LOSS (R335, R349), HL_RETRAIN_DONE, HL_RETRAIN_TIMEOUT, HL_TRAINING_DONE, HL_TRAINING_TIMEOUT (R350, R352), HL_RETRY_TIMER (R369), and the three bits of
HL_LCTRL (R525): how a link goes from state to state, its descrambler at the seed when it is Active again (R332). HL_OP_TIMEOUT, HL_RESET_TIMEOUT, LINK_GROUP_PLL_FAIL (R368): an operation past its limit resets its target; a
RESET unanswered for 10 ms fails the die; a link group's PLL fault fails its eight links. -/
def Obligations.HerarnTrainingAndFailures : Prop :=
  ((∀ s link tm, LinkIn s link lsActive → ((seqAt s.dev link).retrainAt.filter fun x => decide (tm < x + 1000000000)).length < cfgRtmax s.dev →
     ∃ t, exec (.hlLockLoss link tm) s = .next t ∧ linkAt t.dev link = { linkAt s.dev link with
         st := lsRetrain, locked := false, lockLosses := satInc 8 (linkAt s.dev link).lockLosses, retrains := satInc 8 (linkAt s.dev link).retrains } ∧
       t.dev.io.out = s.dev.io.out ++ [.linkAct link 1] ∧ (seqAt t.dev link).unacked = (seqAt s.dev link).unacked) ∧
   (∀ s link tm, LinkIn s link lsRetrain →
     ∃ t, exec (.hlRetrainDone link tm) s = .next t ∧ (linkAt t.dev link).st = lsActive ∧ (linkAt t.dev link).locked = true ∧ (seqAt t.dev link).rxScr = scrSeed ∧
       (∀ f ∈ (seqAt s.dev link).unacked, frameOut link f ∈ t.dev.io.out)) ∧
   (∀ s link tm, LinkIn s link lsRetrain → (seqAt s.dev link).phaseAt + 40000 + (seqAt s.dev link).pll ≤ tm →
     ∃ t, exec (.hlRetrainTimeout link tm) s = .next t ∧ (linkAt t.dev link).st = lsTraining ∧ t.dev.io.out = s.dev.io.out ++ [.linkAct link 2]) ∧
   (∀ s link txPre brPre eye credit tm, LinkIn s link lsTraining →
     ∃ t o, exec (.hlTrainingDone link txPre brPre eye credit tm) s = .next t ∧ (linkAt t.dev link).st = lsActive ∧ (linkAt t.dev link).txPre = txPre % 8 ∧
       (linkAt t.dev link).eye = eye % 256 ∧ (seqAt t.dev link).rxSeq = 0 ∧ (seqAt t.dev link).rxScr = scrSeed ∧ (seqAt t.dev link).doutLimit = credit % 65536 ∧
       tget (seqAt t.dev link).ops 0 = some o ∧ o.opc = opGeometry) ∧
   (∀ s link tm, LinkIn s link lsTraining → (seqAt s.dev link).phaseAt + 2000000 ≤ tm →
     ∃ t, exec (.hlTrainingTimeout link tm) s = .next t ∧
       ((seqAt s.dev link).attempts < 2 → (linkAt t.dev link).st = lsTraining ∧ (seqAt t.dev link).attempts = (seqAt s.dev link).attempts + 1) ∧
       (2 ≤ (seqAt s.dev link).attempts → (linkAt t.dev link).st = lsFailed)) ∧
   (∀ s link tm, LinkIn s link lsFailed → (seqAt s.dev link).retryAt ≤ tm →
     ∃ t, exec (.hlRetryTimer link tm) s = .next t ∧ (linkAt t.dev link).st = lsTraining) ∧
   (∀ s path link tm st, LinkIn s link st → reachable s.dev path (0x50004 + 0x40 * link) = true →
     (st = lsActive → ((seqAt s.dev link).retrainAt.filter fun x => decide (tm < x + 1000000000)).length < cfgRtmax s.dev →
       ∃ t, exec (.hlLctrlRetrain path link tm) s = .next t ∧ (linkAt t.dev link).st = lsRetrain) ∧
     (st = lsActive → ∃ t, exec (.hlLctrlFull path link tm) s = .next t ∧ (linkAt t.dev link).st = lsTraining) ∧
     (st = lsFailed → ∃ t, exec (.hlLctrlReturn path link tm) s = .next t ∧ (linkAt t.dev link).st = lsTraining))) ∧
  ((∀ s link otag tm o x, tget (seqAt s.dev link).ops otag = some o → o.opc ≠ opReset → opLimit s.dev (8 * link + o.target) < opTime o tm →
     tget s.dev.alm.dies (8 * link + o.target) = some x → (x.timeouts.filter fun y => decide (tm < y + 600000000000)).length < 2 →
     ∃ t k o', exec (.hlOpTimeout link otag tm) s = .next t ∧ (linkAt t.dev link).timeouts = satInc 8 (linkAt s.dev link).timeouts ∧
       tget (seqAt t.dev link).ops k = some o' ∧ o'.opc = opReset ∧ o'.target = o.target ∧
       (∃ x', tget t.dev.alm.dies (8 * link + o.target) = some x' ∧ x'.resetting = some k)) ∧
   (∀ s link otag tm o, tget (seqAt s.dev link).ops otag = some o → o.opc = opReset → o.sentAt + 10000000 ≤ tm → tgetD s.dev.maps.dieSvc (8 * link + o.target) 0 ≠ 1 →
     ∃ t n, exec (.hlResetTimeout link otag tm) s = .next t ∧ tgetD t.dev.maps.dieSvc (8 * link + o.target) 0 = 1 ∧
       ⟨.memberFailed, [0, 8 * link + o.target, n]⟩ ∈ t.dev.sil.inboxMain) ∧
   (∀ s lg tm, lg < linkGroups s.dev → mainUp s.dev = true → s.dev.med.failedLg.contains lg = false →
     ∃ t n, exec (.linkGroupPllFail lg tm) s = .next t ∧ t.dev.med.failedLg.contains lg = true ∧ (∀ i < 8, (linkAt t.dev (8 * lg + i)).st = lsFailed) ∧
       ⟨.memberFailed, [2, lg, n]⟩ ∈ t.dev.sil.inboxMain))

/-! ### Smiast -/

/-- SMT_BELL (R139, R143), SMT_CLOSE_RX (R129): the next data-space packet in order is applied at once: a completion head or a submission tail of a ring bound to the
connection, or the start of closing; the receiving side moves on by one. SMT_RRESP (R144, R146, R158): the bytes of a read that one segment completes reach their
command; a refused fetch of descriptors faults its ring. Either spends a unit of the client's credit. -/
def Obligations.SmiastBellsAndReadResponsesComplete : Prop :=
  ((∀ s p tm i k pay r, Verified s.dev p 1 i k pay → InOrder p k → pay.length = 8 → beAt pay 2 1 = 1 →
     tget s.dev.qm.cqs (beAt pay 0 2) = some r → r.bind = .conn (connId i k) → r.halted = false → beAt pay 4 2 < 2 ^ r.log2 →
     ∃ t k', exec (.smtBell p tm) s = .next t ∧ tget t.dev.qm.cqs (beAt pay 0 2) = some { r with head := beAt pay 4 2 } ∧
       t.dev.qm.sqs = s.dev.qm.sqs ∧ t.dev.qm.cmds = s.dev.qm.cmds ∧ t.dev.maps = s.dev.maps ∧
       tget t.dev.smt.conns i = some k' ∧ k'.rxCum = (k.rxCum + 1) % 2 ^ 32 ∧ k'.lastRx = tm) ∧
   (∀ s p tm i k pay r, Verified s.dev p 1 i k pay → InOrder p k → pay.length = 8 → beAt pay 2 1 = 0 →
     tget s.dev.qm.sqs (beAt pay 0 2) = some r → r.bind = .conn (connId i k) → r.halted = false → beAt pay 4 2 < 2 ^ r.log2 →
     ∃ t, exec (.smtBell p tm) s = .next t ∧ tget t.dev.qm.sqs (beAt pay 0 2) = some { r with tail := beAt pay 4 2 } ∧
       t.dev.qm.cqs = s.dev.qm.cqs ∧ t.dev.qm.cmds = s.dev.qm.cmds ∧ t.dev.maps = s.dev.maps) ∧
   (∀ s p tm i k pay, Verified s.dev p 8 i k pay → InOrder p k →
     ∃ t k', exec (.smtCloseRx p tm) s = .next t ∧ tget t.dev.smt.conns i = some k' ∧ k'.st = .closing ∧ k'.closeAt = some tm ∧ k'.reqQueue = [] ∧
       k'.rxCum = (k.rxCum + 1) % 2 ^ 32 ∧ t.dev.maps = s.dev.maps)) ∧
  ((∀ s p tm i k pay q id off c, Verified s.dev p 3 i k pay → InOrder p k → tget k.reqs (rxHdr p.bytes).reqId = some q → q.use = .data id off → q.segs = [] →
     0 < q.len → q.len ≤ psizeOf k → bit (rxHdr p.bytes).flags 3 = false → (rxHdr p.bytes).seg = 0 → pay.length = q.len → (rxHdr p.bytes).addr = q.addr →
     (rxHdr p.bytes).rkey = q.rkey → tget s.dev.qm.cmds id = some c →
     ∃ t k', exec (.smtRresp p tm) s = .next t ∧
       tget t.dev.qm.cmds id = some { c with staged := pay.zipIdx.foldl (fun m e => tset m (off + e.2) e.1) c.staged } ∧
       tget t.dev.smt.conns i = some k' ∧ k'.clientUsed = (k.clientUsed + 1) % 2 ^ 32 ∧ t.dev.maps = s.dev.maps) ∧
   (∀ s p tm i k pay q sq from_ n r, Verified s.dev p 3 i k pay → InOrder p k → tget k.reqs (rxHdr p.bytes).reqId = some q → q.use = .descs sq from_ n →
     bit (rxHdr p.bytes).flags 3 = true → tget s.dev.qm.sqs sq = some r → r.deleting = none →
     ∃ t k', exec (.smtRresp p tm) s = .next t ∧ tget t.dev.qm.sqs sq = some { r with fault := true } ∧
       ⟨.smtRingFault, [sq, connId i k]⟩ ∈ t.dev.sil.inboxMain ∧
       tget t.dev.smt.conns i = some k' ∧ k'.clientUsed = (k.clientUsed + 1) % 2 ^ 32))

/-- SMT_ACK_RX (R153, R158), SMT_CRED_RX (R158), SMT_KEEP_RX (R156): packets an ACK covers leave their buffers, and one missing below three received goes again; a
CRED sets the credit limit; a KEEP is answered by an ACK. -/
def Obligations.SmiastControlPacketsComplete : Prop :=
  (∀ s p tm i k pay, Verified s.dev p 5 i k pay → LaterControl p k → k.queue = [] → k.prevKey = none → k.deleting = none →
    (∀ x ∈ k.unacked, covers (beAt pay 0 4) (leNat (slice pay 4 32)) x.psn = false → higher (beAt pay 0 4) (leNat (slice pay 4 32)) x.psn < 3) →
    ∃ t k', exec (.smtAckRx p tm) s = .next t ∧ tget t.dev.smt.conns i = some k' ∧
      k'.unacked = k.unacked.filter (fun x => !covers (beAt pay 0 4) (leNat (slice pay 4 32)) x.psn) ∧ k'.limit = beAt pay 36 4 ∧
      k'.ctlRx = (rxHdr p.bytes).psn ∧ k'.lastRx = tm ∧ t.dev.maps = s.dev.maps) ∧
  (∀ s p tm i k pay x key, Verified s.dev p 5 i k pay → LaterControl p k → k.queue = [] → k.prevKey = none → k.deleting = none → k.unacked = [x] →
    covers (beAt pay 0 4) (leNat (slice pay 4 32)) x.psn = false → 3 ≤ higher (beAt pay 0 4) (leNat (slice pay 4 32)) x.psn → x.retxAt = none → keyOf k x.kgen = some key →
    ∃ t k', exec (.smtAckRx p tm) s = .next t ∧ tget t.dev.smt.conns i = some k' ∧
      k'.unacked = [{ x with retries := x.retries + 1, rto := min (2 * x.rto) 1000000, timerFrom := tm, retxAt := some tm }] ∧
      t.dev.smt.retx = satInc 32 s.dev.smt.retx) ∧
  (∀ s p tm i k pay, Verified s.dev p 6 i k pay → LaterControl p k →
    ∃ t k', exec (.smtCredRx p tm) s = .next t ∧ tget t.dev.smt.conns i = some k' ∧ k'.limit = beAt pay 0 4 ∧ k'.ctlRx = (rxHdr p.bytes).psn ∧ k'.lastRx = tm ∧
      t.dev.maps = s.dev.maps ∧ t.dev.qm = s.dev.qm) ∧
  (∀ s p tm i k pay, Verified s.dev p 7 i k pay → LaterControl p k →
    ∃ t k', exec (.smtKeepRx p tm) s = .next t ∧ tget t.dev.smt.conns i = some k' ∧ k'.ctlRx = (rxHdr p.bytes).psn ∧ k'.lastRx = tm ∧ k'.ackFrom = none ∧
      k'.ackDue = 0 ∧ k'.unacked = k.unacked ∧ t.dev.maps = s.dev.maps ∧ t.dev.qm = s.dev.qm ∧
      (ifUp s.dev k.iface = true → k.key.isSome → k.sealedCtl < sealLimit → t.dev.io.out.length = s.dev.io.out.length + 1))

/-- A datagram whose tag does not verify is dropped and counted in SMT_DROP.AUTH, whichever type it claims, and nothing else about any connection changes (R142);
SMT_FRAME_DROP counts what nothing takes in SMT_DROP.OTHER (R122), a NAKC that a client sent and that verifies among it. -/
def Obligations.SmiastForgedPacketsChangeNothing : Prop :=
  (∀ s p tm c i k key, ((rxHdr p.bytes).ty = 1 ∧ c = .smtBell p tm ∨ (rxHdr p.bytes).ty = 3 ∧ c = .smtRresp p tm ∨ (rxHdr p.bytes).ty = 5 ∧ c = .smtAckRx p tm ∨
      (rxHdr p.bytes).ty = 6 ∧ c = .smtCredRx p tm ∨ (rxHdr p.bytes).ty = 7 ∧ c = .smtKeepRx p tm ∨ (rxHdr p.bytes).ty = 8 ∧ c = .smtCloseRx p tm) →
    rxOk s.dev p.iface = true → csumOk s.dev p = true → vlanOk s.dev p.iface p.vlan = true → ipBytes p.src p.bytes.length ≤ ifMtu s.dev p.iface →
    p.dport = udpPort s.dev → (rxHdr p.bytes).ver = 1 → connNamed s.dev (rxHdr p.bytes).cid = some (i, k) →
    k.st = .isOpen ∨ k.st = .closing → p.src = k.peer → keyOf k (rxHdr p.bytes).kgen = some key → p.bytes.length = 48 + (rxHdr p.bytes).len →
    bit (rxHdr p.bytes).flags 0 = false →
    gcmOpen key (smtNonce k.salt (if (rxHdr p.bytes).ty = 5 ∨ (rxHdr p.bytes).ty = 6 ∨ (rxHdr p.bytes).ty = 7 ∨ (rxHdr p.bytes).ty = 9 then 2 else 0) (rxHdr p.bytes).psn) (p.bytes.take 32)
      (slice p.bytes 32 (rxHdr p.bytes).len) (p.bytes.drop (32 + (rxHdr p.bytes).len)) = none →
    ∃ t, exec c s = .next t ∧ t.dev.smt.dropAuth = satInc 16 s.dev.smt.dropAuth ∧
      t = { s with dev := { s.dev with
        smt := { s.dev.smt with dropAuth := t.dev.smt.dropAuth, cache := t.dev.smt.cache, miss := t.dev.smt.miss, gcm := t.dev.smt.gcm }
        pwr := t.dev.pwr, io := { s.dev.io with now := t.dev.io.now, stood := t.dev.io.stood, picks := t.dev.io.picks } } }) ∧
  (∀ s iface tm, rxOk s.dev iface = true →
    ∃ t, exec (.smtFrameDrop iface none tm) s = .next t ∧ t = { s with dev := { s.dev with
        smt := { s.dev.smt with dropOther := satInc 16 s.dev.smt.dropOther }, pwr := t.dev.pwr, io := { s.dev.io with now := t.dev.io.now, stood := t.dev.io.stood } } }) ∧
  (∀ s iface p tm, (rxHdr p.bytes).ty ∉ [1, 3, 5, 6, 7, 8] → rxOk s.dev p.iface = true → csumOk s.dev p = true → connNamed s.dev (rxHdr p.bytes).cid = none →
    ∃ t, exec (.smtFrameDrop iface (some p) tm) s = .next t ∧ t = { s with dev := { s.dev with
        smt := { s.dev.smt with dropOther := satInc 16 s.dev.smt.dropOther }, pwr := t.dev.pwr, io := { s.dev.io with now := t.dev.io.now, stood := t.dev.io.stood } } }) ∧
  (∀ s iface p tm i k pay, Verified s.dev p 9 i k pay →
    ∃ t, exec (.smtFrameDrop iface (some p) tm) s = .next t ∧ t.dev.smt.dropOther = satInc 16 s.dev.smt.dropOther ∧ t.dev.smt.dropAuth = s.dev.smt.dropAuth ∧
      t.dev.qm = s.dev.qm ∧ t.dev.maps = s.dev.maps)

/-- SMT_RTO_EXPIRY (R153, R154): every late packet goes again with its timeout doubled, up to 1,000 µs, and the others stay; at the retry limit the connection fails
with reason 1. SMT_DEAD_TIMER (R157): nothing received for DEAD seconds fails it with reason 2. SMT_ACK_DELAY_TIMER (R152), SMT_KEEP_IDLE (R157), SMT_ECN_HOLD
(R160), SMT_KEY_DRAIN_TIMER (R162), SMT_CLOSE_TIMER (R129): what each timer of a connection does. -/
def Obligations.SmiastTimersAndRetransmissionComplete : Prop :=
  ((∀ s i tm k, tget s.dev.smt.conns i = some k → timersRun s.dev k = true → k.st = .isOpen ∨ k.st = .closing → (k.unacked.map (·.psn)).Nodup →
     (∀ x ∈ k.unacked, x.timerFrom + x.rto ≤ tm → x.retries < retryMax s.dev ∧ ∃ key, keyOf k x.kgen = some key) →
     ∃ t k', exec (.smtRtoExpiry i tm) s = .next t ∧ tget t.dev.smt.conns i = some k' ∧
       k'.unacked = k.unacked.map (fun x => if x.timerFrom + x.rto ≤ tm then { x with retries := x.retries + 1, rto := min (2 * x.rto) 1000000, timerFrom := tm, retxAt := some tm } else x) ∧
       k'.st = k.st ∧ k'.txNext = k.txNext ∧ t.dev.qm = s.dev.qm ∧ t.dev.maps = s.dev.maps ∧ ∀ j, j ≠ i → tget t.dev.smt.conns j = tget s.dev.smt.conns j) ∧
   (∀ s i tm k x, tget s.dev.smt.conns i = some k → timersRun s.dev k = true → k.st = .isOpen → x ∈ k.unacked → x.timerFrom + x.rto ≤ tm → retryMax s.dev ≤ x.retries →
     ∃ t k', exec (.smtRtoExpiry i tm) s = .next t ∧ tget t.dev.smt.conns i = some k' ∧ k'.st = .failed ∧ k'.reason = 1 ∧ k'.unacked = [] ∧ k'.queue = [] ∧
       ⟨.smtFail, [connId i k, 1]⟩ ∈ t.dev.sil.inboxMain) ∧
   (∀ s i tm k, tget s.dev.smt.conns i = some k → timersRun s.dev k = true → k.st = .isOpen → fld (rd s.dev 0x2000C) 16 8 ≠ 0 →
     k.lastRx + 1000000000 * fld (rd s.dev 0x2000C) 16 8 ≤ tm →
     ∃ t k', exec (.smtDeadTimer i tm) s = .next t ∧ tget t.dev.smt.conns i = some k' ∧ k'.st = .failed ∧ k'.reason = 2 ∧ k'.unacked = [] ∧ k'.queue = [] ∧
       ⟨.smtFail, [connId i k, 2]⟩ ∈ t.dev.sil.inboxMain)) ∧
  ((∀ s i tm k a, tget s.dev.smt.conns i = some k → timersRun s.dev k = true → k.ackFrom = some a → a + ackDelay s.dev ≤ tm →
     ∃ t k', exec (.smtAckDelayTimer i tm) s = .next t ∧ tget t.dev.smt.conns i = some k' ∧ k'.ackFrom = none ∧ k'.gapFrom = none ∧ k'.ackDue = 0 ∧
       (ifUp s.dev k.iface = true → k.key.isSome → k.sealedCtl < sealLimit → k.st = .isOpen → t.dev.io.out.length = s.dev.io.out.length + 1)) ∧
   (∀ s i tm k key, tget s.dev.smt.conns i = some k → timersRun s.dev k = true → k.st = .isOpen → k.key = some key → k.sealedCtl < sealLimit →
     k.lastTx + 1000000 * zeroAsOne (fld (rd s.dev 0x2000C) 0 16) ≤ tm →
     ∃ t k', exec (.smtKeepIdle i tm) s = .next t ∧ tget t.dev.smt.conns i = some k' ∧ k'.ctlTx = (k.ctlTx + 1) % 2 ^ 32 ∧ k'.lastTx = t.dev.io.now ∧
       k'.sealedCtl = k.sealedCtl + 1 ∧ (ifUp s.dev k.iface = true → t.dev.io.out.length = s.dev.io.out.length + 1)) ∧
   (∀ s i tm k, tget s.dev.smt.conns i = some k → timersRun s.dev k = true → k.st = .isOpen → k.ecnAt + ecnHold s.dev ≤ tm →
     ∃ t k', exec (.smtEcnHold i tm) s = .next t ∧ tget t.dev.smt.conns i = some k' ∧ k'.ecnAt = tm ∧
       k'.window = (if k.ceAt.any (fun a => decide (k.ecnAt ≤ a)) then k.window else min (winOf s.dev) (k.window + 1))) ∧
   (∀ s i tm k key a, tget s.dev.smt.conns i = some k → timersRun s.dev k = true → k.prevKey = some (key, a) → a + 2000000 ≤ tm → k.waitKey = none →
     ∃ t, exec (.smtKeyDrainTimer i tm) s = .next t ∧
       (∃ k', tget t.dev.smt.conns i = some k' ∧ k' = { k with
         prevKey := none, unacked := k.unacked.map (reseal k), sealedTx := k.sealedTx + (k.unacked.filter fun p => decide (p.kgen ≠ k.kgen)).length, psnDue := k'.psnDue }) ∧
       t.dev.qm = s.dev.qm) ∧
   (∀ s i tm k, tget s.dev.smt.conns i = some k → timersRun s.dev k = true → k.st = .closing → k.deleting = none →
     k.closeAt.any (fun a => decide (a + 1000000 ≤ tm)) = true ∨ (k.unacked = [] ∧ k.queue = []) →
     ∃ t k', exec (.smtCloseTimer i tm) s = .next t ∧ tget t.dev.smt.conns i = some k' ∧ k'.st = .shut ∧ k'.unacked = [] ∧ k'.queue = [] ∧
       ⟨.smtClose, [connId i k]⟩ ∈ t.dev.sil.inboxMain))

/-- CONN_CREATE (R125, R127, R129, R136), CONN_DELETE (R124, R129), CONN_KEY (R161, R162, R419). -/
def Obligations.ConnectionCommandsComplete : Prop :=
  (∀ s id c blk l i x, AdminTurn s id 0x8A c → BlockBuffer s id 320 c → readBlk s.dev c 320 blk = .got l → cbRange l = none → hasSmt s.dev = true → ifPresent s.dev (leAt l 18 1) = true →
    tget s.dev.maps.tenants (fld (dArg c.desc 0) 0 12) = some x → s.dev.sec.rngReady = true → cbFault s.dev l = none →
    (s.dev.smt.conns.filter fun e => decide (e.2.tenant = fld (dArg c.desc 0) 0 12)).length < x.grants.conns → freeConn s.dev = some i →
    ∃ t k, exec (.connCreate id blk) s = .next t ∧ tget t.dev.smt.conns i = some k ∧ k.st = .pending ∧ k.tenant = fld (dArg c.desc 0) 0 12 ∧ k.peer = beAt l 0 16 ∧
      k.port = leAt l 16 2 ∧ k.limit = leAt l 28 4 ∧ k.regions = cbRegions l ∧ k.gen = tgetD s.dev.smt.gens i 0 ∧ Ended t id c .ok (connId i k) 0xFF ∧ t.dev.maps = s.dev.maps) ∧
  (∀ s id c i k, AdminTurn s id 0x8B c → hasSmt s.dev = true → connNamed s.dev (dArg c.desc 0) = some (i, k) → connBound s.dev (dArg c.desc 0) = false →
    (k.st ≠ .isOpen → k.reqs = [] → k.reqQueue = [] →
      ∃ t, exec (.connDelete id) s = .next t ∧ Ended t id c .ok 0 0xFF ∧ t.dev.smt.conns = tdel s.dev.smt.conns i ∧ tget t.dev.smt.gens i = some ((k.gen + 1) % 256)) ∧
    (k.st = .isOpen →
      ∃ t k', exec (.connDelete id) s = .next t ∧ tget t.dev.qm.cmds id = some { c with stage := .committed, past := true } ∧ tget t.dev.smt.conns i = some k' ∧
        k'.deleting = some id ∧ k'.closeAt = some s.dev.io.now)) ∧
  (∀ s id c blk i k l, AdminTurn s id 0x8C c → BlockBuffer s id 40 c → hasSmt s.dev = true → connNamed s.dev (dArg c.desc 0) = some (i, k) → readBlk s.dev c 40 blk = .got l →
    k.st = .pending ∧ fld (dArg c.desc 1) 0 8 = 0 ∨ k.st = .isOpen ∧ fld (dArg c.desc 1) 0 8 = (k.kgen + 1) % 256 →
    ∃ t, exec (.connKey id blk) s = .next t ∧ (match unwrapKey (kekConn s.dev) (l.take 40) with
      | none => Ended t id c .keyUnwrap 0 0xFF ∧ t.dev.smt.conns = s.dev.smt.conns
      | some key => ∃ k', tget t.dev.smt.conns i = some k' ∧
        (k.st = .pending → k.prevKey = none → Ended t id c .ok 0 0xFF ∧ k'.st = .isOpen ∧ k'.key = some key ∧ k'.kgen = 0) ∧
        (k.st = .isOpen → k.prevKey = none → Ended t id c .ok 0 0xFF ∧ k'.key = some key ∧ k'.kgen = (k.kgen + 1) % 256 ∧
          k'.prevKey = (if k.unacked = [] then none else k.key.map fun o => (o, s.dev.io.now))) ∧
        (k.prevKey.isSome → tget t.dev.qm.cmds id = some { c with stage := .committed, past := true } ∧ k'.waitKey = some (id, key) ∧ k'.key = k.key)))

/-- SMT_ARP_REQUEST, SMT_NEIGHBOR_SOLICIT, SMT_ICMP_ECHO (R122), ETH_LINK_STATE_CHANGE (R121), SMT_IF_IPV6_LAST_WRITE (R14): the interfaces under the connections. -/
def Obligations.InterfaceFramesComplete : Prop :=
  (∀ s iface mac spa tpa tm vlan, rxOk s.dev iface = true → vlanOk s.dev iface vlan = true → ifV4 s.dev iface = tpa → tpa ≠ 0 →
    ∃ t, exec (.smtArpRequest iface ⟨mac, vlan⟩ spa tpa tm) s = .next t ∧
      t.dev.io.out = s.dev.io.out ++ [.eth iface (ifTag s.dev iface) 0 mac ([0, 1, 8, 0, 6, 4, 0, 2] ++ beBytes 6 (ifMac s.dev iface) ++ beBytes 4 tpa ++ beBytes 6 mac ++ beBytes 4 spa)] ∧
      t = { s with dev := { s.dev with pwr := t.dev.pwr, io := { s.dev.io with now := t.dev.io.now, stood := t.dev.io.stood, out := t.dev.io.out } } }) ∧
  (∀ s iface mac src target tm vlan, rxOk s.dev iface = true → vlanOk s.dev iface vlan = true → ifV6 s.dev iface = target → target ≠ 0 →
    ∃ t, exec (.smtNeighborSolicit iface ⟨mac, vlan⟩ src target tm) s = .next t ∧
      t.dev.io.out = s.dev.io.out ++ [.eth iface (ifTag s.dev iface) 1 mac (beBytes 16 target ++ beBytes 6 (ifMac s.dev iface) ++ beBytes 16 src)] ∧
      t = { s with dev := { s.dev with pwr := t.dev.pwr, io := { s.dev.io with now := t.dev.io.now, stood := t.dev.io.stood, out := t.dev.io.out } } }) ∧
  (∀ s iface mac src dst body tm vlan, rxOk s.dev iface = true → vlanOk s.dev iface vlan = true →
    (if isV4 dst = true then ifV4 s.dev iface = dst % 2 ^ 32 ∧ dst % 2 ^ 32 ≠ 0 else ifV6 s.dev iface = dst ∧ dst ≠ 0) →
    ∃ t, exec (.smtIcmpEcho iface ⟨mac, vlan⟩ src dst body tm) s = .next t ∧
      t.dev.io.out = (if ((tgetD s.dev.smt.echoes iface []).filter fun a => decide (tm < a + 1000000000)).length < 1000
        then s.dev.io.out ++ [.eth iface (ifTag s.dev iface) 2 mac (beBytes 16 dst ++ beBytes 16 src ++ body)] else s.dev.io.out) ∧
      t.dev.smt.conns = s.dev.smt.conns) ∧
  (∀ s iface speed, mainUp s.dev = true → ifPresent s.dev iface = true → speed = 0 ∨ speed = 4 - fld (rd s.dev (0x20020 + 4 * (iface / 8))) 0 2 →
    ∃ t, exec (.ethLinkStateChange iface speed) s = .next t ∧ t = { s with dev := { s.dev with smt := { s.dev.smt with links := t.dev.smt.links } } } ∧
      (speed = 0 ∨ ethHeld s.dev (iface / 8) = true ∨ inS2 s.dev = true → t.dev.smt.links = tdel s.dev.smt.links iface) ∧
      (speed ≠ 0 → ethHeld s.dev (iface / 8) = false → inS2 s.dev = false → tget t.dev.smt.links iface = some speed)) ∧
  (∀ s path iface v, iface < 64 → reachable s.dev path (0x2101C + 0x40 * iface) = true → ifPresent s.dev iface = true →
    ∃ t, exec (.smtIfIpv6LastWrite path iface v) s = .next t ∧
      (s.dev.rf.lock = true → t.dev = { s.dev with pwr := t.dev.pwr }) ∧
      (s.dev.rf.lock = false → ∃ x, tget t.dev.smt.ipv6 iface = some x ∧
        x.toNat = (((rd s.dev (0x21010 + 0x40 * iface) * 2 ^ 32 + rd s.dev (0x21014 + 0x40 * iface)) * 2 ^ 32 + rd s.dev (0x21018 + 0x40 * iface)) * 2 ^ 32 + v.toNat) % 2 ^ 128))

/-! ### PCIe ports -/

/-- PCX_FLR (R178, R182): every ring bound to the function is halted, the owner admin ring apart; a command past its commit point goes on with its completion
discarded; the function issues no request until Bus Master Enable is set again; the reset is logged and recorded; the maps stay. PCX_OWNER_FLR (R180): the owner
admin ring stands at head and tail 0 with phase 1, a fault of its fetching is gone, its count goes on, and it waits for its first doorbell after Bus Master Enable. PCX_VF_DISABLE, PCX_PERST,
PCX_HOT_RESET, PCX_DL_DOWN (R181): the link's VFs are no longer enabled and their rings are halted; a reset of the link leaves its configuration space at its reset
values, with the reset logged. PERST restarts the log's count. -/
def Obligations.FunctionAndLinkResetsComplete : Prop :=
  (∀ s fn l, mainUp s.dev = true → linkKey s.dev fn = some l → vfEnabled s.dev (fn / 1024) (fn % 1024) = true →
     ∃ t, exec (.pcxFlr fn) s = .next t ∧
       (∀ i r, i ≠ 0 → tget s.dev.qm.sqs i = some r → r.bind = .fn fn → r.deleting = none → ∃ r', tget t.dev.qm.sqs i = some r' ∧ r'.halted = true ∧ r'.tail = r.tail) ∧
       (∀ i q, i ≠ 0 → tget s.dev.qm.cqs i = some q → q.bind = .fn fn → ∃ q', tget t.dev.qm.cqs i = some q' ∧ q'.halted = true ∧ q'.count = q.count) ∧
       (∀ id c r, tget s.dev.qm.cmds id = some c → c.sq ≠ 0 → tget s.dev.qm.sqs c.sq = some r → r.bind = .fn fn → c.past = true →
         ∃ c', tget t.dev.qm.cmds id = some c' ∧ c'.discard = true) ∧
       fn ∉ t.dev.pcx.master ∧ (tgetD t.dev.pcx.links l {}).pend = true ∧ (tgetD t.dev.pcx.links l {}).flrLast = fn % 1024 ∧
       (tgetD t.dev.pcx.links l {}).flrCount = satInc 8 (tgetD s.dev.pcx.links l {}).flrCount ∧
       ⟨.pcxFlr, [l / 4, l % 4, fn % 1024]⟩ ∈ t.dev.sil.inboxMain ∧ t.dev.maps = s.dev.maps ∧ t.dev.jnl = s.dev.jnl) ∧
  (∀ s r q, mainUp s.dev = true → isOwnerFn s.dev 0 = true → hasPcx s.dev 0 = true → s.dev.qm.adminOn = true → tget s.dev.qm.sqs 0 = some r → tget s.dev.qm.cqs 0 = some q →
     ∃ t n, exec .pcxOwnerFlr s = .next t ∧ tget t.dev.qm.sqs 0 = some { r with head := 0, tail := 0, held := none, fault := false } ∧ t.dev.qm.adminErr = false ∧
       tget t.dev.qm.cqs 0 = some { q with widx := 0, head := 0, phase := true, reserved := n, sinceIrq := 0, firstAt := none } ∧
       t.dev.qm.adminAwait = true ∧ 0 ∉ t.dev.pcx.master ∧ (tgetD t.dev.pcx.links 0 {}).pend = true ∧ t.dev.maps = s.dev.maps) ∧
  ((∀ s link e, mainUp s.dev = true → pcxEntry s.dev link = some e →
     ∃ t, exec (.pcxVfDisable link) s = .next t ∧ (tgetD t.dev.pcx.links link {}).numVfs = 0 ∧
       (∀ fn i r, fn ∈ linkVfs s.dev link → i ≠ 0 → tget s.dev.qm.sqs i = some r → r.bind = .fn fn → r.deleting = none → ∃ r', tget t.dev.qm.sqs i = some r' ∧ r'.halted = true) ∧
       (∀ fn ∈ linkVfs s.dev link, fn ∉ t.dev.pcx.master) ∧ t.dev.maps = s.dev.maps) ∧
   (∀ s link pf, mainUp s.dev = true → linkPf s.dev link = some pf →
     (∃ t, exec (.pcxPerst link) s = .next t ∧ tgetD t.dev.pcx.links link {} = { pend := true, flrCount := 0, flrLast := pf % 1024 } ∧ t.dev.maps = s.dev.maps) ∧
     (∀ c ∈ [Instr.pcxHotReset link, Instr.pcxDlDown link],
       ∃ t, exec c s = .next t ∧ tgetD t.dev.pcx.links link {} = { pend := true, flrCount := satInc 8 (tgetD s.dev.pcx.links link {}).flrCount, flrLast := pf % 1024 } ∧
         (∀ i r, i ≠ 0 → tget s.dev.qm.sqs i = some r → r.bind = .fn pf → r.deleting = none → ∃ r', tget t.dev.qm.sqs i = some r' ∧ r'.halted = true) ∧
         pf ∉ t.dev.pcx.master ∧ t.dev.maps = s.dev.maps)))

/-- PCX_DMA_ERROR (R176, R177, R100): a failed transfer fails its ring or its command, is counted, and logged through AER of the function (the bit is the PCIe Base layout's,
notes/assumptions/65.md); with Completion Timeout Disable set there is no time-out. PCX_LINK_TRAINED (R166, R168), PCX_BUS_MASTER_ENABLE (R178). The rates that count as degraded are the model's reading
(notes/assumptions/45.md). -/
def Obligations.PcieEventsComplete : Prop :=
  (∀ s fn sq kind l r, mainUp s.dev = true → linkKey s.dev fn = some l → (kind = .timeout → timeoutOff s.dev fn = false) → sq ≠ 0 → tget s.dev.qm.sqs sq = some r → r.bind = .fn fn → canFetch s.dev sq = true →
    ∃ t, exec (.pcxDmaError fn kind ⟨some sq, none⟩) s = .next t ∧ tget t.dev.qm.sqs sq = some { r with fault := true } ∧
      t.dev.sil.inboxMain = s.dev.sil.inboxMain ++ [⟨.pcxRingFault, [sq, fn / 1024, fn % 1024]⟩] ∧
      (tgetD t.dev.pcx.links l {}).dmaErr = satInc 32 (tgetD s.dev.pcx.links l {}).dmaErr ∧ t.dev.qm.cmds = s.dev.qm.cmds ∧ t.dev.qm.cqs = s.dev.qm.cqs ∧
      bit (cfgAt t.dev fn 0x104 0) (aerBit kind) = true) ∧
  (∀ s fn id kind l c, mainUp s.dev = true → linkKey s.dev fn = some l → (kind = .timeout → timeoutOff s.dev fn = false) → tget s.dev.qm.cmds id = some c → bindOf s.dev c = some (.fn fn) → mayFail c = true →
    ∃ t, exec (.pcxDmaError fn kind ⟨none, some id⟩) s = .next t ∧ Ended t id c .invalidField 0 0xFE ∧ t.dev.maps = s.dev.maps ∧
      (tgetD t.dev.pcx.links l {}).dmaErr = satInc 32 (tgetD s.dev.pcx.links l {}).dmaErr ∧ bit (cfgAt t.dev fn 0x104 0) (aerBit kind) = true ∧ ∀ j, j ≠ id → tget t.dev.qm.cmds j = tget s.dev.qm.cmds j) ∧
  (∀ s link rate width e, mainUp s.dev = true → pcxEntry s.dev link = some e → pcxHeld s.dev (link / 4) = false → 1 ≤ rate → rate ≤ 6 → width ∈ [1, 2, 4, 8, 16] →
    width ≤ linkLanes s.dev link →
    ∃ t, exec (.pcxLinkTrained link rate width) s = .next t ∧
      tgetD t.dev.pcx.links link {} = { tgetD s.dev.pcx.links link {} with
        rate := rate, width := width, degraded := decide (rate ≤ 2 ∨ width < linkLanes s.dev link)
        retrains := if (tgetD s.dev.pcx.links link {}).rate = 0 then (tgetD s.dev.pcx.links link {}).retrains else satInc 16 (tgetD s.dev.pcx.links link {}).retrains } ∧
      t.dev.sil.inboxMain = s.dev.sil.inboxMain ++ (if rate ≤ 2 ∨ width < linkLanes s.dev link then [⟨.pcxDegraded, [link / 4, link % 4, rate, width]⟩] else []) ∧
      t = { s with dev := { s.dev with pcx := t.dev.pcx, sil := { s.dev.sil with inboxMain := t.dev.sil.inboxMain } } }) ∧
  (∀ s fn l, mainUp s.dev = true → linkKey s.dev fn = some l → pcxHeld s.dev (fn / 1024) = false →
    ∃ t, exec (.pcxBusMasterEnable fn) s = .next t ∧ fn ∈ t.dev.pcx.master ∧ (∀ f, f ≠ fn → (f ∈ t.dev.pcx.master ↔ f ∈ s.dev.pcx.master)) ∧
      t = { s with dev := { s.dev with pcx := { s.dev.pcx with master := t.dev.pcx.master } } })

/-! ### Power and clocks -/

/-- PL_CEILING_CHANGE (R456, R459), PL_MOVE_DONE (R459), PL6_MODE_CHECK (R457), VDDC_ADAPT (R458), PMBUS_ARB_LOSS (R516): going down, the divisor is taken at once
and VDDC follows; going up, VDDC goes first and the divisor at the end. With the keeper link down the setting waits for it (R20). -/
def Obligations.PerformanceLevelsComplete : Prop :=
  (∀ s tm, mainUp s.dev = true → s.dev.pwr.move = none →
    ∃ t, exec (.plCeilingChange tm) s = .next t ∧
      (levelWanted s.dev < s.dev.pwr.pl → t.dev.pwr.pl = levelWanted s.dev ∧ t.dev.pwr.cdiv = divisorOf s.dev.pwr.pl6Fast (levelWanted s.dev) ∧
        t.dev.pwr.move = some ⟨levelWanted s.dev, false⟩) ∧
      (s.dev.pwr.pl < levelWanted s.dev → t.dev.pwr.pl = s.dev.pwr.pl ∧ t.dev.pwr.cdiv = s.dev.pwr.cdiv ∧ t.dev.pwr.move = some ⟨levelWanted s.dev, true⟩) ∧
      (levelWanted s.dev ≠ s.dev.pwr.pl → s.dev.pwr.klinkUp = true →
        t.dev.io.out = s.dev.io.out ++ [.pmbus 0x43 0x21 (nominalMv (levelWanted s.dev))] ∧ t.dev.pwr.voutHeld = s.dev.pwr.voutHeld) ∧
      (levelWanted s.dev ≠ s.dev.pwr.pl → s.dev.pwr.klinkUp = false → t.dev.io.out = s.dev.io.out ∧ t.dev.pwr.voutHeld = some (nominalMv (levelWanted s.dev))) ∧
      (levelWanted s.dev = s.dev.pwr.pl → t.dev.pwr.pl = s.dev.pwr.pl ∧ t.dev.pwr.move = none ∧ t.dev.io.out = s.dev.io.out) ∧
      t.dev.qm = s.dev.qm ∧ t.dev.maps = s.dev.maps ∧ t.dev.sil = s.dev.sil) ∧
  (∀ s tm m, mainUp s.dev = true → s.dev.pwr.klinkUp = true → s.dev.pwr.move = some m → levelWanted s.dev = (if m.up then m.target else s.dev.pwr.pl) →
    ∃ t, exec (.plMoveDone tm) s = .next t ∧ t.dev.pwr.vddc = nominalMv m.target ∧ t.dev.pwr.move = none ∧ t.dev.pwr.arbHeld = false ∧
      t.dev.pwr.pl = (if m.up then m.target else s.dev.pwr.pl) ∧ t.dev.pwr.cdiv = (if m.up then divisorOf s.dev.pwr.pl6Fast m.target else s.dev.pwr.cdiv) ∧
      t.dev.qm = s.dev.qm ∧ t.dev.io.out = s.dev.io.out) ∧
  (∀ s margin tm, mainUp s.dev = true → s.dev.pwr.pl = 6 → s.dev.pwr.pl6Due ≤ tm →
    ∃ t, exec (.pl6ModeCheck margin tm) s = .next t ∧ t.dev.pwr.pl6Due = tm + 1000000000 ∧
      (40 ≤ margin → t.dev.pwr.pl6Fast = true ∧ t.dev.pwr.cdiv = 3) ∧ (margin < 20 → t.dev.pwr.pl6Fast = false ∧ t.dev.pwr.cdiv = 4) ∧
      (20 ≤ margin → margin < 40 → t.dev.pwr.pl6Fast = s.dev.pwr.pl6Fast) ∧
      t.dev.sil.inboxMain = s.dev.sil.inboxMain ++ (if t.dev.pwr.pl6Fast = s.dev.pwr.pl6Fast then [] else [⟨.pl6Mode, [t.dev.pwr.cdiv, margin]⟩])) ∧
  (∀ s margin tm, mainUp s.dev = true → s.dev.pwr.move = none → s.dev.pwr.vddc ≤ nominalMv s.dev.pwr.pl → max (nominalMv s.dev.pwr.pl - 40) 600 ≤ s.dev.pwr.vddc →
    ∃ t, exec (.vddcAdapt margin tm) s = .next t ∧ t.dev.pwr.vddc ≤ nominalMv s.dev.pwr.pl ∧ max (nominalMv s.dev.pwr.pl - 40) 600 ≤ t.dev.pwr.vddc ∧
      t.dev.pwr.vddc ≤ s.dev.pwr.vddc + 5 ∧ s.dev.pwr.vddc ≤ t.dev.pwr.vddc + 5 ∧ t.dev.pwr.margin = min 255 margin ∧ t.dev.pwr.pl = s.dev.pwr.pl ∧
      (30 ≤ margin → margin ≤ 50 → t.dev.pwr.vddc = s.dev.pwr.vddc) ∧ (s.dev.pwr.klinkUp = false → t.dev.pwr.vddc = s.dev.pwr.vddc ∧ t.dev.io.out = s.dev.io.out)) ∧
  (∀ s bus target tm, s.dev.kpr.running = true → bus < 2 →
    (bus = 1 → s.dev.kpr.state ≠ 0 →
      ∃ t, exec (.pmbusArbLoss bus target tm) s = .next t ∧ t.dev.mgt.arbPmbus = satInc 16 s.dev.mgt.arbPmbus ∧ t.dev.mgt.arbRun = s.dev.mgt.arbRun + 1 ∧
        t.dev.pwr.arbHeld = s.dev.pwr.move.isSome ∧ t.dev.pwr.move = s.dev.pwr.move ∧
        t.dev.sil.inbox = s.dev.sil.inbox ++ (if s.dev.mgt.arbRun = 7 then [(⟨.arbLoss, [1, target, 8]⟩, false)] else [])) ∧
    (∀ m, bus = 0 → s.dev.id.mgtMode = false → s.dev.mgt.msg = some m →
      ∃ t, exec (.pmbusArbLoss bus target tm) s = .next t ∧ t.dev.mgt.arbMgmt = satInc 16 s.dev.mgt.arbMgmt ∧ t.dev.mgt.msg = some { m with losses := m.losses + 1 } ∧
        t.dev.pwr = { s.dev.pwr with activeAt := t.dev.pwr.activeAt }))

/-- S1_IDLE_TIMER, S2_IDLE_TIMER (R461, R462), SLEEP_ENTRY_DONE and SLEEP_EXIT_DONE (R463, R465-R467), PWR_SLEEP_S2, PWR_SLEEP_S3 (R462, R464), PWR_PAD_RELEASE
(R453). LG_PARK_TIMER (R355, R465), ETH_PARK_TIMER, PCX_PARK_TIMER (R465): a unit idle long enough begins to park; the end of its entry parks it, the end of its exit
brings it back. -/
def Obligations.SleepAndParkingComplete : Prop :=
  ((∀ s tm, mainUp s.dev = true → s.dev.pwr.sleep = .s0 → idle s.dev = true → bit (rd s.dev 0x9000C) 12 = true → s.dev.pwr.activeAt + 1000 * s1Us s.dev ≤ tm → stopped s.dev = false →
     ∃ t, exec (.s1IdleTimer tm) s = .next t ∧ t = { s with dev := { s.dev with
       pwr := { s.dev.pwr with sleep := .s1Entering, sleepAt := tm, exitAfter := false }, io := { s.dev.io with now := max s.dev.io.now tm, stood := t.dev.io.stood } } }) ∧
   (∀ s tm, mainUp s.dev = true → s.dev.pwr.sleep = .s0 ∨ s.dev.pwr.sleep = .s1 → idle s.dev = true → fld (rd s.dev 0x90008) 0 2 = 2 → s.dev.pwr.activeAt + 10000000 ≤ tm →
     stopped s.dev = false →
     ∃ t, exec (.s2IdleTimer tm) s = .next t ∧ t = { s with dev := { s.dev with
       pwr := { s.dev.pwr with sleep := .entering, sleepAt := tm, exitAfter := false }, io := { s.dev.io with now := max s.dev.io.now tm, stood := t.dev.io.stood } } }) ∧
   (∀ s tm, mainUp s.dev = true →
     ∃ t, exec (.sleepEntryDone .part tm) s = .next t ∧
       (s.dev.pwr.sleep = .s1Entering → t.dev.pwr.sleep = (if s.dev.pwr.exitAfter then .s1Leaving else .s1)) ∧
       (s.dev.pwr.sleep = .entering → t.dev.pwr.sleep = (if s.dev.pwr.exitAfter then .leaving else .s2) ∧ t.dev.pwr.lgParked = List.range (linkGroups s.dev) ∧
         t.dev.smt.links = [] ∧ t.dev.pwr.gpioLatched = true ∧ ∀ l < 8 * linkGroups s.dev, (linkAt s.dev l).st = lsActive ∨ (linkAt s.dev l).st = lsP1 → (linkAt t.dev l).st = lsP2) ∧
       t.dev.qm = s.dev.qm ∧ t.dev.maps = s.dev.maps) ∧
   (∀ s tm, mainUp s.dev = true →
     ∃ t, exec (.sleepExitDone .part tm) s = .next t ∧
       (s.dev.pwr.sleep = .s1Leaving ∨ s.dev.pwr.sleep = .leaving → t.dev.pwr.sleep = .s0 ∧ t.dev.pwr.activeAt = tm ∧ t.dev.pwr.unwinding = false) ∧
       (s.dev.pwr.sleep = .leaving → s.dev.pwr.unwinding = false → t.dev.pwr.lgParked = [] ∧
         ∀ l < 8 * linkGroups s.dev, (linkAt s.dev l).st = lsP2 → (linkAt t.dev l).st = lsActive) ∧
       t.dev.maps = s.dev.maps) ∧
   (∀ s path tm v c, (v = 2 ∧ c = .pwrSleepS2 path tm ∨ v = 3 ∧ c = .pwrSleepS3 path tm) → reachable s.dev path 0x90008 = true →
     ∃ t, exec c s = .next t ∧ fld (rd t.dev 0x90008) 0 2 = v ∧
       (v = 3 → s.dev.kpr.state = 2 → s.dev.clo.ready = true → t.dev.kpr.shutdown = true ∧ t.dev.kpr.s3 = true) ∧ (v = 2 → t.dev.kpr = s.dev.kpr) ∧ t.dev.maps = s.dev.maps) ∧
   (∀ s path, reachable s.dev path 0x90018 = true → s.dev.pwr.aon = true → inS2 s.dev = false →
     ∃ t, exec (.pwrPadRelease path) s = .next t ∧ t.dev.pwr.gpioLatched = false ∧ t.dev = { s.dev with pwr := t.dev.pwr })) ∧
  ((∀ s lg tm a, tget s.dev.hl.groupIdle lg = some a → mainUp s.dev = true → awake s.dev = true → lg < linkGroups s.dev → parkMs s.dev 0 ≠ 0 → a + 1000000 * parkMs s.dev 0 ≤ tm →
     s.dev.pwr.lgParked.contains lg = false → parkRun s.dev (.lg lg) = none → groupBound s.dev lg = false → s.dev.kpr.flush = none → s.dev.clo.ready = true →
     (∀ i < 8, (linkAt s.dev (8 * lg + i)).st = lsP1) →
     ∃ t, exec (.lgParkTimer lg tm) s = .next t ∧ t.dev.pwr.parking = s.dev.pwr.parking ++ [⟨.lg lg, false, tm, false, false⟩] ∧
       t.dev = { s.dev with pwr := { s.dev.pwr with parking := t.dev.pwr.parking, activeAt := t.dev.pwr.activeAt }, io := { s.dev.io with now := t.dev.io.now, stood := t.dev.io.stood } }) ∧
   (∀ s port tm, mainUp s.dev = true → hasEth s.dev port = true → ethHeld s.dev port = false → inS2 s.dev = false → parkMs s.dev 1 ≠ 0 →
     tgetD s.dev.pwr.ethLast port 0 + 1000000 * parkMs s.dev 1 ≤ tm → s.dev.pwr.ethParked.contains port = false → parkRun s.dev (.eth port) = none →
     ∃ t, exec (.ethParkTimer port tm) s = .next t ∧ t.dev.pwr.parking = s.dev.pwr.parking ++ [⟨.eth port, false, tm, false, false⟩] ∧
       t.dev = { s.dev with pwr := { s.dev.pwr with parking := t.dev.pwr.parking, activeAt := t.dev.pwr.activeAt }, io := { s.dev.io with now := t.dev.io.now, stood := t.dev.io.stood } }) ∧
   (∀ s port tm, mainUp s.dev = true → hasPcx s.dev port = true → pcxHeld s.dev port = false → parkMs s.dev 2 ≠ 0 →
     tgetD s.dev.pwr.pcxLast port 0 + 1000000 * parkMs s.dev 2 ≤ tm → s.dev.pwr.pcxParked.contains port = false → parkRun s.dev (.pcx port) = none →
     ∃ t, exec (.pcxParkTimer port tm) s = .next t ∧ t.dev.pwr.parking = s.dev.pwr.parking ++ [⟨.pcx port, false, tm, false, false⟩] ∧
       t.dev = { s.dev with pwr := { s.dev.pwr with parking := t.dev.pwr.parking, activeAt := t.dev.pwr.activeAt }, io := { s.dev.io with now := t.dev.io.now, stood := t.dev.io.stood } }) ∧
   (∀ s u tm r, u ≠ .part → mainUp s.dev = true → parkRun s.dev u = some r → r.leaving = false → r.exitAfter = false →
     ∃ t, exec (.sleepEntryDone u tm) s = .next t ∧ parkRun t.dev u = none ∧ t.dev.qm = s.dev.qm ∧
       (match u with
         | .lg g => t.dev.pwr.lgParked = s.dev.pwr.lgParked ++ [g] ∧ ∀ i < 8, (linkAt t.dev (8 * g + i)).st = lsP2
         | .eth n => t.dev.pwr.ethParked = s.dev.pwr.ethParked ++ [n]
         | .pcx n => t.dev.pwr.pcxParked = s.dev.pwr.pcxParked ++ [n]
         | .part => True)) ∧
   (∀ s u tm r, u ≠ .part → mainUp s.dev = true → parkRun s.dev u = some r → r.leaving = true →
     ∃ t, exec (.sleepExitDone u tm) s = .next t ∧ parkRun t.dev u = none ∧ t.dev.maps = s.dev.maps ∧ t.dev.pwr.lgParked = s.dev.pwr.lgParked))

/-- CLK_LOSS (R470), XTAL_LOST, RC_TRIM (R471), KLINK_RESYNC (R20, R442, R443), KLINK_PF_TIMEOUT (R443, R484): with the keeper link down the main die sees the bank as it
was, and a VDDC setting that waited crosses the link when it is back. -/
def Obligations.ClocksAndKeeperLinkComplete : Prop :=
  (∀ s lock tm, s.dev.kpr.state = 2 → s.dev.pwr.aon = true → s.dev.pwr.pllLock = true → s.dev.kpr.flush = none →
    ∃ t, exec (.clkLoss lock tm) s = .next t ∧
      (s.dev.kpr.pf = true → t.dev.pwr.pllLock = false ∧ t.dev.pwr.holdover = true ∧ t.dev.pwr.clkLoss = satInc 8 s.dev.pwr.clkLoss ∧
        t.dev.sil.inboxMain = s.dev.sil.inboxMain ++ [⟨.clkLoss, [b2n lock]⟩] ∧ t.dev.kpr = s.dev.kpr) ∧
      (s.dev.kpr.pf = false → s.dev.clo.ready = true → listArmed s.dev = true → s.dev.pwr.klinkUp = true → s.dev.sec.lowering = false →
        t.dev.pwr.pllLock = false ∧ t.dev.pwr.holdover = true ∧ t.dev.pwr.clkLoss = satInc 8 s.dev.pwr.clkLoss ∧
        t.dev.sil.inboxMain = s.dev.sil.inboxMain ++ [⟨.clkLoss, [b2n lock]⟩] ∧ t.dev.kpr = { s.dev.kpr with state := 3, flush := some (3, tm), lastCause := 3 })) ∧
  (∀ s tm, s.dev.kpr.running = true →
    ∃ t, exec (.xtalLost tm) s = .next t ∧ t.dev.thm = { s.dev.thm with xtalOk := false, xtalLost := true } ∧
      t.dev.sil.inbox = s.dev.sil.inbox ++ [(⟨.xtalLost, []⟩, false)] ∧ t.dev.kpr = s.dev.kpr ∧ t.dev.pwr = { s.dev.pwr with activeAt := t.dev.pwr.activeAt }) ∧
  (∀ s temp xtal tm, s.dev.kpr.running = true →
    ∃ t, exec (.rcTrim temp xtal tm) s = .next t ∧ t.dev.thm = { s.dev.thm with trimTemp := temp, rcTrim := rcTrimAt temp, xtalOk := xtal } ∧
      t = { s with dev := { s.dev with thm := t.dev.thm, io := { s.dev.io with now := t.dev.io.now, stood := t.dev.io.stood }, pwr := { s.dev.pwr with activeAt := t.dev.pwr.activeAt } } }) ∧
  (∀ s crc tm, s.dev.pwr.aon = true → s.dev.pwr.klinkUp = true →
    ∃ t, exec (.klinkResync false crc tm) s = .next t ∧ t.dev.pwr.klinkUp = false ∧ t.dev.clo = { s.dev.clo with bank := some s.dev.hld } ∧ t.dev.pwr.klinkResync = satInc 8 s.dev.pwr.klinkResync ∧
      t.dev.pwr.klinkCrc = satAdd 16 s.dev.pwr.klinkCrc crc ∧ t.dev.sil.bar0.frozen = false ∧ t.dev.kpr = s.dev.kpr ∧ t.dev.maps = s.dev.maps) ∧
  (∀ s crc tm, s.dev.pwr.aon = true →
    ∃ t, exec (.klinkResync true crc tm) s = .next t ∧
      (s.dev.kpr.state ≠ 2 → t.dev.pwr.klinkUp = true ∧ t.dev.clo.bank = none ∧ t.dev.pwr.voutHeld = none ∧
        t.dev.io.out = s.dev.io.out ++ (match s.dev.pwr.voutHeld with | some mv => [.pmbus 0x43 0x21 mv] | none => []) ∧ t.dev.pwr.klinkDownAt = none ∧ t.dev.pwr.klinkCrc = satAdd 16 s.dev.pwr.klinkCrc crc ∧ t.dev.kpr = s.dev.kpr) ∧
      (s.dev.kpr.state = 2 → s.dev.kpr.flush = none → s.dev.kpr.pf = true → s.dev.clo.ready = true → listArmed s.dev = true → s.dev.sec.lowering = false →
        t.dev.pwr.klinkUp = true ∧ t.dev.kpr = { s.dev.kpr with state := 3, flush := some (0, tm), lastCause := 0 })) ∧
  (∀ s tm, (s.dev.kpr.pf = true ∧ ∃ a, s.dev.pwr.klinkDownAt = some a ∧ a + 1000000 ≤ tm) ∨ (∃ a, s.dev.thm.tripAt = some a ∧ a + 1000000 ≤ tm) → s.dev.pwr.klinkUp = false → s.dev.kpr.state = 2 → s.dev.kpr.flush = none →
    ∃ t, exec (.klinkPfTimeout tm) s = .next t ∧ t.dev.kpr.ken = [] ∧ t.dev.kpr.kpg = [] ∧ t.dev.pwr.aon = false ∧ t.dev.kpr.flush = none ∧
      (s.dev.kpr.pf = true → t.dev.kpr.state = 0 ∧ t.dev.kpr.restart = some 1 ∧ t.dev.kpr.pf = false) ∧
      (s.dev.kpr.pf = false → t.dev.kpr.state = 5 ∧ t.dev.kpr.restart = none ∧ t.dev.thm.restartFrom = some tm))

/-! ### Power loss -/

/-- VIN_DROP, VIN_GLITCH (R304, R541), POWER_FAIL (R304, R305, R309), FLUSH_DONE (R307, R310), VIN_RETURN (R309, R564), KEEPER_WDOG_EXPIRY, HEARTBEAT (R310, R441):
how a power loss goes, with the flush list armed and without. KPR_CTRL_WARM (R327, R329, R464), KPR_CTRL_SHUTDOWN and CLEAN_SHUTDOWN_DONE (R320), JNL_PAGE_TIMER
(R316), CHECKPOINT_TIMER and CHECKPOINT_DONE (R317-R319). -/
def Obligations.PowerFailAndShutdownComplete : Prop :=
  ((∀ s mv tm, s.dev.kpr.running = true → mv < pfThresh s.dev → s.dev.kpr.filterAt = none → s.dev.kpr.state ≠ 0 → s.dev.kpr.state ≠ 1 →
     ∃ t, exec (.vinDrop mv tm) s = .next t ∧ t.dev.kpr = { s.dev.kpr with vinMv := mv, vinOkSince := none, filterAt := some tm } ∧ t.dev.maps = s.dev.maps ∧ t.dev.sil = s.dev.sil) ∧
   (∀ s mv tm, s.dev.kpr.running = true → mv < pfThresh s.dev → s.dev.kpr.filterAt = none → s.dev.kpr.state = 1 →
     ∃ t, exec (.vinDrop mv tm) s = .next t ∧ t.dev.kpr.state = 0 ∧ t.dev.kpr.fet = false ∧ t.dev.kpr.ken = []) ∧
   (∀ s mv tm a, s.dev.kpr.filterAt = some a → s.dev.kpr.pf = false → pfThresh s.dev ≤ mv → tm < a + 1000 * pfFilter s.dev →
     ∃ t, exec (.vinGlitch mv tm) s = .next t ∧ t.dev.kpr.glitch = satInc 32 s.dev.kpr.glitch ∧ t.dev.kpr.filterAt = none ∧
       t.dev.kpr = { s.dev.kpr with vinMv := mv, vinOkSince := t.dev.kpr.vinOkSince, filterAt := none, glitch := t.dev.kpr.glitch } ∧
       t = { s with dev := { s.dev with kpr := t.dev.kpr, io := { s.dev.io with now := t.dev.io.now, stood := t.dev.io.stood }, pwr := { s.dev.pwr with activeAt := t.dev.pwr.activeAt } } }) ∧
   (∀ s tm a, s.dev.kpr.running = true → s.dev.kpr.filterAt = some a → s.dev.kpr.pf = false → s.dev.kpr.vinMv < pfThresh s.dev → a + 1000 * pfFilter s.dev ≤ tm → s.dev.kpr.state = 2 →
     ∃ t, exec (.powerFail tm) s = .next t ∧ t.dev.kpr.pf = true ∧ t.dev.kpr.fet = false ∧ t.dev.hld.charging = false ∧
       (s.dev.clo.ready = true → listArmed s.dev = true → s.dev.pwr.klinkUp = true → s.dev.sec.lowering = false →
         t.dev.kpr = { s.dev.kpr with pf := true, fet := false, filterAt := none, vinOkSince := none, buck := true, shutdown := false, state := 3, flush := some (0, tm), lastCause := 0 } ∧
         (⟨.powerFail, [s.dev.kpr.vinMv, s.dev.hld.vhold]⟩, false) ∈ t.dev.sil.inbox ∧ t.dev.maps = s.dev.maps ∧ t.dev.clo = s.dev.clo) ∧
       (listArmed s.dev = false → s.dev.kpr.ken ≠ [] → t.dev.kpr.state = 4 ∧ t.dev.kpr.restart = some 1 ∧ t.dev.kpr.lastResult = 0 ∧ t.dev.pwr.aon = false)) ∧
   (∀ s stopAt tm cause t0, s.dev.kpr.flush = some (cause, t0) → s.dev.kpr.state = 3 → s.dev.kpr.ken ≠ [] →
     ∃ t, exec (.flushDone stopAt tm) s = .next t ∧ t.dev.kpr.state = 4 ∧ t.dev.kpr.restart = (if s.dev.kpr.pf then some 1 else causeAfter cause) ∧ t.dev.kpr.lastResult = 1 ∧
       t.dev.kpr.lastCause = cause ∧ t.dev.kpr.lastDuration = min 0xFFFF ((tm - t0) / 10000) ∧
       (s.dev.clo.ready = true → t.dev.jnl.rescue.finalSeal = stopAt.isNone ∧ s.dev.jnl.tail <+: t.dev.jnl.rescue.tail ∧ t.dev.jnl.rescue.zones = activeEntries s.dev ∧
         t.dev.jnl.rescue = flushed stopAt (layFlush ((dirtyPositions s.dev).take (stopAt.getD (dirtyPositions s.dev).length)) (tick tm s.dev)))) ∧
   (∀ s mv tm, s.dev.kpr.running = true → vinBack s.dev mv = true →
     ∃ t, exec (.vinReturn mv tm) s = .next t ∧ t.dev.kpr.vinMv = mv ∧ t.dev.kpr.filterAt = none ∧
       (s.dev.kpr.state = 5 → t.dev.kpr.fet = true ∧ t.dev.kpr.state = 5) ∧
       (s.dev.kpr.state = 0 → s.dev.kpr.restart = some 1 → t.dev.kpr.state = 1 ∧ t.dev.kpr.pf = false ∧ t.dev.kpr.pwrcyc = (s.dev.kpr.pwrcyc + 1) % 2 ^ 24 ∧ t.dev.rf.lock = false ∧ t.dev.hld.valid = false)) ∧
   (∀ s tm, s.dev.kpr.state = 2 → s.dev.kpr.pf = false → s.dev.kpr.flush = none → s.dev.kpr.lastBeat + 1000000 * wdogMs s.dev < tm → s.dev.clo.ready = true → listArmed s.dev = true →
     s.dev.pwr.klinkUp = true → s.dev.sec.lowering = false →
     ∃ t, exec (.keeperWdogExpiry tm) s = .next t ∧ t.dev.kpr = { s.dev.kpr with state := 3, flush := some (3, tm), lastCause := 3 } ∧ t.dev.maps = s.dev.maps) ∧
   (∀ s tm, s.dev.kpr.state = 2 → s.dev.pwr.klinkUp = true → s.dev.pwr.pllLock = true →
     ∃ t, exec (.heartbeat tm) s = .next t ∧
       t = { s with dev := { s.dev with kpr := { s.dev.kpr with lastBeat := tm }, io := { s.dev.io with now := t.dev.io.now, stood := t.dev.io.stood }, pwr := { s.dev.pwr with activeAt := t.dev.pwr.activeAt } } })) ∧
  ((∀ s path tm, reachable s.dev path 0x100008 = true → s.dev.kpr.state = 2 → s.dev.clo.ready = true → listArmed s.dev = true → s.dev.pwr.klinkUp = true → s.dev.sec.lowering = false →
     ∃ t, exec (.kprCtrlWarm path tm) s = .next t ∧ t.dev.kpr = { s.dev.kpr with state := 3, flush := some (4, tm), lastCause := 4 } ∧ t.dev.maps = s.dev.maps) ∧
   (∀ s tm, reachable s.dev .mgmt 0x100008 = true → s.dev.kpr.state = 5 → vinOk s.dev = true →
     ∃ t, exec (.kprCtrlWarm .mgmt tm) s = .next t ∧ t.dev.kpr.state = 1 ∧ t.dev.kpr.restart = some (if s.dev.kpr.s3 then 2 else 6) ∧ t.dev.kpr.ken = [0] ∧ t.dev.thm.lockout = false) ∧
   (∀ s path tm, reachable s.dev path 0x100008 = true → s.dev.kpr.state = 2 → s.dev.clo.ready = true →
     ∃ t, exec (.kprCtrlShutdown path tm) s = .next t ∧ t.dev.kpr = { s.dev.kpr with shutdown := true } ∧ t.dev.qm = s.dev.qm ∧ t.dev.maps = s.dev.maps) ∧
   (∀ s tm, s.dev.kpr.state = 2 → s.dev.kpr.shutdown = true → s.dev.kpr.pf = false → s.dev.qm.cmds = [] → programming s.dev = false → s.dev.kpr.ken ≠ [] → s.dev.clo.ready = true →
     ∃ t c, exec (.cleanShutdownDone tm) s = .next t ∧ t.dev.kpr.state = 4 ∧ t.dev.kpr.restart = none ∧ t.dev.kpr.lastResult = 0 ∧ t.dev.jnl.tail = [] ∧ t.dev.jnl.writing = none ∧
       t.dev.jnl.rescue.finalSeal = true ∧ t.dev.jnl.rescue.unarmed = true ∧ (t.dev.jnl.ckpt0 = some c ∨ t.dev.jnl.ckpt1 = some c) ∧ c.image = s.dev.maps) ∧
   (∀ s tm a, s.dev.jnl.tailAt = some a → mainUp s.dev = true → s.dev.kpr.flush = none → s.dev.jnl.tail ≠ [] → a + 100000 ≤ tm ∨ 512 ≤ tailRecords s.dev.jnl.tail →
     ∃ t, exec (.jnlPageTimer ⟨[], tm⟩) s = .next t ∧ t.dev.jnl.prog = s.dev.jnl.prog ++ s.dev.jnl.tail ∧ t.dev.qm = s.dev.qm ∧
       (3072 ≤ journalMib s.dev → s.dev.jnl.trimmed + s.dev.jnl.pages.length + cdiv (tailRecords s.dev.jnl.tail) 512 < 64 * journalMib s.dev →
         t.dev.jnl.tail = [] ∧ t.dev.jnl.tailAt = none ∧ t.dev.jnl.seq = s.dev.jnl.seq ∧ t.dev.maps = s.dev.maps ∧ t.dev.med = s.dev.med)) ∧
   (∀ s tm, mainUp s.dev = true → s.dev.clo.ready = true → s.dev.kpr.pf = false → s.dev.kpr.flush = none → s.dev.jnl.writing = none → ckptDue tm s.dev = true →
     ∃ t w, exec (.checkpointTimer tm) s = .next t ∧ t.dev.jnl.writing = some w ∧ w.set = ckptSet s.dev ∧ w.begin = s.dev.jnl.seq ∧ w.beganAt = tm ∧
       t.dev.jnl.seq = s.dev.jnl.seq + 1 ∧ t.dev.jnl.ckpt0 = s.dev.jnl.ckpt0 ∧ t.dev.jnl.ckpt1 = s.dev.jnl.ckpt1 ∧ t.dev.maps = s.dev.maps) ∧
   (∀ s tm w, mainUp s.dev = true → s.dev.kpr.pf = false → s.dev.kpr.flush = none → s.dev.jnl.writing = some w →
     ∃ t c, exec (.checkpointDone ⟨[], tm⟩) s = .next t ∧ t.dev.jnl.writing = none ∧ c.image = s.dev.maps ∧ c.num = w.num ∧ c.begin = w.begin ∧ c.readable = true ∧
       (if w.set = 0 then t.dev.jnl.ckpt0 = some c ∧ t.dev.jnl.ckpt1 = s.dev.jnl.ckpt1 else t.dev.jnl.ckpt1 = some c ∧ t.dev.jnl.ckpt0 = s.dev.jnl.ckpt0) ∧
       (t.dev.jnl.ckpt0 = none ∨ t.dev.jnl.ckpt1 = none → t.dev.jnl.tail = [] ∧ t.dev.maps = s.dev.maps)))

/-- CEILING_RECOMPUTE (R293, R294), HOLDUP_SHORT_TIMER (R295), HLD_CTRL_CAL, HLD_CAL_SCHEDULE, HLD_CAL_DONE, HLD_CAL_ABORT (R298-R300), HLD_CTRL_BLEED_SET,
HLD_CTRL_BLEED_CLEAR, BLEED_DONE (R303), LEAKAGE_CHECK (R302), ADC_SAMPLE (R301, R535). The result of a refused scheduled measurement and the rounding of a measured capacitance are the model's (notes/assumptions/46.md, 75.md). -/
def Obligations.HoldupBankComplete : Prop :=
  (∀ s tm, mainUp s.dev = true → s.dev.clo.ceilDue ≤ tm →
    ∃ t, exec (.ceilingRecompute tm) s = .next t ∧ t.dev.clo.ceilDue = tm + 100000 ∧ t.dev.clo.ceil = ceilingNow t.dev ∧ ((bankSeen s.dev).valid = false → t.dev.clo.ceil = 0) ∧
      t.dev.kpr = s.dev.kpr ∧ t.dev.qm = s.dev.qm) ∧
  (∀ s tm a, s.dev.clo.shortSince = some a → mainUp s.dev = true → a + 100000000 < tm → s.dev.clo.ceil < ackedDirty s.dev →
    ∃ t, exec (.holdupShortTimer tm) s = .next t ∧ t.dev.sil.inboxMain = s.dev.sil.inboxMain ++ [⟨.holdupShort, [ackedDirty s.dev / 1048576, s.dev.clo.ceil / 1048576]⟩] ∧
      t.dev.clo = { s.dev.clo with shortSince := some (tm + 900000000) } ∧ t.dev.maps = s.dev.maps) ∧
  (∀ s path tm, reachable s.dev path 0x101004 = true → s.dev.hld.calSt ≠ 2 →
    ∃ t, exec (.hldCtrlCal path tm) s = .next t ∧ (calBlock tm s.dev = 0 → t.dev.hld.calSt = 2 ∧ t.dev.hld.soft = true ∧ t.dev.hld.charging = false) ∧
      (calBlock tm s.dev ≠ 0 → t.dev.hld = { s.dev.hld with result := 2, reason := calBlock tm s.dev }) ∧ t.dev.kpr = s.dev.kpr ∧ t.dev.clo = s.dev.clo) ∧
  (∀ s tm, s.dev.kpr.running = true → s.dev.hld.calSt ≠ 2 → s.dev.hld.first = true ∨ s.dev.hld.due.any (fun a => decide (a ≤ tm)) = true →
    ∃ t, exec (.hldCalSchedule tm) s = .next t ∧ (calBlock tm s.dev = 0 → t.dev.hld.calSt = 2 ∧ t.dev.hld.soft = false ∧ t.dev.hld.charging = false) ∧
      (calBlock tm s.dev ≠ 0 → t.dev.hld.calSt = 1 ∧ t.dev.hld.cap = s.dev.hld.cap ∧ t.dev.hld.valid = s.dev.hld.valid) ∧ t.dev.kpr = s.dev.kpr) ∧
  (∀ s v1 v2 on off cap esr tm, s.dev.kpr.running = true → s.dev.hld.calSt = 2 → cap = calCap v1 v2 → esr = calEsr on off →
    ∃ t, exec (.hldCalDone (v1, v2) (on, off) tm) s = .next t ∧ t.dev.hld.calSt = 0 ∧
      ((if s.dev.hld.valid then s.dev.hld.cap else 1000) ≤ 10 * cap → cap ≤ 10 * (if s.dev.hld.valid then s.dev.hld.cap else 1000) → esr < 10000 →
        t.dev.hld.cap = cap ∧ t.dev.hld.esr = esr ∧ t.dev.hld.valid = true ∧ t.dev.hld.validAt = tm ∧ t.dev.hld.result = 1 ∧ (⟨.calDone, [cap, esr]⟩, false) ∈ t.dev.sil.inbox) ∧
      (10000 ≤ esr → t.dev.hld.cap = s.dev.hld.cap ∧ t.dev.hld.valid = s.dev.hld.valid ∧ t.dev.hld.result = 3 ∧ t.dev.hld.reason = 6 ∧ (⟨.calAbort, [6]⟩, false) ∈ t.dev.sil.inbox)) ∧
  (∀ s tm, s.dev.kpr.running = true → s.dev.hld.calSt = 2 → s.dev.kpr.pf = false →
    ∃ t, exec (.hldCalAbort true tm) s = .next t ∧ t.dev.hld.calSt = 0 ∧ t.dev.hld.result = 3 ∧ t.dev.hld.reason = 5 ∧ t.dev.hld.cap = s.dev.hld.cap ∧
      t.dev.sil.inbox = s.dev.sil.inbox ++ [(⟨.calAbort, [5]⟩, false)]) ∧
  (∀ s path tm, reachable s.dev path 0x101004 = true → s.dev.hld.bleed = false → s.dev.kpr.pf = false →
    ∃ t, exec (.hldCtrlBleedSet path tm) s = .next t ∧ t.dev.hld.bleed = true ∧ t.dev.hld.bleeding = true ∧ (mainUp s.dev = true → s.dev.clo.bank = none → t.dev.clo.ceil = 0) ∧ t.dev.kpr = s.dev.kpr) ∧
  (∀ s path tm, reachable s.dev path 0x101004 = true → s.dev.hld.bleed = true →
    ∃ t, exec (.hldCtrlBleedClear path tm) s = .next t ∧ t.dev.hld = { s.dev.hld with bleed := false, bleeding := false, discharging := false, safe := false, charging := t.dev.hld.charging } ∧
      t.dev.kpr = s.dev.kpr ∧ t.dev.clo = s.dev.clo) ∧
  (∀ s mv tm, s.dev.kpr.running = true → s.dev.hld.bleeding = true → s.dev.hld.discharging = true → mv < 5000 →
    ∃ t, exec (.bleedDone mv tm) s = .next t ∧ t.dev.hld = { s.dev.hld with discharging := false, safe := true, vhold := mv } ∧ t.dev.sil.inbox = s.dev.sil.inbox ++ [(⟨.bleedDone, [mv]⟩, false)]) ∧
  (∀ s tm, s.dev.kpr.running = true → s.dev.hld.calSt ≠ 2 → s.dev.hld.leakDue ≤ tm →
    ∃ t, exec (.leakageCheck tm) s = .next t ∧ t.dev.hld = { s.dev.hld with leakDue := tm + patrolDays s.dev * dayNs } ∧ t.dev.kpr = s.dev.kpr) ∧
  (∀ s chan code tm, s.dev.kpr.running = true → chan < 4 →
    (chan = 0 → beyondMax (adcMv (s.dev.hld.chans.getD 0 {}).coarse (code % 262144)) = true → exec (.adcSample chan code tm) s = .fault .absoluteMaximum) ∧
    (chan ≠ 0 ∨ beyondMax (adcMv (s.dev.hld.chans.getD 0 {}).coarse (code % 262144)) = false →
      ∃ t c, exec (.adcSample chan code tm) s = .next t ∧ t.dev.hld.chans[chan]? = some c ∧ c.code = code % 262144 ∧ t.dev.hld.cap = s.dev.hld.cap ∧
        (chan = 1 → (s.dev.hld.chans.getD 1 {}).next = false → t.dev.hld.vhold = adcMv (s.dev.hld.chans.getD 1 {}).coarse (code % 262144)) ∧ t.dev.kpr = s.dev.kpr))

/-! ### Starts -/

/-- COLD_RESET (R327, R328), VIN_STABLE, INRUSH_DONE, RAIL_POWER_GOOD, ROOT_PLL_LOCK (R445, R540), RAIL_PG_TIMEOUT, RAIL_SEQUENCE_RESTART, VIN_ABOVE_RANGE (R541,
R535). RAIL_FAULT (R446), RAIL_POWER_DOWN_STEP (R542), ALL_SUPPLIES_LOST (R461, R501): the rails go down; what flash holds stays. That the part then stays off after
RAIL_FAULT is the model's choice (notes/assumptions/24.md). -/
def Obligations.RailsComplete : Prop :=
  ((∀ s vin vaux tm, s.dev.kpr.running = false →
     (beyondMax vin = true → exec (.coldReset vin vaux tm) s = .fault .absoluteMaximum) ∧
     (beyondMax vin = false → vaux = true ∨ 9000 ≤ vin →
       ∃ t, exec (.coldReset vin vaux tm) s = .next t ∧ t.dev.kpr.running = true ∧ t.dev.kpr.state = 0 ∧ t.dev.kpr.restart = some 0 ∧ t.dev.kpr.pwrcyc = (s.dev.kpr.pwrcyc + 1) % 2 ^ 24 ∧
         t.dev.rf.lock = false ∧ t.dev.hld.valid = false ∧ t.dev.qm = {} ∧ t.dev.jnl.flash = s.dev.jnl.flash ∧ t.dev.jnl.prog = s.dev.jnl.prog)) ∧
   (∀ s mv tm, s.dev.kpr.running = true → 14000 < mv →
     (beyondMax mv = true → exec (.vinAboveRange mv tm) s = .fault .absoluteMaximum) ∧
     (beyondMax mv = false → ∃ t, exec (.vinAboveRange mv tm) s = .next t ∧ t.dev.kpr.vinMv = mv ∧ t.dev.kpr.vinOkSince = none ∧
       (s.dev.kpr.state = 1 → t.dev.kpr.state = 0 ∧ t.dev.kpr.fet = false ∧ t.dev.kpr.ken = []) ∧ (s.dev.kpr.state ≠ 1 → t.dev.kpr = { s.dev.kpr with vinMv := mv, vinOkSince := none }))) ∧
   (∀ s mv tm a, s.dev.kpr.running = true → s.dev.kpr.state = 0 → s.dev.kpr.seqFails < 3 → s.dev.kpr.restartAt = none → s.dev.kpr.restart ≠ some 1 → s.dev.kpr.seqLost = false → 9000 ≤ mv → mv ≤ 14000 →
     s.dev.kpr.vinOkSince = some a → a + 2000000 ≤ tm →
     ∃ t, exec (.vinStable mv tm) s = .next t ∧ t.dev.kpr = { s.dev.kpr with vinMv := mv, state := 1 } ∧ t.dev.maps = s.dev.maps) ∧
   (∀ s tm, s.dev.kpr.state = 1 → s.dev.kpr.ken = [] → s.dev.kpr.restartAt = none →
     ∃ t, exec (.inrushDone tm) s = .next t ∧ t.dev.kpr = { s.dev.kpr with fet := true, ken := [0], kpg := [], railAt := tm } ∧ t.dev.io.out = s.dev.io.out ++ [.pmbus 0x43 0x21 750]) ∧
   (∀ s rail tm, s.dev.kpr.state = 1 → rail ∈ s.dev.kpr.ken → rail ∉ s.dev.kpr.kpg →
     ∃ t, exec (.railPowerGood rail tm) s = .next t ∧
       t.dev.kpr = { s.dev.kpr with kpg := s.dev.kpr.kpg ++ [rail], ken := if rail < 7 then s.dev.kpr.ken ++ [rail + 1] else s.dev.kpr.ken, railAt := tm } ∧ t.dev.sil = s.dev.sil) ∧
   (∀ s tm, s.dev.kpr.state = 1 → s.dev.kpr.kpg.length = 8 →
     ∃ t, exec (.rootPllLock tm) s = .next t ∧ t.dev.kpr.state = 2 ∧ t.dev.kpr.cause = s.dev.kpr.restart.getD s.dev.kpr.cause ∧ t.dev.kpr.restart = none ∧ t.dev.pwr.aon = true ∧
       t.dev.pwr.klinkUp = true ∧ t.dev.pwr.pllLock = true ∧ t.dev.clo.phase = 1 ∧ t.dev.maps = s.dev.maps) ∧
   (∀ s tm, s.dev.kpr.state = 2 → s.dev.pwr.aon = true → s.dev.pwr.pllLock = false →
     ∃ t, exec (.rootPllLock tm) s = .next t ∧ t.dev.pwr.pllLock = true ∧ t.dev.pwr.holdover = false ∧ t.dev.kpr = s.dev.kpr) ∧
   (∀ s vout tm n, s.dev.kpr.state = 1 → (s.dev.kpr.ken.find? fun n => !s.dev.kpr.kpg.contains n) = some n → s.dev.kpr.railAt + 3000000 ≤ tm →
     ∃ t, exec (.railPgTimeout vout tm) s = .next t ∧ t.dev.kpr.ken = [] ∧ t.dev.kpr.kpg = [] ∧ t.dev.kpr.seqFails = s.dev.kpr.seqFails + 1 ∧
       (s.dev.kpr.seqFails < 2 → t.dev.kpr.state = 1 ∧ t.dev.kpr.restartAt = some (tm + 1000000000)) ∧ (2 ≤ s.dev.kpr.seqFails → t.dev.kpr.state = 0 ∧ t.dev.kpr.restartAt = none) ∧
       t.dev.sil.inbox = s.dev.sil.inbox ++ [(⟨.railFault, [n + 1, vout]⟩, false)]) ∧
   (∀ s mv tm a, s.dev.kpr.state = 1 → 9000 ≤ mv → mv ≤ 14000 → s.dev.kpr.restartAt = some a → a ≤ tm →
     ∃ t, exec (.railSequenceRestart mv tm) s = .next t ∧ t.dev.kpr = { s.dev.kpr with vinMv := mv, fet := true, ken := [0], kpg := [], railAt := tm, restartAt := none })) ∧
  ((∀ s rail vout tm, s.dev.kpr.state = 1 ∨ s.dev.kpr.state = 2 ∨ s.dev.kpr.state = 3 → rail ∈ s.dev.kpr.kpg →
     ∃ t, exec (.railFault rail vout tm) s = .next t ∧ t.dev.kpr.state = 5 ∧ t.dev.kpr.restart = none ∧ t.dev.kpr.ken = [] ∧ t.dev.kpr.kpg = [] ∧ t.dev.kpr.flush = none ∧
       t.dev.pwr.aon = false ∧ t.dev.qm.cmds = [] ∧ t.dev.jnl.flash = s.dev.jnl.flash ∧ t.dev.jnl.prog = s.dev.jnl.prog) ∧
   (∀ s tm, s.dev.kpr.state = 4 →
     ∃ t, exec (.railPowerDownStep tm) s = .next t ∧
       (∀ n, s.dev.kpr.ken.getLast? = some n → t.dev.kpr.ken = s.dev.kpr.ken.filter (fun x => decide (x ≠ n)) ∧ t.dev.kpr.state = 4 ∧ t.dev.kpr.downFrom = some tm) ∧
       (s.dev.kpr.ken = [] → s.dev.kpr.restart = none → t.dev.kpr.state = 5) ∧
       (s.dev.kpr.ken = [] → s.dev.kpr.restart = some 1 → t.dev.kpr.state = 0 ∧ t.dev.kpr.pf = false) ∧
       (∀ c, s.dev.kpr.ken = [] → s.dev.kpr.restart = some c → c ≠ 1 → vinOk s.dev = true → t.dev.kpr.state = 1 ∧ t.dev.kpr.ken = [0] ∧ t.dev.kpr.restart = some c)) ∧
   (∀ s tm, s.dev.kpr.running = true →
     ∃ t, exec (.allSuppliesLost tm) s = .next t ∧ t.dev.kpr.running = false ∧ t.dev.kpr.state = 0 ∧ t.dev.kpr.pwrcyc = s.dev.kpr.pwrcyc ∧ t.dev.pwr.aon = false ∧
       t.dev.jnl.flash = s.dev.jnl.flash ∧ t.dev.jnl.prog = s.dev.jnl.prog ∧ t.dev.sil.slots = s.dev.sil.slots ∧ t.dev.sil.rseq = s.dev.sil.rseq ∧ t.dev.sec.sl1 = s.dev.sec.sl1))

/-- SRAM_FILL_DONE, WARMUP_DONE, WARMUP_TIMEOUT (R321, R489), HBM_FILL_DONE (R407, R408), BOOT_VERIFY_DONE (R435, R436), DISCOVERY_DONE (R322), CHECKPOINT_LOAD_DONE
(R323, R324), JOURNAL_REPLAY_DONE (R312, R315), RESCUE_INTAKE_DONE (R323, R325): the phases of a start. Which system headers DISCOVERY_DONE finds is the model's reading (notes/assumptions/77.md). -/
def Obligations.StartPhasesComplete : Prop :=
  (∀ s temp tm, atPhase s.dev 1 = true → s.dev.pwr.pllLock = true → s.dev.id.bscan = false →
    ∃ t, exec (.sramFillDone temp tm) s = .next t ∧ t.dev.clo.phase = (if temp < 0 then 2 else 3) ∧ t.dev.clo.warmFrom = tm ∧ t.dev.kpr = s.dev.kpr) ∧
  (∀ s temp tm, atPhase s.dev 2 = true →
    (0 ≤ temp → ∃ t, exec (.warmupDone temp tm) s = .next t ∧ t.dev.clo = { s.dev.clo with phase := 3 } ∧ t.dev.sil = s.dev.sil) ∧
    (temp < 0 → s.dev.clo.warmFrom + 180000000000 ≤ tm → ∃ t, exec (.warmupTimeout temp tm) s = .next t ∧ t.dev.clo = { s.dev.clo with phase := 15 } ∧
      t.dev.sil.inboxMain = s.dev.sil.inboxMain ++ [⟨.warmupTimeout, [twos 32 temp]⟩])) ∧
  (∀ s tm, atPhase s.dev 3 = true →
    ∃ t, exec (.hbmFillDone tm) s = .next t ∧ t.dev.clo.phase = 4 ∧ t.dev.ecc.cmapRes = min 16384 (fld (rd s.dev 0x60004) 0 15) ∧ t.dev.maps = s.dev.maps) ∧
  (∀ s i pools tm, atPhase s.dev 4 = true → s.dev.sec.lowering = false → s.dev.sec.erasePend = false → tget s.dev.sec.slots 0 = none → tget s.dev.sec.slots 1 = none →
    (imagePasses s.dev i = true → ∃ t, exec (.bootVerifyDone (some i) none pools tm) s = .next t ∧ t.dev.clo.phase = 5 ∧ t.dev.clo.image = 0 ∧ t.dev.sec.slot = i.slot ∧
      t.dev.sec.svn = i.svn ∧ t.dev.pwr.padsSafe = false ∧ ⟨.bootImage, [0, i.svn, i.version]⟩ ∈ t.dev.sil.inboxMain) ∧
    (imagePasses s.dev i = false → ∃ t, exec (.bootVerifyDone (some i) none pools tm) s = .next t ∧ t.dev.clo.phase = 15 ∧ ⟨.recoveryFailed, [4]⟩ ∈ t.dev.sil.inboxMain)) ∧
  (∀ s noWear clusters foreign tm, atPhase s.dev 5 = true →
    ∃ t, exec (.discoveryDone ⟨noWear, foreign⟩ clusters tm) s = .next t ∧
      (headersFound foreign (discovered noWear clusters (tick tm s.dev)) = true → t.dev.clo.phase = 6 ∧ t.dev.maps = s.dev.maps) ∧
      (headersFound foreign (discovered noWear clusters (tick tm s.dev)) = false → t.dev.clo.phase = 9 ∧ t.dev.clo.ready = true ∧ t.dev.jnl.formatted = true ∧ t.dev.sec.store = [])) ∧
  (∀ s ok0 ok1 tm a b, atPhase s.dev 6 = true → s.dev.jnl.ckpt0 = some a → s.dev.jnl.ckpt1 = some b → a.num < b.num →
    ∃ t, exec (.checkpointLoadDone ok0 ok1 tm) s = .next t ∧ (ok1 = true → t.dev.maps = b.image ∧ t.dev.jnl.replayFrom = b.begin ∧ t.dev.clo.phase = 7 ∧ t.dev.clo.ckptOld = false) ∧
      (ok0 = true → ok1 = false → t.dev.maps = a.image ∧ t.dev.jnl.replayFrom = a.begin ∧ t.dev.clo.phase = 7 ∧ t.dev.clo.ckptOld = true ∧
        t.dev.sil.inboxMain = s.dev.sil.inboxMain ++ [⟨.ckptFallback, [a.num]⟩]) ∧
      (ok0 = false → ok1 = false → t.dev.clo.phase = 15 ∧ t.dev.sil.inboxMain = s.dev.sil.inboxMain ++ [⟨.recoveryFailed, [6]⟩])) ∧
  (∀ s gap repaired unknown tm, atPhase s.dev 7 = true →
    ∃ t, exec (.journalReplayDone gap repaired unknown tm) s = .next t ∧ t.dev.clo.phase = 8 ∧
      t.dev.jnl.recRecords = tailRecords (replayable s.dev.jnl.replayFrom gap (s.dev.jnl.prog ++ s.dev.jnl.rescue.tail)) ∧
      (∀ m, m = applyAll (replayable s.dev.jnl.replayFrom gap (s.dev.jnl.prog ++ s.dev.jnl.rescue.tail)) s.dev.maps →
        (∀ e ∈ m.plots, thas (tfilter s.dev.sec.store fun p _ => thas m.plots p) e.1 = true) → t.dev.maps = m)) ∧
  (∀ s tm, atPhase s.dev 8 = true →
    ∃ t, exec (.rescueIntakeDone tm) s = .next t ∧ t.dev.clo.phase = 9 ∧ t.dev.clo.ready = true ∧ t.dev.jnl.rescue = { unarmed := true } ∧ t.dev.clo.ceilDue = tm)

/-! ### Thermal management and ageing -/

/-- THM_SAMPLE, HBM_SENSOR_READ, PTH_SAMPLE, SENSOR_TIMEOUT (R473-R478, R481-R484): a reading is kept and warned of once per crossing; out of range or late the
sensor has failed; an orderly stop turns away the commands that have not passed their commit point; a trip flushes. -/
def Obligations.ThermalReadingsComplete : Prop :=
  (∀ s sensor temp tm, mainUp s.dev = true → sensor < 48 → sensorPresent s.dev sensor = true → s.dev.thm.failed.contains sensor = false → stale s.dev sensor = false →
    (-600 ≤ temp → temp < 1050 →
      ∃ t, exec (.thmSample sensor temp tm) s = .next t ∧ tget t.dev.thm.temps sensor = some temp ∧ t.dev.kpr = s.dev.kpr ∧ t.dev.qm = s.dev.qm ∧ t.dev.maps = s.dev.maps ∧
        (warnLimit s.dev sensor ≤ temp → s.dev.thm.raised.contains sensor = false → ⟨.thermWarn, [sensor, twos 32 temp]⟩ ∈ t.dev.sil.inboxMain ∧ sensor ∈ t.dev.thm.raised)) ∧
    (temp < -600 ∨ 1500 < temp →
      ∃ t, exec (.thmSample sensor temp tm) s = .next t ∧ sensor ∈ t.dev.thm.failed ∧ tget t.dev.thm.temps sensor = tget s.dev.thm.temps sensor ∧
        ⟨.fallback, [1, 1, sensor]⟩ ∈ t.dev.sil.inboxMain) ∧
    (1050 ≤ temp → temp < 1150 → s.dev.thm.stopping = false → s.dev.thm.tripAt = none → s.dev.kpr.pf = false → s.dev.kpr.flush = none → s.dev.kpr.state = 2 →
      tgetD s.dev.thm.hist sensor [] = [] →
      ∃ t, exec (.thmSample sensor temp tm) s = .next t ∧ t.dev.thm.stopping = true ∧ t.dev.thm.stopCnt = satInc 8 s.dev.thm.stopCnt ∧
        (∀ id c, tget s.dev.qm.cmds id = some c → stoppable c = true → ∃ c', tget t.dev.qm.cmds id = some c' ∧ c'.stage = .done ∧ c'.status = .thermalStop) ∧
        (∀ id c, tget s.dev.qm.cmds id = some c → (∀ e ∈ s.dev.qm.cmds, e.1 = id → stoppable e.2 = false) → tget t.dev.qm.cmds id = some c)) ∧
    (1150 ≤ temp → temp ≤ 1500 → s.dev.thm.tripAt = none → s.dev.kpr.pf = false → s.dev.kpr.flush = none → s.dev.kpr.state = 2 → s.dev.clo.ready = true → listArmed s.dev = true →
      s.dev.pwr.klinkUp = true → s.dev.sec.lowering = false →
      ∃ t, exec (.thmSample sensor temp tm) s = .next t ∧ t.dev.thm.trips = satInc 8 s.dev.thm.trips ∧ t.dev.kpr = { s.dev.kpr with state := 3, flush := some (1, tm), lastCause := 1 })) ∧
  (∀ s temp tm, mainUp s.dev = true → s.dev.thm.failed.contains 48 = false →
    (-600 ≤ temp → temp < 1000 → ∃ t, exec (.hbmSensorRead temp tm) s = .next t ∧ tget t.dev.thm.temps 48 = some temp ∧ t.dev.qm = s.dev.qm ∧ t.dev.kpr = s.dev.kpr) ∧
    (temp < -600 ∨ 1500 < temp → ∃ t, exec (.hbmSensorRead temp tm) s = .next t ∧ 48 ∈ t.dev.thm.failed)) ∧
  (∀ s n temp tm, s.dev.kpr.running = true → n < 4 → s.dev.thm.pthFailed.contains n = false →
    (-600 ≤ temp → temp < 1250 → ∃ t, exec (.pthSample n temp tm) s = .next t ∧ tget t.dev.thm.pth n = some temp ∧ t.dev.kpr = s.dev.kpr ∧ t.dev.qm = s.dev.qm ∧
      (1100 ≤ temp → s.dev.thm.raised.contains (0x100 + n) = false → (⟨.thermWarn, [0x100 + n, twos 32 temp]⟩, false) ∈ t.dev.sil.inbox)) ∧
    (temp < -600 ∨ 1500 < temp → ∃ t, exec (.pthSample n temp tm) s = .next t ∧ n ∈ t.dev.thm.pthFailed ∧ t.dev.kpr = s.dev.kpr)) ∧
  (∀ s sensor tm, (mainUp s.dev = true → sensor < 49 → sensorPresent s.dev sensor = true → stale s.dev sensor = false →
      ∃ t, exec (.sensorTimeout sensor tm) s = .next t ∧ sensor ∈ t.dev.thm.failed ∧ t.dev.kpr = s.dev.kpr) ∧
    (s.dev.kpr.running = true → 0x100 ≤ sensor → sensor < 0x104 →
      ∃ t, exec (.sensorTimeout sensor tm) s = .next t ∧ sensor - 0x100 ∈ t.dev.thm.pthFailed ∧ t.dev.kpr = s.dev.kpr))

/-- THROTTLE_STEP, THERMAL_CEILING_RISE (R479, R480), ORDERLY_STOP_DONE (R482), THERMAL_RESTART (R485), POWER_SAMPLE (R486-R488), AGE_HOUR_TICK (R491, R492),
AGE_BANK_RESET (R494). That a lockout is decided at the time of the restart, and the rounding of a sentinel's drift, are the model's (notes/assumptions/47.md, 75.md). -/
def Obligations.CeilingsStopsAndAgeingComplete : Prop :=
  (∀ s tm a, s.dev.thm.throttleFrom = some a → mainUp s.dev = true → a ≤ tm →
    ∃ t, exec (.throttleStep tm) s = .next t ∧ t.dev.thm.throttleFrom = some (a + 100000000) ∧
      t.dev.thm.ceil = (if s.dev.thm.fellAt.any (fun x => decide (tm < x + 1000000)) ∨ s.dev.thm.ceil = 0 then s.dev.thm.ceil else s.dev.thm.ceil - 1) ∧
      t = { s with dev := { s.dev with thm := t.dev.thm, io := { s.dev.io with now := t.dev.io.now, stood := t.dev.io.stood }, pwr := { s.dev.pwr with activeAt := t.dev.pwr.activeAt } } }) ∧
  (∀ s tm, mainUp s.dev = true → calm s.dev = true → s.dev.thm.throttleFrom = none → s.dev.thm.ceil < fallTarget s.dev → s.dev.thm.calmFrom + 5000000000 ≤ tm →
    s.dev.thm.fellAt.any (fun x => decide (tm < x + 1000000)) = false →
    ∃ t, exec (.thermalCeilingRise tm) s = .next t ∧ t.dev.thm = { s.dev.thm with ceil := s.dev.thm.ceil + 1, calmFrom := tm } ∧
      t = { s with dev := { s.dev with thm := t.dev.thm, io := { s.dev.io with now := t.dev.io.now, stood := t.dev.io.stood }, pwr := { s.dev.pwr with activeAt := t.dev.pwr.activeAt } } }) ∧
  (∀ s tm, s.dev.kpr.state = 2 → s.dev.thm.stopping = true → s.dev.kpr.pf = false → s.dev.kpr.flush = none → s.dev.qm.cmds = [] → programming s.dev = false → s.dev.kpr.ken ≠ [] →
    s.dev.clo.ready = true →
    ∃ t, exec (.orderlyStopDone tm) s = .next t ∧ t.dev.kpr.state = 4 ∧ t.dev.kpr.restart = none ∧ t.dev.thm.stopping = false ∧ t.dev.thm.restartFrom = some tm ∧ t.dev.jnl.tail = [] ∧
      t.dev.jnl.rescue.finalSeal = true ∧ t.dev.jnl.ckpt0 = s.dev.jnl.ckpt0 ∧ t.dev.jnl.ckpt1 = s.dev.jnl.ckpt1) ∧
  (∀ s tm a, s.dev.thm.restartFrom = some a → s.dev.kpr.state = 5 → vinOk s.dev = true → a + 1000000000 * restartWait s.dev ≤ tm → s.dev.thm.lockout = false →
    (∀ n < 4, s.dev.thm.pthFailed.contains n = true ∨ tgetD s.dev.thm.pth n 0 < 850) →
    ∃ t, exec (.thermalRestart tm) s = .next t ∧ t.dev.thm.restartFrom = none ∧
      (stopsInHour s.dev < restartMax s.dev → t.dev.kpr.state = 1 ∧ t.dev.kpr.restart = some 3 ∧ t.dev.kpr.ken = [0] ∧ t.dev.thm.lockout = false) ∧
      (restartMax s.dev ≤ stopsInHour s.dev → t.dev.kpr = s.dev.kpr ∧ t.dev.thm.lockout = true ∧ t.dev.sil.inbox = s.dev.sil.inbox ++ [(⟨.thermLockout, [stopsInHour s.dev]⟩, false)])) ∧
  (∀ s rails vinMw vddcMa busy tm, mainUp s.dev = true →
    ∃ t, exec (.powerSample rails vinMw vddcMa busy tm) s = .next t ∧ t.dev.thm.vinMw = vinMw ∧ t.dev.thm.pw.head? = some (tm, devPower rails) ∧
      (300000 < vddcMa → t.dev.thm.elec ≤ s.dev.thm.elec - 1) ∧ t.dev.thm.ceil = s.dev.thm.ceil ∧ t.dev.kpr = s.dev.kpr ∧ t.dev.qm = s.dev.qm) ∧
  (∀ s freqs tm, mainUp s.dev = true →
    ∃ t, exec (.ageHourTick freqs tm) s = .next t ∧ t.dev.age.lastCell = s.dev.pwr.pl * 16 + bandOf (match thmMax s.dev with | some e => e.2 | none => 0) ∧
      tget t.dev.age.cells t.dev.age.lastCell = some (satInc 32 (tgetD s.dev.age.cells t.dev.age.lastCell 0)) ∧
      (∀ c, c ≠ t.dev.age.lastCell → tget t.dev.age.cells c = tget s.dev.age.cells c) ∧ t.dev.age.bank = s.dev.age.bank ∧
      t = { s with dev := { s.dev with age := t.dev.age, io := { s.dev.io with now := t.dev.io.now, stood := t.dev.io.stood }, pwr := { s.dev.pwr with activeAt := t.dev.pwr.activeAt } } }) ∧
  (∀ s path, reachable s.dev path 0xA1024 = true →
    ∃ t, exec (.ageBankReset path) s = .next t ∧ t.dev.age = { s.dev.age with bank := [], c0From := some (opHours s.dev) } ∧ t.dev = { s.dev with age := t.dev.age, pwr := t.dev.pwr })

/-! ### Security -/

/-- RNG_READY, RNG_HEALTH_FAIL (R422, R423), COMMIT_KA, COMMIT_SIG (R412), RAISE1, RAISE2 (R430, R431), LOWERING_DONE (R433). -/
def Obligations.KeysAndLevelsComplete : Prop :=
  (∀ s, mainUp s.dev = true → 4 ≤ s.dev.clo.phase → s.dev.sec.rngFailed = false →
    ∃ t, exec .rngReady s = .next t ∧ t.dev.sec.rngReady = true ∧ t.dev.sec.nonce.isSome ∧
      t = { s with dev := { s.dev with sec := { s.dev.sec with rngReady := true, nonce := t.dev.sec.nonce }, io := { s.dev.io with draws := t.dev.io.draws } } }) ∧
  (∀ s tm, mainUp s.dev = true → 4 ≤ s.dev.clo.phase → s.dev.sec.rngFailed = false →
    ∃ t, exec (.rngHealthFail tm) s = .next t ∧ t.dev.sec.rngReady = false ∧ t.dev.sec.nonce = none ∧ t.dev.sec.rngFails = satInc 8 s.dev.sec.rngFails ∧
      (t.dev.sec.rngFailed = true ↔ 2 ≤ (s.dev.sec.rngFailAt.filter fun x => decide (tm < x + 1000000000)).length) ∧
      t.dev.sil.inboxMain = s.dev.sil.inboxMain ++ [⟨.rngFail, [satInc 8 s.dev.sec.rngFails]⟩] ∧ t.dev.sec.ka = s.dev.sec.ka ∧ t.dev.sec.sig = s.dev.sec.sig) ∧
  (∀ s path, reachable s.dev path 0x801E0 = true →
    (∃ t, exec (.commitKa path) s = .next t ∧
      (s.dev.sec.ka.isSome → secLevel s.dev ≠ 0 → t.dev.sec = { s.dev.sec with ownResult := 3 }) ∧
      (s.dev.sec.ka = none ∨ secLevel s.dev = 0 → t.dev.sec = (if keyOnCurve (stagedKa s.dev) = true then { s.dev.sec with ka := some (stagedKa s.dev), ownResult := 1 } else { s.dev.sec with ownResult := 2 })) ∧
      t.dev = { s.dev with sec := t.dev.sec, pwr := t.dev.pwr }) ∧
    (∃ t, exec (.commitSig path) s = .next t ∧
      (s.dev.sec.sig.isSome → secLevel s.dev ≠ 0 → t.dev.sec = { s.dev.sec with ownResult := 3 }) ∧
      (s.dev.sec.sig = none ∨ secLevel s.dev = 0 → t.dev.sec = (if keyOnCurve (stagedSig s.dev) = true then { s.dev.sec with sig := some (stagedSig s.dev), ownResult := 1 } else { s.dev.sec with ownResult := 2 })) ∧
      t.dev = { s.dev with sec := t.dev.sec, pwr := t.dev.pwr })) ∧
  (∀ s path v, reachable s.dev path 0x80000 = true →
    (bit v.toNat 16 = true → secLevel s.dev = 0 → s.dev.sec.sig.isSome →
      ∃ t, exec (.raise1 path v) s = .next t ∧ t.dev.sec = { s.dev.sec with sl1 := true } ∧ t.dev.sil.inboxMain = s.dev.sil.inboxMain ++ [⟨.slRaise, [1]⟩] ∧ t.dev.maps = s.dev.maps) ∧
    (bit v.toNat 17 = true → fld v.toNat 24 8 = 0xA5 → secLevel s.dev = 1 →
      ∃ t, exec (.raise2 path v) s = .next t ∧ t.dev.sec = { s.dev.sec with sl2 := true } ∧ secLevel t.dev = 2 ∧ t.dev.sil.inboxMain = s.dev.sil.inboxMain ++ [⟨.slRaise, [2]⟩] ∧
        t.dev.maps = s.dev.maps)) ∧
  (∀ s beds failures tm, mainUp s.dev = true → s.dev.sec.lowering = true → s.dev.kpr.pf = false → s.dev.kpr.ken ≠ [] →
    ∃ t, exec (.loweringDone beds failures tm) s = .next t ∧ t.dev.sec.erasePend = false ∧ t.dev.sec.lowering = false ∧ t.dev.sec.store = [] ∧ t.dev.sec.epoch = s.dev.sec.epoch ∧
      t.dev.kpr.state = 4 ∧ t.dev.kpr.restart = some 0 ∧ t.dev.jnl.flash = [] ∧ t.dev.rf.lock = false ∧ (⟨.slErased, [beds, failures]⟩, false) ∈ t.dev.sil.inbox)

/-- SEC_CMD_LOWER, SEC_CMD_REPLACE_KA, SEC_CMD_REPLACE_SIG, SEC_CMD_ADVANCE_SVN (R432, R433, R437): refused without a signing key or outside their levels; a wrong
signature changes nothing but the result; a right one acts. Each is recorded. The order of the refusals is the model's reading (notes/assumptions/48.md). -/
def Obligations.SignedCommandsComplete : Prop :=
  (∀ s path v n c tm, reachable s.dev path 0x80280 = true → v.toNat % 16 = n → s.dev.sec.lowering = false →
      (n = 1 ∧ c = .secCmdLower path v tm ∨ n = 2 ∧ c = .secCmdReplaceKa path v ∨ n = 3 ∧ c = .secCmdReplaceSig path v ∨ n = 4 ∧ c = .secCmdAdvanceSvn path v) →
    (s.dev.sec.sig = none →
      ∃ t, exec c s = .next t ∧ t.dev.sec = { s.dev.sec with cmdResult := 3, cmdReason := 1, nonce := t.dev.sec.nonce } ∧ ⟨.secCmd, [n, 3, 1]⟩ ∈ t.dev.sil.inboxMain ∧ t.dev.maps = s.dev.maps) ∧
    (∀ k, s.dev.sec.sig = some k → (n = 1 → secLevel s.dev ≠ 1) → (n = 2 ∨ n = 3 → secLevel s.dev = 0) → n ≠ 4 →
      ∃ t, exec c s = .next t ∧ t.dev.sec = { s.dev.sec with cmdResult := 3, cmdReason := 2, nonce := t.dev.sec.nonce } ∧ ⟨.secCmd, [n, 3, 2]⟩ ∈ t.dev.sil.inboxMain ∧ t.dev.maps = s.dev.maps)) ∧
  (∀ s path v tm k nn, reachable s.dev path 0x80280 = true → v.toNat % 16 = 1 → s.dev.sec.lowering = false → s.dev.sec.sig = some k → secLevel s.dev = 1 → s.dev.sec.nonce = some nn → s.dev.sec.epoch < 32 →
    ∃ t, exec (.secCmdLower path v tm) s = .next t ∧
      (if ecdsaOk k (secSig s.dev) (cmdMessage nn 1 []) = true then
        t.dev.sec.erasePend = true ∧ t.dev.sec.lowering = true ∧ t.dev.sec.epoch = s.dev.sec.epoch + 1 ∧ secLevel t.dev = 0 ∧ t.dev.sec.ka = none ∧ t.dev.sec.sig = none ∧ t.dev.sec.store = [] ∧
          t.dev.sec.cmdResult = 1 ∧ t.dev.clo.armed = false ∧ t.dev.clo.ceil = 0 ∧ (∀ i x, tget t.dev.smt.conns i = some x → x.key = none ∧ x.prevKey = none)
      else t.dev.sec = { s.dev.sec with cmdResult := 2, cmdReason := 0, nonce := t.dev.sec.nonce } ∧ t.dev.clo = s.dev.clo ∧ t.dev.smt = s.dev.smt)) ∧
  (∀ s path v k nn, reachable s.dev path 0x80280 = true → v.toNat % 16 = 2 → s.dev.sec.lowering = false → s.dev.sec.sig = some k → secLevel s.dev ≠ 0 → s.dev.sec.nonce = some nn →
    ∃ t, exec (.secCmdReplaceKa path v) s = .next t ∧
      (if keyOnCurve (stagedKa s.dev) = false then t.dev.sec = { s.dev.sec with cmdResult := 3, cmdReason := 5, nonce := t.dev.sec.nonce }
      else if ecdsaOk k (secSig s.dev) (cmdMessage nn 2 (beBytes 96 (stagedKa s.dev).toNat)) = true then
        t.dev.sec = { s.dev.sec with ka := some (stagedKa s.dev), cmdResult := 1, cmdReason := 0, nonce := t.dev.sec.nonce }
      else t.dev.sec = { s.dev.sec with cmdResult := 2, cmdReason := 0, nonce := t.dev.sec.nonce })) ∧
  (∀ s path v k nn, reachable s.dev path 0x80280 = true → v.toNat % 16 = 3 → s.dev.sec.lowering = false → s.dev.sec.sig = some k → secLevel s.dev ≠ 0 → s.dev.sec.nonce = some nn →
    ∃ t, exec (.secCmdReplaceSig path v) s = .next t ∧
      (if keyOnCurve (stagedSig s.dev) = false then t.dev.sec = { s.dev.sec with cmdResult := 3, cmdReason := 5, nonce := t.dev.sec.nonce }
      else if ecdsaOk k (secSig s.dev) (cmdMessage nn 3 (beBytes 96 (stagedSig s.dev).toNat)) = true then
        t.dev.sec = { s.dev.sec with sig := some (stagedSig s.dev), cmdResult := 1, cmdReason := 0, nonce := t.dev.sec.nonce }
      else t.dev.sec = { s.dev.sec with cmdResult := 2, cmdReason := 0, nonce := t.dev.sec.nonce })) ∧
  (∀ s path v k nn, reachable s.dev path 0x80280 = true → v.toNat % 16 = 4 → s.dev.sec.lowering = false → s.dev.sec.sig = some k → s.dev.sec.nonce = some nn → s.dev.sec.svnFuse < s.dev.sec.svn →
    ∃ t, exec (.secCmdAdvanceSvn path v) s = .next t ∧
      (if ecdsaOk k (secSig s.dev) (cmdMessage nn 4 []) = true then
        t.dev.sec = { s.dev.sec with svnFuse := s.dev.sec.svn, revoked := s.dev.sec.revoked ||| (2 ^ s.dev.sec.slot - 1), cmdResult := 1, cmdReason := 0, nonce := t.dev.sec.nonce }
      else t.dev.sec = { s.dev.sec with cmdResult := 2, cmdReason := 0, nonce := t.dev.sec.nonce }))

/-- SCU_TAKE, SCU_RELEASE (R425, R426), SCU_GCM_ENCRYPT, SCU_GCM_DECRYPT, SCU_CMAC, SCU_KEY_WRAP, SCU_KEY_UNWRAP, SCU_SHA384 (R427, R428), SCU_OP_DONE: only the
holder starts an operation; a wrong length or range sets ERR and writes nothing. That the result stands in the buffer from the start is the model's choice
(notes/assumptions/49.md). -/
def Obligations.ServiceCipherUnitComplete : Prop :=
  (∀ s path, reachable s.dev path 0x81000 = true → s.dev.scu.holder = 0 →
    ∃ t, exec (.scuTake path) s = .next t ∧ t.dev.scu = { s.dev.scu with holder := agentOf path } ∧ t.dev = { s.dev with scu := t.dev.scu, pwr := t.dev.pwr }) ∧
  (∀ s path, reachable s.dev path 0x81000 = true → holds s.dev path = true →
    ∃ t, exec (.scuRelease path) s = .next t ∧ t.dev.scu.holder = 0 ∧ t.dev.scu.key = [] ∧ t.dev.scu.iv = [] ∧ t.dev.scu.buf = [] ∧ t.dev.scu.busy = false ∧ t.dev.scu.err = false ∧
      t.dev.scu.ofs = s.dev.scu.ofs ∧ t.dev.scu.len = s.dev.scu.len ∧ t.dev = { s.dev with scu := t.dev.scu, pwr := t.dev.pwr }) ∧
  (∀ s path v n c, reachable s.dev path 0x81004 = true → v.toNat % 16 = n → bit v.toNat 4 = true →
      (n = 1 ∧ c = .scuGcmEncrypt path v ∨ n = 2 ∧ c = .scuGcmDecrypt path v ∨ n = 3 ∧ c = .scuCmac path v ∨ n = 4 ∧ c = .scuKeyWrap path v ∨
       n = 5 ∧ c = .scuKeyUnwrap path v ∨ n = 6 ∧ c = .scuSha384 path v) →
    (holds s.dev path = true → s.dev.scu.busy = false →
      ∃ t, exec c s = .next t ∧
        ((scuShape n s.dev.scu).2.2 = true → rangesOk s.dev.scu (scuShape n s.dev.scu).1 (scuShape n s.dev.scu).2.1 = true →
          t.dev.scu = { s.dev.scu with op := n, busy := true, tagBad := false, err := false, failed := (scuResult n s.dev.scu).2
                                       buf := bytesPut (scuOut s.dev.scu) (scuResult n s.dev.scu).1 s.dev.scu.buf }) ∧
        ((scuShape n s.dev.scu).2.2 = false ∨ rangesOk s.dev.scu (scuShape n s.dev.scu).1 (scuShape n s.dev.scu).2.1 = false →
          t.dev.scu = { s.dev.scu with op := n, tagBad := false, err := true }) ∧
        t.dev = { s.dev with scu := t.dev.scu, pwr := t.dev.pwr }) ∧
    (holds s.dev path = false ∨ s.dev.scu.busy = true → ∃ t, exec c s = .next t ∧ t.dev = { s.dev with pwr := t.dev.pwr })) ∧
  (∀ s, s.dev.scu.busy = true →
    ∃ t, exec .scuOpDone s = .next t ∧ t = { s with dev := { s.dev with scu := { s.dev.scu with busy := false, fin := true, tagBad := s.dev.scu.failed } } })

/-! ### Sillage -/

/-- MAIN_RECORD_STORE (R500), SIL_RECORD (R501, R503), SIL_PROGRAM_DONE (R497, R501), SIL_SECTOR_ERASE_DONE (R497), SIL_TOKEN_TICK (R502), SIL_HOUR_STORE (R499).
That a record takes its RSEQ when it is programmed, and what wraps the ring, are the model's reading (notes/assumptions/50.md). -/
def Obligations.RecorderComplete : Prop :=
  (∀ s busy tm e r, s.dev.pwr.aon = true → s.dev.sil.inboxMain = e :: r →
    ∃ t, exec (.mainRecordStore busy tm) s = .next t ∧ t.dev.sil.inboxMain = r ∧ t.dev.maps = s.dev.maps ∧ t.dev.qm = s.dev.qm ∧
      (busy = true → s.dev.sil.store.length < 64 → t.dev.sil = { s.dev.sil with inboxMain := r, store := s.dev.sil.store ++ [e] }) ∧
      (busy = true → 64 ≤ s.dev.sil.store.length →
        t.dev.sil = { s.dev.sil with inboxMain := r, lostMain := s.dev.sil.lostMain + 1, lostType := if s.dev.sil.lostMain = 0 then e.ty.code.1 else s.dev.sil.lostType }) ∧
      (busy = false → s.dev.pwr.klinkUp = true → s.dev.sil.lostMain = 0 → s.dev.sil.store = [] →
        t.dev.sil.inbox = s.dev.sil.inbox ++ [(e, true)] ∧ t.dev.sil.store = [] ∧ t.dev.sil.queue = s.dev.sil.queue)) ∧
  (∀ s tm e m r, s.dev.kpr.running = true → s.dev.sil.inbox = (e, m) :: r →
    ∃ t, exec (.silRecord tm) s = .next t ∧ t.dev.sil.inbox = r ∧ t.dev.sil.slots = s.dev.sil.slots ∧ t.dev.sil.rseq = s.dev.sil.rseq ∧ t.dev.maps = s.dev.maps ∧
      (silWaiting s.dev.sil.queue < 32 → s.dev.sil.prog.isSome →
        t.dev.sil = { s.dev.sil with inbox := r, queue := s.dev.sil.queue ++ [{ item := silRec (tick tm s.dev) e m, extra := false }] }) ∧
      (s.dev.sil.queue = [] → s.dev.sil.prog = none → s.dev.sil.erasing = false → s.dev.sil.clearing = false → s.dev.sil.bar0.frozen = false → s.dev.sil.mgmt.frozen = false →
          s.dev.sil.tokens ≠ 0 →
        (tget s.dev.sil.slots s.dev.sil.head = none →
          t.dev.sil = { s.dev.sil with inbox := r, prog := some (silRec (tick tm s.dev) e m), tokens := s.dev.sil.tokens - 1 }) ∧
        (thas s.dev.sil.slots s.dev.sil.head = true →
          t.dev.sil = { s.dev.sil with inbox := r, erasing := true, queue := [{ item := silRec (tick tm s.dev) e m, extra := false }] })) ∧
      (32 ≤ silWaiting s.dev.sil.queue → silWaiting t.dev.sil.queue = silWaiting s.dev.sil.queue ∧ (∃ i ∈ t.dev.sil.queue, lostCause i = some 0) ∧
        t.dev.sil.dropped = s.dev.sil.dropped)) ∧
  (∀ s tm r, s.dev.kpr.running = true → s.dev.sil.prog = some r →
    ∃ t, exec (.silProgramDone tm) s = .next t ∧ t.dev.sil.slots = tset s.dev.sil.slots s.dev.sil.head { r with rseq := s.dev.sil.rseq } ∧
      t.dev.sil.rseq = (s.dev.sil.rseq + 1) % 2 ^ 32 ∧ t.dev.sil.head = (s.dev.sil.head + 1) % 4096 ∧ t.dev.sil.wrapped = s.dev.sil.wrapped ∧ t.dev.maps = s.dev.maps) ∧
  (∀ s tm, s.dev.kpr.running = true → s.dev.sil.erasing = true →
    ∃ t, exec (.silSectorEraseDone tm) s = .next t ∧ (∀ e, e ∈ t.dev.sil.slots ↔ e ∈ s.dev.sil.slots ∧ e.1 / 64 ≠ s.dev.sil.head / 64) ∧ t.dev.sil.erasing = false ∧
      t.dev.sil.head = s.dev.sil.head ∧ t.dev.sil.rseq = s.dev.sil.rseq ∧
      (t.dev.sil.wrapped = true ↔ s.dev.sil.wrapped = true ∨ ∃ e ∈ s.dev.sil.slots, e.1 / 64 = s.dev.sil.head / 64)) ∧
  (∀ s tm, s.dev.kpr.running = true → s.dev.sil.tokAt + 2000000000 ≤ tm →
    ∃ t, exec (.silTokenTick tm) s = .next t ∧
      SameButTime { s.dev with sil := { s.dev.sil with tokens := min 2048 (s.dev.sil.tokens + 1), tokAt := s.dev.sil.tokAt + 2000000000 } } t.dev) ∧
  (∀ s tm, s.dev.kpr.running = true → s.dev.sil.hourStored < opHours (tick tm s.dev) →
    ∃ t, exec (.silHourStore tm) s = .next t ∧ SameButTime { s.dev with sil := { s.dev.sil with hourStored := opHours (tick tm s.dev) } } t.dev)

/-- SIL_FREEZE, SIL_FREEZE_TIMEOUT (R506, R507), SIL_WINDOW_READ (R506), SIL_CLEAR_GO, SIL_CLEAR_DONE (R505, R509, R560). The order of the refusals of a clear and
the place of EV_CLEAR are the model's reading (notes/assumptions/51.md). -/
def Obligations.ReadingAndClearingComplete : Prop :=
  (∀ s path v tm, reachable s.dev path 0x10300C = true →
    ∃ t, exec (.silFreeze path v tm) s = .next t ∧ (silPath t.dev path).frozen = bit v.toNat 0 ∧ t.dev.sil.slots = s.dev.sil.slots ∧ t.dev.sil.rseq = s.dev.sil.rseq ∧
      t.dev.sil.clrCnt = s.dev.sil.clrCnt ∧ (silPath t.dev path).cursor = (silPath s.dev path).cursor ∧ t.dev.maps = s.dev.maps ∧
      (bit v.toNat 0 = true → (silPath s.dev path).frozen = false → (silPath t.dev path).since = some tm ∧ (silPath t.dev path).lost = 0 ∧
        t.dev.sil.queue = s.dev.sil.queue)) ∧
  (∀ s path tm a, s.dev.kpr.running = true → (silPath s.dev path).frozen = true → (silPath s.dev path).since = some a → a + 10000000000 ≤ tm →
    ∃ t, exec (.silFreezeTimeout path tm) s = .next t ∧ (silPath t.dev path).frozen = false ∧ t.dev.sil.slots = s.dev.sil.slots ∧ t.dev.sil.rseq = s.dev.sil.rseq) ∧
  (∀ s path w, reachable s.dev path 0x103100 = true → w < 16 →
    ∃ t, exec (.silWindowRead path w) s = .next t ∧
      t.dev.io.out = s.dev.io.out ++ [.regRead (0x103100 + 4 * w) ((if w = 0 then silWords s.dev.sil (silPath s.dev path).cursor else (silPath s.dev path).window).getD w 0)] ∧
      (silPath t.dev path).cursor = (if w = 15 then ((silPath s.dev path).cursor + 1) % 4096 else (silPath s.dev path).cursor) ∧
      (silPath t.dev path).window = (if w = 0 then silWords s.dev.sil (silPath s.dev path).cursor else (silPath s.dev path).window) ∧
      t.dev.sil.slots = s.dev.sil.slots ∧ t.dev.sil.queue = s.dev.sil.queue) ∧
  (∀ s path tm, reachable s.dev path 0x10301C = true →
    ∃ t, exec (.silClearGo path tm) s = .next t ∧ t.dev.sil.slots = s.dev.sil.slots ∧ t.dev.sil.clrCnt = s.dev.sil.clrCnt ∧
      (s.dev.sec.sig = none → t.dev.sil.clearResult = 3 ∧ t.dev.sil.clearReason = 1 ∧ t.dev.sil.clearing = s.dev.sil.clearing ∧ t.dev.sil.inbox = s.dev.sil.inbox ++ [(⟨.secCmd, [0x10, 3, 1]⟩, false)]) ∧
      (∀ k, s.dev.sec.sig = some k →
        (s.dev.sil.bar0.frozen = true ∨ s.dev.sil.mgmt.frozen = true → t.dev.sil.clearResult = 3 ∧ t.dev.sil.clearReason = 2 ∧ t.dev.sil.clearing = s.dev.sil.clearing) ∧
        (s.dev.sil.bar0.frozen = false → s.dev.sil.mgmt.frozen = false → s.dev.sil.clearing = true ∨ s.dev.sec.erasePend = true →
          t.dev.sil.clearResult = 3 ∧ t.dev.sil.clearReason = 3 ∧ t.dev.sil.clearing = s.dev.sil.clearing) ∧
        (s.dev.sil.bar0.frozen = false → s.dev.sil.mgmt.frozen = false → s.dev.sil.clearing = false → s.dev.sec.erasePend = false →
          (if ecdsaOk k (silSig s.dev) (clearMessage s.dev) = true then t.dev.sil.clearing = true ∧ t.dev.sil.inbox = s.dev.sil.inbox
           else t.dev.sil.clearing = false ∧ t.dev.sil.clearResult = 2 ∧ t.dev.sil.inbox = s.dev.sil.inbox ++ [(⟨.secCmd, [0x10, 2, 0]⟩, false)])))) ∧
  (∀ s tm, s.dev.kpr.running = true → s.dev.sil.clearing = true → s.dev.sil.prog = none → s.dev.sil.erasing = false →
    ∃ t, exec (.silClearDone tm) s = .next t ∧ t.dev.sil.slots = [] ∧ t.dev.sil.clrCnt = (s.dev.sil.clrCnt + 1) % 2 ^ 32 ∧ t.dev.sil.clearing = false ∧
      t.dev.sil.clearResult = 1 ∧ t.dev.sil.wrapped = false ∧ t.dev.sil.head = s.dev.sil.head ∧ t.dev.sil.rseq = s.dev.sil.rseq ∧
      (s.dev.sil.bar0.frozen = false → s.dev.sil.mgmt.frozen = false →
        ∃ r, t.dev.sil.prog = some r ∧ r.ty = 1 ∧ r.ps.length = 3 ∧ r.ps.getD 0 0 = s.dev.sil.slots.length ∧ r.ps.getD 2 0 = (s.dev.sil.clrCnt + 1) % 2 ^ 32))

/-! ### Management -/

/-- SET_ENDPOINT_ID, GET_ENDPOINT_ID, GET_MCTP_VERSION_SUPPORT, GET_MESSAGE_TYPE_SUPPORT, GET_VENDOR_DEFINED_MESSAGE_SUPPORT, PLDM_BASE, PLDM_SENSOR_READ,
PLDM_FIRMWARE_UPDATE, MCTP_TIMEOUT (R513, R515, R516, R496): each message is answered by one response; with a PEC error it is counted and nothing else changes.
Response layouts follow the standards that R513 names and are the model's (notes/assumptions/32.md). -/
def Obligations.ManagementMessagesComplete : Prop :=
  (∀ s tm c kind body,
    (∃ op eid, c = Instr.setEndpointId true op eid tm ∧ kind = 0 ∧ (op ≤ 1 ∧ 8 ≤ eid ∧ eid ≤ 254 ∧ body = [0, 0, eid, 0] ∨ (1 < op ∨ eid < 8 ∨ 254 < eid) ∧ body = [2])) ∨
    (c = .getEndpointId true tm ∧ kind = 0 ∧ body = [0, s.dev.mgt.eid.getD 0, 0, 0]) ∨
    (∃ ty, c = .getMctpVersionSupport true ty tm ∧ kind = 0 ∧ ty ∉ [0xFF, 0, 1, 0x7F] ∧ body = [0x80]) ∨
    (c = .getMessageTypeSupport true tm ∧ kind = 0 ∧ body = [0, 2, 1, 0x7F]) ∨
    (∃ sel, c = .getVendorDefinedMessageSupport true sel tm ∧ kind = 0 ∧ sel ≠ 0 ∧ body = [2]) ∨
    (∃ cmd arg, c = .pldmBase true cmd arg tm ∧ kind = 1 ∧ (cmd = 1 ∧ 1 ≤ arg ∧ arg ≤ 254 ∧ body = [0] ∨ cmd = 2 ∧ body = [0, s.dev.mgt.tid] ∨
      cmd = 4 ∧ body = [0, 0x25, 0, 0, 0, 0, 0, 0, 0] ∨ (cmd = 0 ∨ 5 < cmd) ∧ body = [5])) ∨
    (∃ id, c = .pldmSensorRead true id tm ∧ kind = 1 ∧ ((id = 0 ∨ id = 7 ∨ 0x63 ≤ id) ∧ body = [0x80] ∨
      id = 0x40 ∧ s.dev.pwr.aon = true ∧ body = [0, 0, 1] ++ natBytes 4 (twos 32 (s.dev.pwr.pl : Nat)) ∨
      3 ≤ id ∧ id ≤ 6 ∧ s.dev.thm.pthFailed.contains (id - 3) = true ∧ body = [0, 4, 0, 0, 0, 0, 0])) →
    s.dev.kpr.running = true →
    ∃ t, exec c s = .next t ∧ t.dev.mgt.msg = some { kind := kind, body := body, since := tm, losses := 0 } ∧
      t.dev.io.out = s.dev.io.out ++ (match s.dev.mgt.msg with | some m => [.mctp m.kind m.body] | none => []) ∧
      t.dev.mgt.eid = (match c with | .setEndpointId _ op eid _ => if op ≤ 1 ∧ 8 ≤ eid ∧ eid ≤ 254 then some eid else s.dev.mgt.eid | _ => s.dev.mgt.eid) ∧
      t.dev.mgt.tid = (match c with | .pldmBase _ 1 arg _ => arg | _ => s.dev.mgt.tid) ∧
      SameButTime { s.dev with mgt := { s.dev.mgt with msg := t.dev.mgt.msg, eid := t.dev.mgt.eid, tid := t.dev.mgt.tid }, io := { s.dev.io with out := t.dev.io.out } } t.dev) ∧
  (∀ s tm ty, ty ∈ [0xFF, 0, 1, 0x7F] → s.dev.kpr.running = true →
    ∃ t x, exec (.getMctpVersionSupport true ty tm) s = .next t ∧ t.dev.mgt.msg = some { kind := 0, body := [0, 1] ++ x, since := tm, losses := 0 } ∧ x.length = 4) ∧
  (∀ s tm, s.dev.kpr.running = true →
    ∃ t x, exec (.getVendorDefinedMessageSupport true 0 tm) s = .next t ∧ t.dev.mgt.msg = some { kind := 0, body := [0, 0xFF, 1] ++ x, since := tm, losses := 0 } ∧ x.length = 6) ∧
  (∀ s tm img ab, s.dev.kpr.running = true →
    ∃ t, exec (.pldmFirmwareUpdate true img ab tm) s = .next t ∧
      (mainUp s.dev = true → s.dev.clo.ready = true → s.dev.sec.lowering = false →
        t.dev.mgt.msg = some { kind := 1, body := [0], since := tm, losses := 0 } ∧ t.dev.sec.slots = tset s.dev.sec.slots (1 - s.dev.clo.image) { img with good := img.good && !ab } ∧
        t.dev.sil.inboxMain = s.dev.sil.inboxMain ++ [⟨.fwUpdate, [1 - s.dev.clo.image, img.version,
          if ab = true then 2 else if img.good = true ∧ bit s.dev.sec.revoked img.slot = false ∧ s.dev.sec.svnFuse ≤ img.svn then 0 else 1]⟩] ∧
        t.dev.clo = s.dev.clo ∧ t.dev.maps = s.dev.maps) ∧
      (s.dev.clo.ready = false ∨ s.dev.sec.lowering = true → t.dev.mgt.msg = some { kind := 1, body := [0x8A], since := tm, losses := 0 } ∧ t.dev.sec = s.dev.sec ∧ t.dev.sil = s.dev.sil)) ∧
  (∀ s tm c, s.dev.kpr.running = true →
      (∃ op eid, c = Instr.setEndpointId false op eid tm) ∨ c = .getEndpointId false tm ∨ (∃ ty, c = .getMctpVersionSupport false ty tm) ∨ c = .getMessageTypeSupport false tm ∨
        (∃ x, c = .getVendorDefinedMessageSupport false x tm) ∨ (∃ x a, c = .pldmBase false x a tm) ∨ (∃ x, c = .pldmSensorRead false x tm) ∨
        (∃ i a, c = .pldmFirmwareUpdate false i a tm) ∨ (∃ b, c = .registerAccessRequest false b tm) →
    ∃ t, exec c s = .next t ∧ SameButTime { s.dev with mgt := { s.dev.mgt with pec := satInc 16 s.dev.mgt.pec } } t.dev) ∧
  (∀ s tm m, s.dev.kpr.running = true → s.dev.mgt.msg = some m → m.losses ≠ 0 → m.since + 100000000 ≤ tm →
    ∃ t, exec (.mctpTimeout tm) s = .next t ∧ SameButTime { s.dev with mgt := { s.dev.mgt with msg := none } } t.dev)

/-- REGISTER_ACCESS_REQUEST (R514, R529): every well-formed request for words that the endpoint may name and reach completes: a read answers 0 and the words, lowest
first; a write writes the words in order, the part woken from S2, and answers 0. A malformed request is answered 3, one outside what the endpoint may name 1,
main-die words out of reach 2, and nothing changes. A write of KPR_PF_CFG stores its 24 writable bits while the setup is unlocked. JTAG_INSTRUCTION (R520, R521):
every instruction of either TAP completes: IDCODE is shifted out; the debug instruction takes effect at SL0 only; the boundary-scan instructions of the main-die
TAP need the strap and phase 1; without its supplies the main die's TAP holds BYPASS. -/
def Obligations.RegisterAccessMessagesAndTapsComplete : Prop :=
  ((∀ s b tm, s.dev.kpr.running = true → accessBad b = false → leAt b 0 1 = 1 → accessAllowed s.dev false (accessOffsets (leAt b 4 4) (leAt b 1 1)) = true →
       accessCut s.dev (accessOffsets (leAt b 4 4) (leAt b 1 1)) = false →
     ∃ t, exec (.registerAccessRequest true b tm) s = .next t ∧
       t.dev.mgt.msg = some { kind := 0x7F, body := 0 :: (readWords (leAt b 4 4) (leAt b 1 1) (tick tm s.dev)).1, since := tm, losses := 0 } ∧
       (readWords (leAt b 4 4) (leAt b 1 1) (tick tm s.dev)).1.length = 4 * leAt b 1 1 ∧ t.dev.maps = s.dev.maps ∧ t.dev.rf.regs = s.dev.rf.regs ∧ t.dev.kpr = s.dev.kpr) ∧
   (∀ s b tm, s.dev.kpr.running = true → accessBad b = false → leAt b 0 1 = 2 → accessAllowed s.dev true (accessOffsets (leAt b 4 4) (leAt b 1 1)) = true →
       accessCut s.dev (accessOffsets (leAt b 4 4) (leAt b 1 1)) = false →
     ∃ t u, exec (.registerAccessRequest true b tm) s = .next t ∧ t.dev.mgt.msg = some { kind := 0x7F, body := [0], since := tm, losses := 0 } ∧
       u = writeWords (leAt b 4 4) (b.drop 8) (leAt b 1 1) (wakeS2 tm (tick tm s.dev)) ∧ t.dev.rf = u.rf ∧ t.dev.maps = u.maps ∧ t.dev.qm = u.qm ∧ t.dev.kpr = u.kpr ∧ t.dev.sec = u.sec ∧
       t.dev.sil = u.sil ∧ t.dev.io.out = u.io.out ++ (match u.mgt.msg with | some m => [.mctp m.kind m.body] | none => [])) ∧
   (∀ s b tm code, s.dev.kpr.running = true →
       (accessBad b = true ∧ code = 3 ∨
        accessBad b = false ∧ accessAllowed s.dev (decide (leAt b 0 1 = 2)) (accessOffsets (leAt b 4 4) (leAt b 1 1)) = false ∧ code = 1 ∨
        accessBad b = false ∧ accessAllowed s.dev (decide (leAt b 0 1 = 2)) (accessOffsets (leAt b 4 4) (leAt b 1 1)) = true ∧
          accessCut s.dev (accessOffsets (leAt b 4 4) (leAt b 1 1)) = true ∧ code = 2) →
     ∃ t, exec (.registerAccessRequest true b tm) s = .next t ∧ t.dev.mgt.msg = some { kind := 0x7F, body := [code], since := tm, losses := 0 } ∧
       SameButTime { s.dev with mgt := { s.dev.mgt with msg := t.dev.mgt.msg }, io := { s.dev.io with out := t.dev.io.out } } t.dev) ∧
   (∀ s b tm, s.dev.kpr.running = true → accessBad b = false → leAt b 0 1 = 1 → leAt b 1 1 = 1 →
       accessAllowed s.dev false [leAt b 4 4] = true → accessCut s.dev [leAt b 4 4] = false →
     ∃ t, exec (.registerAccessRequest true b tm) s = .next t ∧
       t.dev.mgt.msg = some { kind := 0x7F, body := 0 :: natBytes 4 (readWord .mgmt (leAt b 4 4) (tick tm s.dev)).1.toNat, since := tm, losses := 0 } ∧ t.dev.maps = s.dev.maps ∧ t.dev.rf.regs = s.dev.rf.regs) ∧
   (∀ s b tm, s.dev.kpr.running = true → Tbl.wf s.dev.rf.regs = true → accessBad b = false → leAt b 0 1 = 2 → leAt b 1 1 = 1 → leAt b 4 4 = 0x100004 →
     ∃ t, exec (.registerAccessRequest true b tm) s = .next t ∧ t.dev.mgt.msg = some { kind := 0x7F, body := [0], since := tm, losses := 0 } ∧
       rd t.dev 0x100004 = (if s.dev.rf.lock = true then rd s.dev 0x100004 else rd s.dev 0x100004 / 2 ^ 24 * 2 ^ 24 + leAt b 8 4 % 2 ^ 24) ∧
       (∀ o, o ≠ 0x100004 → rd t.dev o = rd s.dev o) ∧ t.dev.kpr = s.dev.kpr ∧ t.dev.maps = s.dev.maps)) ∧
  (∀ s main i, s.dev.kpr.running = true →
     exec (.jtagInstruction main i) s = .next { s with dev := { s.dev with
       mgt := if main = true then { s.dev.mgt with tapMain := tapEffect s.dev main i } else { s.dev.mgt with tapPower := tapEffect s.dev main i }
       io := { s.dev.io with out := s.dev.io.out ++ (if tapEffect s.dev main i = .idcode then [.tdo (idcode main)] else []) } } }) ∧
  (∀ s main i, s.dev.kpr.running = true →
     ∃ t e, exec (.jtagInstruction main i) s = .next t ∧
       t.dev.mgt = (if main = true then { s.dev.mgt with tapMain := e } else { s.dev.mgt with tapPower := e }) ∧
       (main = true → s.dev.pwr.aon = false → e = .bypass) ∧
       (main = false ∨ s.dev.pwr.aon = true →
         (i = .debug → (e = .debug ↔ s.dev.sec.sl1 = false ∧ s.dev.sec.sl2 = false) ∧ (e = .debug ∨ e = .bypass)) ∧ (i = .bypass → e = .bypass) ∧ (i = .idcode → e = .idcode) ∧
         (i = .extest ∨ i = .intest ∨ i = .clamp ∨ i = .highz → (main = false → e = i) ∧ (main = true → e = if s.dev.id.bscan = true ∧ atPhase s.dev 1 = true then i else .bypass))) ∧
       t.dev.io.out = s.dev.io.out ++ (if e = .idcode then [.tdo (2 ^ 28 + 2 ^ 12 * (if main = true then 0x0A39 else 0x0A3B) + 2 * Config.jedecId.toNat + 1)] else []) ∧
       t = { s with dev := { s.dev with mgt := t.dev.mgt, io := { s.dev.io with out := t.dev.io.out } } })

/-! ### Memory errors and registers -/

/-- MEM_CORRECTABLE, NARROW_WRITE_REFUSED, ERROR_RECORD_HANDLED (R396, R398, R400, R405), FABRIC_PARITY_FAIL (R381), ECC_INJECT (R398, R430): a record takes an
entry, adds to a queued one of its kind and address, or is counted as lost. -/
def Obligations.ErrorRecordsComplete : Prop :=
  (∀ s e tm kind c, mainUp s.dev = true → e.mem < 2 →
      (kind = 1 ∧ c = Instr.memCorrectable e tm ∧ (∀ x ∈ s.dev.ecc.injected, x.2.1 ≠ e.mem) ∨ kind = 3 ∧ inScratch e = false ∧ c = .narrowWriteRefused e tm) →
    ∃ t, exec c s = .next t ∧
      (s.dev.ecc.queue.any (sameErr (errRec kind e (tick tm s.dev))) = true → t.dev.ecc.queue.length = s.dev.ecc.queue.length ∧ t.dev.ecc.ovf = s.dev.ecc.ovf ∧ t.dev.ecc.ovfCnt = s.dev.ecc.ovfCnt) ∧
      (s.dev.ecc.queue.any (sameErr (errRec kind e (tick tm s.dev))) = false → s.dev.ecc.queue.length < 16 →
        t.dev.ecc.queue = s.dev.ecc.queue ++ [errRec kind e (tick tm s.dev)] ∧ t.dev.ecc.ovf = s.dev.ecc.ovf ∧ t.dev.ecc.ovfCnt = s.dev.ecc.ovfCnt) ∧
      (s.dev.ecc.queue.any (sameErr (errRec kind e (tick tm s.dev))) = false → 16 ≤ s.dev.ecc.queue.length →
        t.dev.ecc.queue = s.dev.ecc.queue ∧ t.dev.ecc.ovf = true ∧ t.dev.ecc.ovfCnt = satInc 32 s.dev.ecc.ovfCnt) ∧
      t.dev.ecc.narrow = (if kind = 3 then satInc 32 s.dev.ecc.narrow else s.dev.ecc.narrow) ∧
      t.dev.ecc.sramCe = (if kind = 1 ∧ e.mem = 0 then satInc 32 s.dev.ecc.sramCe else s.dev.ecc.sramCe) ∧
      t.dev.ecc.hbmCe = (if kind = 1 ∧ e.mem = 1 then satInc 32 s.dev.ecc.hbmCe else s.dev.ecc.hbmCe) ∧
      t.dev.sil.inboxMain = s.dev.sil.inboxMain ++ (if kind = 1 ∧ (∀ a, tget s.dev.ecc.ceAt e.mem = some a → a + 1000000000 ≤ tm) then [⟨.memCe, [e.mem, tgetD s.dev.ecc.ceSince e.mem 0 + 1]⟩] else []) ∧
      t.dev.ecc.ue = s.dev.ecc.ue ∧ SameButTime { s.dev with ecc := t.dev.ecc, sil := { s.dev.sil with inboxMain := t.dev.sil.inboxMain } } t.dev) ∧
  (∀ s, mainUp s.dev = true → ∃ t, exec .errorRecordHandled s = .next t ∧ t = { s with dev := { s.dev with ecc := { s.dev.ecc with queue := s.dev.ecc.queue.tail } } }) ∧
  (∀ s e hit tm, mainUp s.dev = true →
    ∃ t, exec (.fabricParityFail false e hit tm) s = .next t ∧ SameButTime { s.dev with ecc := { s.dev.ecc with fabric := satInc 32 s.dev.ecc.fabric } } t.dev) ∧
  (∀ s e tm, mainUp s.dev = true → e.cls < 2 →
    ∃ t, exec (.fabricParityFail true e .line tm) s = .next t ∧ t.dev.ecc.fabric = satInc 32 s.dev.ecc.fabric ∧ t.dev.ecc.ue = true ∧ t.dev.sil.inboxMain.length = s.dev.sil.inboxMain.length + 1 ∧
      SameButTime { s.dev with ecc := t.dev.ecc, sil := { s.dev.sil with inboxMain := t.dev.sil.inboxMain } } t.dev) ∧
  (∀ s path v, reachable s.dev path 0x61040 = true →
    (s.dev.sec.sl1 = true ∨ s.dev.sec.sl2 = true → ∃ t, exec (.eccInject path v) s = .next t ∧ t.dev = { s.dev with pwr := t.dev.pwr }) ∧
    (s.dev.sec.sl1 = false → s.dev.sec.sl2 = false → v.toNat % 4 = 1 ∨ v.toNat % 4 = 2 →
      ∃ t, exec (.eccInject path v) s = .next t ∧
        t.dev.ecc = { s.dev.ecc with injected := s.dev.ecc.injected ++ [(v.toNat % 4, v.toNat / 4 % 2, v.toNat / 256 % 256, rd t.dev 0x61044)] } ∧
        t.dev = { s.dev with ecc := t.dev.ecc, rf := { s.dev.rf with regs := t.dev.rf.regs }, pwr := t.dev.pwr }))

/-- MEM_UNCORRECTABLE (R401, R402, R403, R405): the event is raised for every one; cached copies and staged reads change nothing more; a hit pool buffer is withheld;
a hit flush list takes the ceiling to zero; a control structure, and a journal record lost in both copies, stop the part with a flush of cause 2. -/
def Obligations.UncorrectableErrorsComplete : Prop :=
  (∀ s e mis tm, mainUp s.dev = true → e.mem < 2 → (mis = true → e.mem = 1) → e.cls = 0 ∨ e.cls = 1 ∨ e.cls = 3 → s.dev.ecc.injected = [] →
    ∃ t, exec (.memUncorrectable e mis .line tm) s = .next t ∧ t.dev.ecc.ue = true ∧
      t.dev.ecc.sramUe = (if e.mem = 0 then satInc 32 s.dev.ecc.sramUe else s.dev.ecc.sramUe) ∧ t.dev.ecc.hbmUe = (if e.mem = 1 ∧ mis = false then satInc 32 s.dev.ecc.hbmUe else s.dev.ecc.hbmUe) ∧
      t.dev.ecc.hbmAddr = (if mis = true then satInc 32 s.dev.ecc.hbmAddr else s.dev.ecc.hbmAddr) ∧
      (∃ ps, t.dev.sil.inboxMain = s.dev.sil.inboxMain ++ [⟨.memUe, ps⟩]) ∧ SameButTime { s.dev with ecc := t.dev.ecc, sil := { s.dev.sil with inboxMain := t.dev.sil.inboxMain } } t.dev) ∧
  (∀ s e tm pool ptr p, mainUp s.dev = true → e.mem = 0 → e.cls = 4 → s.dev.ecc.injected = [] → s.dev.bpm.pools[pool]? = some p → ptr ∈ p.free →
    ∃ t q, exec (.memUncorrectable e false (.buffer pool ptr) tm) s = .next t ∧ t.dev.ecc.ue = true ∧ t.dev.bpm.pools[pool]? = some q ∧ q = { p with free := q.free, lost := p.lost + 1 } ∧
      ptr ∉ q.free ∧ (∀ x, x ≠ ptr → (x ∈ q.free ↔ x ∈ p.free)) ∧ t.dev.maps = s.dev.maps) ∧
  (∀ s e tm, mainUp s.dev = true → e.mem < 2 → e.cls = 6 → s.dev.ecc.injected = [] →
    ∃ t, exec (.memUncorrectable e false .line tm) s = .next t ∧ t.dev.clo = { s.dev.clo with armed := false, ceil := 0 } ∧ t.dev.ecc.ue = true ∧ t.dev.maps = s.dev.maps ∧ t.dev.kpr = s.dev.kpr) ∧
  (∀ s e tm hit seq, mainUp s.dev = true → e.mem < 2 → s.dev.ecc.injected = [] → (e.cls = 7 ∧ hit = .line ∨ e.cls = 5 ∧ hit = .journal seq true) → s.dev.kpr.flush = none → s.dev.kpr.state = 2 →
      s.dev.clo.ready = true → listArmed s.dev = true → s.dev.pwr.klinkUp = true → s.dev.sec.lowering = false →
    ∃ t, exec (.memUncorrectable e false hit tm) s = .next t ∧ t.dev.kpr.flush = some (2, tm) ∧ t.dev.kpr.state = 3 ∧ t.dev.kpr.lastCause = 2 ∧ t.dev.ecc.ue = true ∧ t.dev.maps = s.dev.maps)

/-- GLB_SETUP_LOCK (R530), REGISTER_WRITE (R15, R522), REG64_HIGH_WRITE (R14), REG64_LOW_READ (R524), for stored registers of every unit. A write narrower than a word changes
nothing, but in BAR2 it is counted (R80). -/
def Obligations.RegisterAccessComplete : Prop :=
  (∀ s path v, reachable s.dev path 0x40 = true →
    ∃ t, exec (.glbSetupLock path v) s = .next t ∧ t.dev = { s.dev with rf := t.dev.rf, pwr := t.dev.pwr } ∧ t.dev.rf.regs = s.dev.rf.regs ∧
      (bit v.toNat 0 = false ∨ s.dev.rf.lock = true → t.dev.rf = s.dev.rf) ∧
      (bit v.toNat 0 = true → s.dev.rf.lock = false → t.dev.rf.lock = true ∧ t.dev.rf.stage = [] ∧
        (∀ e, e ∈ t.dev.rf.copy ↔ e ∈ s.dev.rf.regs ∧ ∃ g, specAt e.1 = some g ∧ g.rwl ≠ 0))) ∧
  (∀ s path off v, off ∈ [0x1010, 0x1020, 0x1030, 0x20000, 0x20004, 0x20120, 0x21008, 0x30000, 0x30118, 0x40000, 0x40040, 0x40240, 0x40400, 0x58000, 0x58004, 0x60004, 0x62000, 0x80100, 0x80220,
      0x9000C, 0xA0004, 0xA0010, 0xA1004, 0xC0000, 0x100004, 0x102000, 0x103040] →
    path = .bar0 ∨ path = .mgmt ∨ path = .otherPf → Tbl.wf s.dev.rf.regs = true →
    ∃ t, exec (.registerWrite path off ⟨v, .word⟩) s = .next t ∧
      rd t.dev off = (if reachable s.dev path off = true then ((rd s.dev off) &&& (0xFFFFFFFF ^^^ wmask s.dev off)) ||| (v.toNat &&& wmask s.dev off) else rd s.dev off) ∧
      (∀ o, o ≠ off → rd t.dev o = rd s.dev o) ∧ t.dev = { s.dev with rf := { s.dev.rf with regs := t.dev.rf.regs }, pwr := t.dev.pwr }) ∧
  (∀ s path off v, path = .bar0 ∨ path = .mgmt ∨ path = .otherPf → ∃ t, exec (.registerWrite path off ⟨v, .narrow⟩) s = .next t ∧ t.dev = { s.dev with pwr := t.dev.pwr }) ∧
  (∀ s fn off v, mainUp s.dev = true → (fnOn s.dev fn).isSome →
    ∃ t, exec (.registerWrite (.bar2 fn) off ⟨v, .narrow⟩) s = .next t ∧ t.dev = { s.dev with qm := { s.dev.qm with dbReject := satInc 32 s.dev.qm.dbReject }, pwr := t.dev.pwr }) ∧
  (∀ s fn l v, mainUp s.dev = true → fnOn s.dev fn = some l → isPf (fn % 1024) = true →
    ∃ t, exec (.registerWrite (.cfg fn) 0x410 ⟨v, .word⟩) s = .next t ∧ (bit v.toNat 0 = true → (tgetD t.dev.pcx.links l {}).pend = false) ∧ t.dev.maps = s.dev.maps ∧ t.dev.rf = s.dev.rf ∧ t.dev.qm = s.dev.qm) ∧
  (∀ s fn off v, mainUp s.dev = true → (fnOn s.dev fn).isSome → off < 16 * (fnVectors fn).1 → off % 16 = 8 →
    ∃ t, exec (.registerWrite (.bar4 fn) off ⟨v, .word⟩) s = .next t ∧ (msixAt t.dev fn (off / 16)).data = v.toNat ∧ (msixAt t.dev fn (off / 16)).addr = (msixAt s.dev fn (off / 16)).addr ∧
      t.dev.maps = s.dev.maps ∧ t.dev.rf = s.dev.rf ∧ t.dev.qm = s.dev.qm) ∧
  (∀ s l v a b c n, mainUp s.dev = true → pcxOn s.dev (l / 4) = true → pcxEntry s.dev l = some (a, b, c, n) → v.toNat ≠ 0 →
    ∃ t, exec (.registerWrite (.sriov l) 0 ⟨v, .word⟩) s = .next t ∧ (tgetD t.dev.pcx.links l {}).numVfs = min v.toNat n ∧ t.dev.maps = s.dev.maps ∧ t.dev.rf = s.dev.rf ∧ t.dev.qm = s.dev.qm) ∧
  (∀ s path off v w, off = 0x1004 ∨ off = 0x100C ∨ off = 0x21004 → path = .bar0 ∨ path = .mgmt → reachable s.dev path off = true → Tbl.wf s.dev.rf.regs = true → Tbl.wf s.dev.rf.stage = true →
    ∃ t, exec (.reg64HighWrite path off v) s = .next t ∧
      (s.dev.rf.lock = true → t.dev.rf = s.dev.rf) ∧
      (s.dev.rf.lock = false → tget s.dev.rf.stage (off - 4) = some w →
        rd t.dev off = (v.toNat &&& wmask s.dev off) ||| (rd s.dev off &&& (0xFFFFFFFF ^^^ wmask s.dev off)) ∧
        rd t.dev (off - 4) = (w.toNat &&& wmask s.dev (off - 4)) ||| (rd s.dev (off - 4) &&& (0xFFFFFFFF ^^^ wmask s.dev (off - 4))) ∧ tget t.dev.rf.stage (off - 4) = none) ∧
      t.dev.maps = s.dev.maps) ∧
  (∀ s path off, off % 4 = 0 → path = .bar0 ∨ path = .mgmt → canRead s.dev path off = false →
    ∃ t, exec (.reg64LowRead path off) s = .next t ∧ t.dev.io.out = s.dev.io.out ++ [.regRead off 0] ∧ t.dev = { s.dev with io := { s.dev.io with out := t.dev.io.out }, pwr := t.dev.pwr }) ∧
  (∀ s path off low hi x, path = .bar0 ∨ path = .mgmt → off % 4 = 0 → canRead s.dev path off = true → pathWord s.dev path off = none → among 0x103100 16 off = false → quadAt s.dev off = some (low, hi, x) →
    ∃ t, exec (.reg64LowRead path off) s = .next t ∧
      (hi = false → t.dev.io.out = s.dev.io.out ++ [.regRead off (BitVec.ofNat 32 x)] ∧ t.dev.rf.latch = tset s.dev.rf.latch (latchKey path low) (BitVec.ofNat 32 (x / 2 ^ 32))) ∧
      (hi = true → ∀ w, tget s.dev.rf.latch (latchKey path low) = some w → t.dev.io.out = s.dev.io.out ++ [.regRead off w] ∧ t.dev.rf.latch = tdel s.dev.rf.latch (latchKey path low)) ∧
      (hi = true → tget s.dev.rf.latch (latchKey path low) = none → t.dev.io.out = s.dev.io.out ++ [.regRead off (BitVec.ofNat 32 (x / 2 ^ 32))] ∧ t.dev.rf = s.dev.rf))

/-! ### The whole part -/

/-- A step takes the command at the front of the queue and runs it with the queue's rest; on an empty queue the part idles (notes/assumptions/3.md). -/
def Obligations.StepRunsTheFrontCommand : Prop :=
  (∀ c rest d, step { dev := d, pending := c :: rest } = exec c { dev := d, pending := rest }) ∧ ∀ d, step { dev := d, pending := [] } = .next { dev := d, pending := [] }

/-- No command is ever refused; a command's effect is the same under every queue and leaves it alone; the only fault is a supply beyond its absolute maximum (R535). -/
def Obligations.EveryCommandRunsOrTheSupplyFaults : Prop :=
  ∀ c d, (¬SupplyBeyond c d → ∃ d', ∀ q, exec c { dev := d, pending := q } = .next { dev := d', pending := q }) ∧
    (SupplyBeyond c d → ∀ q, exec c { dev := d, pending := q } = .fault .absoluteMaximum)

/-- What reset leaves: the power die runs with the main die off, no command waits, every stored register holds its reset value (spec/16_register_map.md), nothing is
mapped, no ring stands, the level is SL0 (R430), the write allowance is full (R502). -/
def Obligations.ResetState : Prop :=
  State.reset.pending = [] ∧ (∀ off, rd State.reset.dev off = (resetAt off).toNat) ∧ State.reset.dev.rf.lock = false ∧ State.reset.dev.kpr.running = true ∧ State.reset.dev.kpr.state = 0 ∧
  mainUp State.reset.dev = false ∧ State.reset.dev.clo.ready = false ∧ State.reset.dev.clo.ceil = 0 ∧ State.reset.dev.maps = {} ∧ State.reset.dev.qm = {} ∧ secLevel State.reset.dev = 0 ∧
  State.reset.dev.sec.ka = none ∧ State.reset.dev.sec.sig = none ∧ State.reset.dev.sil.tokens = 2048 ∧ State.reset.dev.sil.slots = [] ∧ State.reset.dev.io.out = []

/-- The invariant holds at reset. -/
def Obligations.InvHoldsAtReset : Prop := StateInv State.reset

/-- Every step keeps the invariant, whatever the command and its operands. -/
def Obligations.EveryStepKeepsInv : Prop := ∀ s t, StateInv s → step s = .next t → StateInv t

/-- What fuses hold only goes one way, under every command (R431, R433, R437): the epoch, the fused SVN and the revocations never fall; within an epoch the level
never falls; SL2 never ends. -/
def Obligations.FusesOnlyBlow : Prop :=
  ∀ s t, step s = .next t → s.dev.sec.epoch ≤ t.dev.sec.epoch ∧ s.dev.sec.svnFuse ≤ t.dev.sec.svnFuse ∧ s.dev.sec.revoked &&& t.dev.sec.revoked = s.dev.sec.revoked ∧
    (t.dev.sec.epoch = s.dev.sec.epoch → secLevel s.dev ≤ secLevel t.dev) ∧ (secLevel s.dev = 2 → secLevel t.dev = 2)

/-- R237: the count of free rows is the largest F with the sum over the present link groups that have not failed of min(e_g, F) at least n x F. -/
def Obligations.FreeRowsIsTheLargest : Prop :=
  ∀ d p n, 0 < n →
    n * freeRows d p n ≤ sumL (((List.range (linkGroups d)).filter (lgUsable d)).map fun g => min (lgFree d p g) (freeRows d p n)) ∧
    ∀ f, n * f ≤ sumL (((List.range (linkGroups d)).filter (lgUsable d)).map fun g => min (lgFree d p g) f) → f ≤ freeRows d p n

/-- R86: a descriptor that a ring may carry, whose tag is already outstanding on its ring, completes with ST_INVALID_FIELD and FIELD 2, and the earlier command stays
as it is; with a tag that is not outstanding it is taken up. -/
def Obligations.OutstandingTagsAreUnique : Prop :=
  ∀ s sq desc tm r f, canFetch s.dev sq = true → tget s.dev.qm.sqs sq = some r → r.bind = .fn f → s.dev.thm.stopping = false → ringAllows r.admin (dOpc desc) = true →
      (ownerOnly (dOpc desc) = true → sq = 0) →
    ∃ t c, exec (.descriptorFetch sq desc tm) s = .next t ∧ tget t.dev.qm.cmds s.dev.qm.nextCmd = some c ∧ c.desc = desc ∧ c.sq = sq ∧
      ((∃ e ∈ s.dev.qm.cmds, e.2.sq = sq ∧ dTag e.2.desc = dTag desc) → c.stage = .done ∧ c.status = .invalidField ∧ c.field = 2) ∧
      ((∀ e ∈ s.dev.qm.cmds, e.2.sq = sq → dTag e.2.desc ≠ dTag desc) → c.stage = .fetched) ∧
      ∀ j, j ≠ s.dev.qm.nextCmd → tget t.dev.qm.cmds j = tget s.dev.qm.cmds j

/-- R524: a read of the low word of a 64-bit read-only quantity latches the high word for its path; the next read of the high word on that path answers the latched
value and releases it; without a latch it answers the present value; no other read of the map touches a latch. -/
def Obligations.WideReadsLatch : Prop :=
  ∀ s path off, path = .bar0 ∨ path = .mgmt → canRead s.dev path (off - off % 4) = true → Tbl.wf s.dev.rf.latch = true →
    ∃ t, exec (.reg64LowRead path off) s = .next t ∧
      (∀ low x, pathWord s.dev path (off - off % 4) = none → among 0x103100 16 (off - off % 4) = false → quadAt s.dev (off - off % 4) = some (low, false, x) →
        t.dev.io.out = s.dev.io.out ++ [.regRead off (BitVec.ofNat 32 x)] ∧ tget t.dev.rf.latch (latchKey path low) = some (BitVec.ofNat 32 (x / 2 ^ 32)) ∧
        ∀ j, j ≠ latchKey path low → tget t.dev.rf.latch j = tget s.dev.rf.latch j) ∧
      (∀ low x, pathWord s.dev path (off - off % 4) = none → among 0x103100 16 (off - off % 4) = false → quadAt s.dev (off - off % 4) = some (low, true, x) →
        (∀ w, tget s.dev.rf.latch (latchKey path low) = some w → t.dev.io.out = s.dev.io.out ++ [.regRead off w]) ∧
        (tget s.dev.rf.latch (latchKey path low) = none → t.dev.io.out = s.dev.io.out ++ [.regRead off (BitVec.ofNat 32 (x / 2 ^ 32))]) ∧
        tget t.dev.rf.latch (latchKey path low) = none ∧ ∀ j, j ≠ latchKey path low → tget t.dev.rf.latch j = tget s.dev.rf.latch j) ∧
      (pathWord s.dev path (off - off % 4) ≠ none ∨ among 0x103100 16 (off - off % 4) = true ∨ quadAt s.dev (off - off % 4) = none → t.dev.rf.latch = s.dev.rf.latch)

/-- The range-lock table's operations keep granted entries apart (R112-R114): arriving, granting and releasing. -/
def Obligations.LockOperationsKeepGrantsApart : Prop :=
  (∀ d e, LocksApart d.qm.locks → e.held = false → (∀ x ∈ d.qm.locks, x.cmd ≠ e.cmd) → LocksApart (lockArrive e d).qm.locks) ∧
  (∀ d id, LocksApart d.qm.locks → LocksApart (lockGrant id d).qm.locks ∧ (lockRelease id d).qm.locks.length ≤ d.qm.locks.length ∧ LocksApart (lockRelease id d).qm.locks) ∧
  ∀ d e, LocksApart d.qm.locks → (∀ x ∈ d.qm.locks, x.cmd ≠ e.cmd ∧ x.entered = true ∧ lockConflict x e = false) → e.held = false → e.entered = false → lockUsed d.qm.locks < 8192 →
    lockUsedBy d.qm.locks e.tenant < lockMax d → lockHeld (lockArrive e d).qm.locks e.cmd = true

/-- R268 for Lean rows: any one erased member of a column, data or P, comes back; of two erased data members, and of a data member and P, the data are lost, and the
rest stay readable. -/
def Obligations.LeanColumnsRebuildOne : Prop :=
  (∀ ds a r, ds ≠ [] → a ≤ ds.length → r ≤ ds.length → rebuildRole ds.length (tdel (leanColumn ds) a) r = tget (leanColumn ds) r) ∧
  (∀ ds a b r, a ≤ ds.length → b ≤ ds.length → a ≠ b → r < ds.length →
    rebuildData ds.length (tdel (tdel (leanColumn ds) a) b) r = (if r = a ∨ r = b then none else ds[r]?))

/-- R268 for Durable rows: any two erased members of a column, data, P or Q, come back; of three the data are lost, and the surviving data stay readable. -/
def Obligations.DurableColumnsRebuildTwo : Prop :=
  (∀ ds a b r, ds ≠ [] → ds.length ≤ 254 → a ≤ ds.length + 1 → b ≤ ds.length + 1 → r ≤ ds.length + 1 →
    rebuildRole ds.length (tdel (tdel (durableColumn ds) a) b) r = tget (durableColumn ds) r) ∧
  (∀ ds a b c r, a ≤ ds.length + 1 → b ≤ ds.length + 1 → c ≤ ds.length + 1 → a ≠ b → b ≠ c → a ≠ c → r < ds.length →
    rebuildData ds.length (tdel (tdel (tdel (durableColumn ds) a) b) c) r = (if r = a ∨ r = b ∨ r = c then none else ds[r]?))

/-- R530: while the setup lock is set, no register write changes a field of the locked kind, of any register, and the lock stays. KPR_CTRL and PWR_SLEEP, whose
writes can stop the main die, are apart. -/
def Obligations.SetupLockHoldsFields : Prop :=
  ∀ s path off v t, s.dev.rf.lock = true → Tbl.wf s.dev.rf.regs = true → path = .bar0 ∨ path = .mgmt ∨ path = .otherPf → off ≠ 0x100008 → off ≠ 0x90008 →
    exec (.registerWrite path off ⟨v, .word⟩) s = .next t → t.dev.rf.lock = true ∧ ∀ o g, specAt o = some g → rd t.dev o &&& g.rwl = rd s.dev o &&& g.rwl

end
end

