-- ==== Sys2Proof/Laws/State.lean ====
section
/-!
SUPPORT. What each update of the part leaves alone, field by field: one lemma per update and field it does not change, and what it makes of the one it
does. All hold by unfolding.
-/

namespace Sys2Proof.Machine

variable (d : Dev)

/-! onMaps -/
@[simp] theorem onMaps_maps (f : Maps → Maps) : (onMaps f d).maps = f d.maps := rfl
@[simp] theorem onMaps_id (f : Maps → Maps) : (onMaps f d).id = d.id := rfl
@[simp] theorem onMaps_rf (f : Maps → Maps) : (onMaps f d).rf = d.rf := rfl
@[simp] theorem onMaps_qm (f : Maps → Maps) : (onMaps f d).qm = d.qm := rfl
@[simp] theorem onMaps_bpm (f : Maps → Maps) : (onMaps f d).bpm = d.bpm := rfl
@[simp] theorem onMaps_alm (f : Maps → Maps) : (onMaps f d).alm = d.alm := rfl
@[simp] theorem onMaps_med (f : Maps → Maps) : (onMaps f d).med = d.med := rfl
@[simp] theorem onMaps_jnl (f : Maps → Maps) : (onMaps f d).jnl = d.jnl := rfl
@[simp] theorem onMaps_clo (f : Maps → Maps) : (onMaps f d).clo = d.clo := rfl
@[simp] theorem onMaps_kpr (f : Maps → Maps) : (onMaps f d).kpr = d.kpr := rfl
@[simp] theorem onMaps_hld (f : Maps → Maps) : (onMaps f d).hld = d.hld := rfl
@[simp] theorem onMaps_smt (f : Maps → Maps) : (onMaps f d).smt = d.smt := rfl
@[simp] theorem onMaps_pcx (f : Maps → Maps) : (onMaps f d).pcx = d.pcx := rfl
@[simp] theorem onMaps_hl (f : Maps → Maps) : (onMaps f d).hl = d.hl := rfl
@[simp] theorem onMaps_ecc (f : Maps → Maps) : (onMaps f d).ecc = d.ecc := rfl
@[simp] theorem onMaps_sec (f : Maps → Maps) : (onMaps f d).sec = d.sec := rfl
@[simp] theorem onMaps_scu (f : Maps → Maps) : (onMaps f d).scu = d.scu := rfl
@[simp] theorem onMaps_pwr (f : Maps → Maps) : (onMaps f d).pwr = d.pwr := rfl
@[simp] theorem onMaps_thm (f : Maps → Maps) : (onMaps f d).thm = d.thm := rfl
@[simp] theorem onMaps_age (f : Maps → Maps) : (onMaps f d).age = d.age := rfl
@[simp] theorem onMaps_sil (f : Maps → Maps) : (onMaps f d).sil = d.sil := rfl
@[simp] theorem onMaps_mgt (f : Maps → Maps) : (onMaps f d).mgt = d.mgt := rfl
@[simp] theorem onMaps_io (f : Maps → Maps) : (onMaps f d).io = d.io := rfl

/-! onCmd -/
@[simp] theorem onCmd_id (i : Nat) (f : Cmd → Cmd) : (onCmd i f d).id = d.id := rfl
@[simp] theorem onCmd_rf (i : Nat) (f : Cmd → Cmd) : (onCmd i f d).rf = d.rf := rfl
@[simp] theorem onCmd_bpm (i : Nat) (f : Cmd → Cmd) : (onCmd i f d).bpm = d.bpm := rfl
@[simp] theorem onCmd_maps (i : Nat) (f : Cmd → Cmd) : (onCmd i f d).maps = d.maps := rfl
@[simp] theorem onCmd_alm (i : Nat) (f : Cmd → Cmd) : (onCmd i f d).alm = d.alm := rfl
@[simp] theorem onCmd_med (i : Nat) (f : Cmd → Cmd) : (onCmd i f d).med = d.med := rfl
@[simp] theorem onCmd_jnl (i : Nat) (f : Cmd → Cmd) : (onCmd i f d).jnl = d.jnl := rfl
@[simp] theorem onCmd_clo (i : Nat) (f : Cmd → Cmd) : (onCmd i f d).clo = d.clo := rfl
@[simp] theorem onCmd_kpr (i : Nat) (f : Cmd → Cmd) : (onCmd i f d).kpr = d.kpr := rfl
@[simp] theorem onCmd_hld (i : Nat) (f : Cmd → Cmd) : (onCmd i f d).hld = d.hld := rfl
@[simp] theorem onCmd_smt (i : Nat) (f : Cmd → Cmd) : (onCmd i f d).smt = d.smt := rfl
@[simp] theorem onCmd_pcx (i : Nat) (f : Cmd → Cmd) : (onCmd i f d).pcx = d.pcx := rfl
@[simp] theorem onCmd_hl (i : Nat) (f : Cmd → Cmd) : (onCmd i f d).hl = d.hl := rfl
@[simp] theorem onCmd_ecc (i : Nat) (f : Cmd → Cmd) : (onCmd i f d).ecc = d.ecc := rfl
@[simp] theorem onCmd_sec (i : Nat) (f : Cmd → Cmd) : (onCmd i f d).sec = d.sec := rfl
@[simp] theorem onCmd_scu (i : Nat) (f : Cmd → Cmd) : (onCmd i f d).scu = d.scu := rfl
@[simp] theorem onCmd_pwr (i : Nat) (f : Cmd → Cmd) : (onCmd i f d).pwr = d.pwr := rfl
@[simp] theorem onCmd_thm (i : Nat) (f : Cmd → Cmd) : (onCmd i f d).thm = d.thm := rfl
@[simp] theorem onCmd_age (i : Nat) (f : Cmd → Cmd) : (onCmd i f d).age = d.age := rfl
@[simp] theorem onCmd_sil (i : Nat) (f : Cmd → Cmd) : (onCmd i f d).sil = d.sil := rfl
@[simp] theorem onCmd_mgt (i : Nat) (f : Cmd → Cmd) : (onCmd i f d).mgt = d.mgt := rfl
@[simp] theorem onCmd_io (i : Nat) (f : Cmd → Cmd) : (onCmd i f d).io = d.io := rfl

/-! onSq -/
@[simp] theorem onSq_id (i : Nat) (f : SubRing → SubRing) : (onSq i f d).id = d.id := rfl
@[simp] theorem onSq_rf (i : Nat) (f : SubRing → SubRing) : (onSq i f d).rf = d.rf := rfl
@[simp] theorem onSq_bpm (i : Nat) (f : SubRing → SubRing) : (onSq i f d).bpm = d.bpm := rfl
@[simp] theorem onSq_maps (i : Nat) (f : SubRing → SubRing) : (onSq i f d).maps = d.maps := rfl
@[simp] theorem onSq_alm (i : Nat) (f : SubRing → SubRing) : (onSq i f d).alm = d.alm := rfl
@[simp] theorem onSq_med (i : Nat) (f : SubRing → SubRing) : (onSq i f d).med = d.med := rfl
@[simp] theorem onSq_jnl (i : Nat) (f : SubRing → SubRing) : (onSq i f d).jnl = d.jnl := rfl
@[simp] theorem onSq_clo (i : Nat) (f : SubRing → SubRing) : (onSq i f d).clo = d.clo := rfl
@[simp] theorem onSq_kpr (i : Nat) (f : SubRing → SubRing) : (onSq i f d).kpr = d.kpr := rfl
@[simp] theorem onSq_hld (i : Nat) (f : SubRing → SubRing) : (onSq i f d).hld = d.hld := rfl
@[simp] theorem onSq_smt (i : Nat) (f : SubRing → SubRing) : (onSq i f d).smt = d.smt := rfl
@[simp] theorem onSq_pcx (i : Nat) (f : SubRing → SubRing) : (onSq i f d).pcx = d.pcx := rfl
@[simp] theorem onSq_hl (i : Nat) (f : SubRing → SubRing) : (onSq i f d).hl = d.hl := rfl
@[simp] theorem onSq_ecc (i : Nat) (f : SubRing → SubRing) : (onSq i f d).ecc = d.ecc := rfl
@[simp] theorem onSq_sec (i : Nat) (f : SubRing → SubRing) : (onSq i f d).sec = d.sec := rfl
@[simp] theorem onSq_scu (i : Nat) (f : SubRing → SubRing) : (onSq i f d).scu = d.scu := rfl
@[simp] theorem onSq_pwr (i : Nat) (f : SubRing → SubRing) : (onSq i f d).pwr = d.pwr := rfl
@[simp] theorem onSq_thm (i : Nat) (f : SubRing → SubRing) : (onSq i f d).thm = d.thm := rfl
@[simp] theorem onSq_age (i : Nat) (f : SubRing → SubRing) : (onSq i f d).age = d.age := rfl
@[simp] theorem onSq_sil (i : Nat) (f : SubRing → SubRing) : (onSq i f d).sil = d.sil := rfl
@[simp] theorem onSq_mgt (i : Nat) (f : SubRing → SubRing) : (onSq i f d).mgt = d.mgt := rfl
@[simp] theorem onSq_io (i : Nat) (f : SubRing → SubRing) : (onSq i f d).io = d.io := rfl

/-! onCq -/
@[simp] theorem onCq_id (i : Nat) (f : CompRing → CompRing) : (onCq i f d).id = d.id := rfl
@[simp] theorem onCq_rf (i : Nat) (f : CompRing → CompRing) : (onCq i f d).rf = d.rf := rfl
@[simp] theorem onCq_bpm (i : Nat) (f : CompRing → CompRing) : (onCq i f d).bpm = d.bpm := rfl
@[simp] theorem onCq_maps (i : Nat) (f : CompRing → CompRing) : (onCq i f d).maps = d.maps := rfl
@[simp] theorem onCq_alm (i : Nat) (f : CompRing → CompRing) : (onCq i f d).alm = d.alm := rfl
@[simp] theorem onCq_med (i : Nat) (f : CompRing → CompRing) : (onCq i f d).med = d.med := rfl
@[simp] theorem onCq_jnl (i : Nat) (f : CompRing → CompRing) : (onCq i f d).jnl = d.jnl := rfl
@[simp] theorem onCq_clo (i : Nat) (f : CompRing → CompRing) : (onCq i f d).clo = d.clo := rfl
@[simp] theorem onCq_kpr (i : Nat) (f : CompRing → CompRing) : (onCq i f d).kpr = d.kpr := rfl
@[simp] theorem onCq_hld (i : Nat) (f : CompRing → CompRing) : (onCq i f d).hld = d.hld := rfl
@[simp] theorem onCq_smt (i : Nat) (f : CompRing → CompRing) : (onCq i f d).smt = d.smt := rfl
@[simp] theorem onCq_pcx (i : Nat) (f : CompRing → CompRing) : (onCq i f d).pcx = d.pcx := rfl
@[simp] theorem onCq_hl (i : Nat) (f : CompRing → CompRing) : (onCq i f d).hl = d.hl := rfl
@[simp] theorem onCq_ecc (i : Nat) (f : CompRing → CompRing) : (onCq i f d).ecc = d.ecc := rfl
@[simp] theorem onCq_sec (i : Nat) (f : CompRing → CompRing) : (onCq i f d).sec = d.sec := rfl
@[simp] theorem onCq_scu (i : Nat) (f : CompRing → CompRing) : (onCq i f d).scu = d.scu := rfl
@[simp] theorem onCq_pwr (i : Nat) (f : CompRing → CompRing) : (onCq i f d).pwr = d.pwr := rfl
@[simp] theorem onCq_thm (i : Nat) (f : CompRing → CompRing) : (onCq i f d).thm = d.thm := rfl
@[simp] theorem onCq_age (i : Nat) (f : CompRing → CompRing) : (onCq i f d).age = d.age := rfl
@[simp] theorem onCq_sil (i : Nat) (f : CompRing → CompRing) : (onCq i f d).sil = d.sil := rfl
@[simp] theorem onCq_mgt (i : Nat) (f : CompRing → CompRing) : (onCq i f d).mgt = d.mgt := rfl
@[simp] theorem onCq_io (i : Nat) (f : CompRing → CompRing) : (onCq i f d).io = d.io := rfl

/-! setLocks -/
@[simp] theorem setLocks_id (l : List Lock) : (setLocks l d).id = d.id := rfl
@[simp] theorem setLocks_rf (l : List Lock) : (setLocks l d).rf = d.rf := rfl
@[simp] theorem setLocks_bpm (l : List Lock) : (setLocks l d).bpm = d.bpm := rfl
@[simp] theorem setLocks_maps (l : List Lock) : (setLocks l d).maps = d.maps := rfl
@[simp] theorem setLocks_alm (l : List Lock) : (setLocks l d).alm = d.alm := rfl
@[simp] theorem setLocks_med (l : List Lock) : (setLocks l d).med = d.med := rfl
@[simp] theorem setLocks_jnl (l : List Lock) : (setLocks l d).jnl = d.jnl := rfl
@[simp] theorem setLocks_clo (l : List Lock) : (setLocks l d).clo = d.clo := rfl
@[simp] theorem setLocks_kpr (l : List Lock) : (setLocks l d).kpr = d.kpr := rfl
@[simp] theorem setLocks_hld (l : List Lock) : (setLocks l d).hld = d.hld := rfl
@[simp] theorem setLocks_smt (l : List Lock) : (setLocks l d).smt = d.smt := rfl
@[simp] theorem setLocks_pcx (l : List Lock) : (setLocks l d).pcx = d.pcx := rfl
@[simp] theorem setLocks_hl (l : List Lock) : (setLocks l d).hl = d.hl := rfl
@[simp] theorem setLocks_ecc (l : List Lock) : (setLocks l d).ecc = d.ecc := rfl
@[simp] theorem setLocks_sec (l : List Lock) : (setLocks l d).sec = d.sec := rfl
@[simp] theorem setLocks_scu (l : List Lock) : (setLocks l d).scu = d.scu := rfl
@[simp] theorem setLocks_pwr (l : List Lock) : (setLocks l d).pwr = d.pwr := rfl
@[simp] theorem setLocks_thm (l : List Lock) : (setLocks l d).thm = d.thm := rfl
@[simp] theorem setLocks_age (l : List Lock) : (setLocks l d).age = d.age := rfl
@[simp] theorem setLocks_sil (l : List Lock) : (setLocks l d).sil = d.sil := rfl
@[simp] theorem setLocks_mgt (l : List Lock) : (setLocks l d).mgt = d.mgt := rfl
@[simp] theorem setLocks_io (l : List Lock) : (setLocks l d).io = d.io := rfl

/-! finish -/
@[simp] theorem finish_id (i : Nat) (x : Status) (r n : Nat) : (finish i x r n d).id = d.id := rfl
@[simp] theorem finish_rf (i : Nat) (x : Status) (r n : Nat) : (finish i x r n d).rf = d.rf := rfl
@[simp] theorem finish_bpm (i : Nat) (x : Status) (r n : Nat) : (finish i x r n d).bpm = d.bpm := rfl
@[simp] theorem finish_maps (i : Nat) (x : Status) (r n : Nat) : (finish i x r n d).maps = d.maps := rfl
@[simp] theorem finish_alm (i : Nat) (x : Status) (r n : Nat) : (finish i x r n d).alm = d.alm := rfl
@[simp] theorem finish_med (i : Nat) (x : Status) (r n : Nat) : (finish i x r n d).med = d.med := rfl
@[simp] theorem finish_jnl (i : Nat) (x : Status) (r n : Nat) : (finish i x r n d).jnl = d.jnl := rfl
@[simp] theorem finish_clo (i : Nat) (x : Status) (r n : Nat) : (finish i x r n d).clo = d.clo := rfl
@[simp] theorem finish_kpr (i : Nat) (x : Status) (r n : Nat) : (finish i x r n d).kpr = d.kpr := rfl
@[simp] theorem finish_hld (i : Nat) (x : Status) (r n : Nat) : (finish i x r n d).hld = d.hld := rfl
@[simp] theorem finish_smt (i : Nat) (x : Status) (r n : Nat) : (finish i x r n d).smt = d.smt := rfl
@[simp] theorem finish_pcx (i : Nat) (x : Status) (r n : Nat) : (finish i x r n d).pcx = d.pcx := rfl
@[simp] theorem finish_hl (i : Nat) (x : Status) (r n : Nat) : (finish i x r n d).hl = d.hl := rfl
@[simp] theorem finish_ecc (i : Nat) (x : Status) (r n : Nat) : (finish i x r n d).ecc = d.ecc := rfl
@[simp] theorem finish_sec (i : Nat) (x : Status) (r n : Nat) : (finish i x r n d).sec = d.sec := rfl
@[simp] theorem finish_scu (i : Nat) (x : Status) (r n : Nat) : (finish i x r n d).scu = d.scu := rfl
@[simp] theorem finish_pwr (i : Nat) (x : Status) (r n : Nat) : (finish i x r n d).pwr = d.pwr := rfl
@[simp] theorem finish_thm (i : Nat) (x : Status) (r n : Nat) : (finish i x r n d).thm = d.thm := rfl
@[simp] theorem finish_age (i : Nat) (x : Status) (r n : Nat) : (finish i x r n d).age = d.age := rfl
@[simp] theorem finish_sil (i : Nat) (x : Status) (r n : Nat) : (finish i x r n d).sil = d.sil := rfl
@[simp] theorem finish_mgt (i : Nat) (x : Status) (r n : Nat) : (finish i x r n d).mgt = d.mgt := rfl
@[simp] theorem finish_io (i : Nat) (x : Status) (r n : Nat) : (finish i x r n d).io = d.io := rfl

/-! blame -/
@[simp] theorem blame_id (i r n : Nat) : (blame i r n d).id = d.id := rfl
@[simp] theorem blame_rf (i r n : Nat) : (blame i r n d).rf = d.rf := rfl
@[simp] theorem blame_bpm (i r n : Nat) : (blame i r n d).bpm = d.bpm := rfl
@[simp] theorem blame_maps (i r n : Nat) : (blame i r n d).maps = d.maps := rfl
@[simp] theorem blame_alm (i r n : Nat) : (blame i r n d).alm = d.alm := rfl
@[simp] theorem blame_med (i r n : Nat) : (blame i r n d).med = d.med := rfl
@[simp] theorem blame_jnl (i r n : Nat) : (blame i r n d).jnl = d.jnl := rfl
@[simp] theorem blame_clo (i r n : Nat) : (blame i r n d).clo = d.clo := rfl
@[simp] theorem blame_kpr (i r n : Nat) : (blame i r n d).kpr = d.kpr := rfl
@[simp] theorem blame_hld (i r n : Nat) : (blame i r n d).hld = d.hld := rfl
@[simp] theorem blame_smt (i r n : Nat) : (blame i r n d).smt = d.smt := rfl
@[simp] theorem blame_pcx (i r n : Nat) : (blame i r n d).pcx = d.pcx := rfl
@[simp] theorem blame_hl (i r n : Nat) : (blame i r n d).hl = d.hl := rfl
@[simp] theorem blame_ecc (i r n : Nat) : (blame i r n d).ecc = d.ecc := rfl
@[simp] theorem blame_sec (i r n : Nat) : (blame i r n d).sec = d.sec := rfl
@[simp] theorem blame_scu (i r n : Nat) : (blame i r n d).scu = d.scu := rfl
@[simp] theorem blame_pwr (i r n : Nat) : (blame i r n d).pwr = d.pwr := rfl
@[simp] theorem blame_thm (i r n : Nat) : (blame i r n d).thm = d.thm := rfl
@[simp] theorem blame_age (i r n : Nat) : (blame i r n d).age = d.age := rfl
@[simp] theorem blame_sil (i r n : Nat) : (blame i r n d).sil = d.sil := rfl
@[simp] theorem blame_mgt (i r n : Nat) : (blame i r n d).mgt = d.mgt := rfl
@[simp] theorem blame_io (i r n : Nat) : (blame i r n d).io = d.io := rfl

/-! send -/
@[simp] theorem send_id (o : Out) : (send o d).id = d.id := rfl
@[simp] theorem send_rf (o : Out) : (send o d).rf = d.rf := rfl
@[simp] theorem send_qm (o : Out) : (send o d).qm = d.qm := rfl
@[simp] theorem send_bpm (o : Out) : (send o d).bpm = d.bpm := rfl
@[simp] theorem send_maps (o : Out) : (send o d).maps = d.maps := rfl
@[simp] theorem send_alm (o : Out) : (send o d).alm = d.alm := rfl
@[simp] theorem send_med (o : Out) : (send o d).med = d.med := rfl
@[simp] theorem send_jnl (o : Out) : (send o d).jnl = d.jnl := rfl
@[simp] theorem send_clo (o : Out) : (send o d).clo = d.clo := rfl
@[simp] theorem send_kpr (o : Out) : (send o d).kpr = d.kpr := rfl
@[simp] theorem send_hld (o : Out) : (send o d).hld = d.hld := rfl
@[simp] theorem send_smt (o : Out) : (send o d).smt = d.smt := rfl
@[simp] theorem send_pcx (o : Out) : (send o d).pcx = d.pcx := rfl
@[simp] theorem send_hl (o : Out) : (send o d).hl = d.hl := rfl
@[simp] theorem send_ecc (o : Out) : (send o d).ecc = d.ecc := rfl
@[simp] theorem send_sec (o : Out) : (send o d).sec = d.sec := rfl
@[simp] theorem send_scu (o : Out) : (send o d).scu = d.scu := rfl
@[simp] theorem send_pwr (o : Out) : (send o d).pwr = d.pwr := rfl
@[simp] theorem send_thm (o : Out) : (send o d).thm = d.thm := rfl
@[simp] theorem send_age (o : Out) : (send o d).age = d.age := rfl
@[simp] theorem send_sil (o : Out) : (send o d).sil = d.sil := rfl
@[simp] theorem send_mgt (o : Out) : (send o d).mgt = d.mgt := rfl

/-! draw -/
@[simp] theorem draw_id (n : Nat) : (draw n d).id = d.id := rfl
@[simp] theorem draw_rf (n : Nat) : (draw n d).rf = d.rf := rfl
@[simp] theorem draw_qm (n : Nat) : (draw n d).qm = d.qm := rfl
@[simp] theorem draw_bpm (n : Nat) : (draw n d).bpm = d.bpm := rfl
@[simp] theorem draw_maps (n : Nat) : (draw n d).maps = d.maps := rfl
@[simp] theorem draw_alm (n : Nat) : (draw n d).alm = d.alm := rfl
@[simp] theorem draw_med (n : Nat) : (draw n d).med = d.med := rfl
@[simp] theorem draw_jnl (n : Nat) : (draw n d).jnl = d.jnl := rfl
@[simp] theorem draw_clo (n : Nat) : (draw n d).clo = d.clo := rfl
@[simp] theorem draw_kpr (n : Nat) : (draw n d).kpr = d.kpr := rfl
@[simp] theorem draw_hld (n : Nat) : (draw n d).hld = d.hld := rfl
@[simp] theorem draw_smt (n : Nat) : (draw n d).smt = d.smt := rfl
@[simp] theorem draw_pcx (n : Nat) : (draw n d).pcx = d.pcx := rfl
@[simp] theorem draw_hl (n : Nat) : (draw n d).hl = d.hl := rfl
@[simp] theorem draw_ecc (n : Nat) : (draw n d).ecc = d.ecc := rfl
@[simp] theorem draw_sec (n : Nat) : (draw n d).sec = d.sec := rfl
@[simp] theorem draw_scu (n : Nat) : (draw n d).scu = d.scu := rfl
@[simp] theorem draw_pwr (n : Nat) : (draw n d).pwr = d.pwr := rfl
@[simp] theorem draw_thm (n : Nat) : (draw n d).thm = d.thm := rfl
@[simp] theorem draw_age (n : Nat) : (draw n d).age = d.age := rfl
@[simp] theorem draw_sil (n : Nat) : (draw n d).sil = d.sil := rfl
@[simp] theorem draw_mgt (n : Nat) : (draw n d).mgt = d.mgt := rfl

/-! raise -/
@[simp] theorem raise_id (y : EvType) (l : List Nat) : (raise y l d).id = d.id := rfl
@[simp] theorem raise_rf (y : EvType) (l : List Nat) : (raise y l d).rf = d.rf := rfl
@[simp] theorem raise_qm (y : EvType) (l : List Nat) : (raise y l d).qm = d.qm := rfl
@[simp] theorem raise_bpm (y : EvType) (l : List Nat) : (raise y l d).bpm = d.bpm := rfl
@[simp] theorem raise_maps (y : EvType) (l : List Nat) : (raise y l d).maps = d.maps := rfl
@[simp] theorem raise_alm (y : EvType) (l : List Nat) : (raise y l d).alm = d.alm := rfl
@[simp] theorem raise_med (y : EvType) (l : List Nat) : (raise y l d).med = d.med := rfl
@[simp] theorem raise_jnl (y : EvType) (l : List Nat) : (raise y l d).jnl = d.jnl := rfl
@[simp] theorem raise_clo (y : EvType) (l : List Nat) : (raise y l d).clo = d.clo := rfl
@[simp] theorem raise_kpr (y : EvType) (l : List Nat) : (raise y l d).kpr = d.kpr := rfl
@[simp] theorem raise_hld (y : EvType) (l : List Nat) : (raise y l d).hld = d.hld := rfl
@[simp] theorem raise_smt (y : EvType) (l : List Nat) : (raise y l d).smt = d.smt := rfl
@[simp] theorem raise_pcx (y : EvType) (l : List Nat) : (raise y l d).pcx = d.pcx := rfl
@[simp] theorem raise_hl (y : EvType) (l : List Nat) : (raise y l d).hl = d.hl := rfl
@[simp] theorem raise_ecc (y : EvType) (l : List Nat) : (raise y l d).ecc = d.ecc := rfl
@[simp] theorem raise_sec (y : EvType) (l : List Nat) : (raise y l d).sec = d.sec := rfl
@[simp] theorem raise_scu (y : EvType) (l : List Nat) : (raise y l d).scu = d.scu := rfl
@[simp] theorem raise_pwr (y : EvType) (l : List Nat) : (raise y l d).pwr = d.pwr := rfl
@[simp] theorem raise_thm (y : EvType) (l : List Nat) : (raise y l d).thm = d.thm := rfl
@[simp] theorem raise_age (y : EvType) (l : List Nat) : (raise y l d).age = d.age := rfl
@[simp] theorem raise_mgt (y : EvType) (l : List Nat) : (raise y l d).mgt = d.mgt := rfl
@[simp] theorem raise_io (y : EvType) (l : List Nat) : (raise y l d).io = d.io := rfl

/-! raiseP -/
@[simp] theorem raiseP_id (y : EvType) (l : List Nat) : (raiseP y l d).id = d.id := rfl
@[simp] theorem raiseP_rf (y : EvType) (l : List Nat) : (raiseP y l d).rf = d.rf := rfl
@[simp] theorem raiseP_qm (y : EvType) (l : List Nat) : (raiseP y l d).qm = d.qm := rfl
@[simp] theorem raiseP_bpm (y : EvType) (l : List Nat) : (raiseP y l d).bpm = d.bpm := rfl
@[simp] theorem raiseP_maps (y : EvType) (l : List Nat) : (raiseP y l d).maps = d.maps := rfl
@[simp] theorem raiseP_alm (y : EvType) (l : List Nat) : (raiseP y l d).alm = d.alm := rfl
@[simp] theorem raiseP_med (y : EvType) (l : List Nat) : (raiseP y l d).med = d.med := rfl
@[simp] theorem raiseP_jnl (y : EvType) (l : List Nat) : (raiseP y l d).jnl = d.jnl := rfl
@[simp] theorem raiseP_clo (y : EvType) (l : List Nat) : (raiseP y l d).clo = d.clo := rfl
@[simp] theorem raiseP_kpr (y : EvType) (l : List Nat) : (raiseP y l d).kpr = d.kpr := rfl
@[simp] theorem raiseP_hld (y : EvType) (l : List Nat) : (raiseP y l d).hld = d.hld := rfl
@[simp] theorem raiseP_smt (y : EvType) (l : List Nat) : (raiseP y l d).smt = d.smt := rfl
@[simp] theorem raiseP_pcx (y : EvType) (l : List Nat) : (raiseP y l d).pcx = d.pcx := rfl
@[simp] theorem raiseP_hl (y : EvType) (l : List Nat) : (raiseP y l d).hl = d.hl := rfl
@[simp] theorem raiseP_ecc (y : EvType) (l : List Nat) : (raiseP y l d).ecc = d.ecc := rfl
@[simp] theorem raiseP_sec (y : EvType) (l : List Nat) : (raiseP y l d).sec = d.sec := rfl
@[simp] theorem raiseP_scu (y : EvType) (l : List Nat) : (raiseP y l d).scu = d.scu := rfl
@[simp] theorem raiseP_pwr (y : EvType) (l : List Nat) : (raiseP y l d).pwr = d.pwr := rfl
@[simp] theorem raiseP_thm (y : EvType) (l : List Nat) : (raiseP y l d).thm = d.thm := rfl
@[simp] theorem raiseP_age (y : EvType) (l : List Nat) : (raiseP y l d).age = d.age := rfl
@[simp] theorem raiseP_mgt (y : EvType) (l : List Nat) : (raiseP y l d).mgt = d.mgt := rfl
@[simp] theorem raiseP_io (y : EvType) (l : List Nat) : (raiseP y l d).io = d.io := rfl

/-! record -/
@[simp] theorem record_id (r : JRec) : (record r d).id = d.id := rfl
@[simp] theorem record_rf (r : JRec) : (record r d).rf = d.rf := rfl
@[simp] theorem record_qm (r : JRec) : (record r d).qm = d.qm := rfl
@[simp] theorem record_bpm (r : JRec) : (record r d).bpm = d.bpm := rfl
@[simp] theorem record_alm (r : JRec) : (record r d).alm = d.alm := rfl
@[simp] theorem record_med (r : JRec) : (record r d).med = d.med := rfl
@[simp] theorem record_clo (r : JRec) : (record r d).clo = d.clo := rfl
@[simp] theorem record_kpr (r : JRec) : (record r d).kpr = d.kpr := rfl
@[simp] theorem record_hld (r : JRec) : (record r d).hld = d.hld := rfl
@[simp] theorem record_smt (r : JRec) : (record r d).smt = d.smt := rfl
@[simp] theorem record_pcx (r : JRec) : (record r d).pcx = d.pcx := rfl
@[simp] theorem record_hl (r : JRec) : (record r d).hl = d.hl := rfl
@[simp] theorem record_ecc (r : JRec) : (record r d).ecc = d.ecc := rfl
@[simp] theorem record_sec (r : JRec) : (record r d).sec = d.sec := rfl
@[simp] theorem record_scu (r : JRec) : (record r d).scu = d.scu := rfl
@[simp] theorem record_pwr (r : JRec) : (record r d).pwr = d.pwr := rfl
@[simp] theorem record_thm (r : JRec) : (record r d).thm = d.thm := rfl
@[simp] theorem record_age (r : JRec) : (record r d).age = d.age := rfl
@[simp] theorem record_sil (r : JRec) : (record r d).sil = d.sil := rfl
@[simp] theorem record_mgt (r : JRec) : (record r d).mgt = d.mgt := rfl
@[simp] theorem record_io (r : JRec) : (record r d).io = d.io := rfl

/-! onRow -/
@[simp] theorem onRow_id (i : Nat) (f : Row → Row) : (onRow i f d).id = d.id := rfl
@[simp] theorem onRow_rf (i : Nat) (f : Row → Row) : (onRow i f d).rf = d.rf := rfl
@[simp] theorem onRow_qm (i : Nat) (f : Row → Row) : (onRow i f d).qm = d.qm := rfl
@[simp] theorem onRow_bpm (i : Nat) (f : Row → Row) : (onRow i f d).bpm = d.bpm := rfl
@[simp] theorem onRow_alm (i : Nat) (f : Row → Row) : (onRow i f d).alm = d.alm := rfl
@[simp] theorem onRow_med (i : Nat) (f : Row → Row) : (onRow i f d).med = d.med := rfl
@[simp] theorem onRow_jnl (i : Nat) (f : Row → Row) : (onRow i f d).jnl = d.jnl := rfl
@[simp] theorem onRow_clo (i : Nat) (f : Row → Row) : (onRow i f d).clo = d.clo := rfl
@[simp] theorem onRow_kpr (i : Nat) (f : Row → Row) : (onRow i f d).kpr = d.kpr := rfl
@[simp] theorem onRow_hld (i : Nat) (f : Row → Row) : (onRow i f d).hld = d.hld := rfl
@[simp] theorem onRow_smt (i : Nat) (f : Row → Row) : (onRow i f d).smt = d.smt := rfl
@[simp] theorem onRow_pcx (i : Nat) (f : Row → Row) : (onRow i f d).pcx = d.pcx := rfl
@[simp] theorem onRow_hl (i : Nat) (f : Row → Row) : (onRow i f d).hl = d.hl := rfl
@[simp] theorem onRow_ecc (i : Nat) (f : Row → Row) : (onRow i f d).ecc = d.ecc := rfl
@[simp] theorem onRow_sec (i : Nat) (f : Row → Row) : (onRow i f d).sec = d.sec := rfl
@[simp] theorem onRow_scu (i : Nat) (f : Row → Row) : (onRow i f d).scu = d.scu := rfl
@[simp] theorem onRow_pwr (i : Nat) (f : Row → Row) : (onRow i f d).pwr = d.pwr := rfl
@[simp] theorem onRow_thm (i : Nat) (f : Row → Row) : (onRow i f d).thm = d.thm := rfl
@[simp] theorem onRow_age (i : Nat) (f : Row → Row) : (onRow i f d).age = d.age := rfl
@[simp] theorem onRow_sil (i : Nat) (f : Row → Row) : (onRow i f d).sil = d.sil := rfl
@[simp] theorem onRow_mgt (i : Nat) (f : Row → Row) : (onRow i f d).mgt = d.mgt := rfl
@[simp] theorem onRow_io (i : Nat) (f : Row → Row) : (onRow i f d).io = d.io := rfl

/-! onOp -/
@[simp] theorem onOp_id (i : Nat) (f : DieOp → DieOp) : (onOp i f d).id = d.id := rfl
@[simp] theorem onOp_rf (i : Nat) (f : DieOp → DieOp) : (onOp i f d).rf = d.rf := rfl
@[simp] theorem onOp_qm (i : Nat) (f : DieOp → DieOp) : (onOp i f d).qm = d.qm := rfl
@[simp] theorem onOp_bpm (i : Nat) (f : DieOp → DieOp) : (onOp i f d).bpm = d.bpm := rfl
@[simp] theorem onOp_maps (i : Nat) (f : DieOp → DieOp) : (onOp i f d).maps = d.maps := rfl
@[simp] theorem onOp_med (i : Nat) (f : DieOp → DieOp) : (onOp i f d).med = d.med := rfl
@[simp] theorem onOp_jnl (i : Nat) (f : DieOp → DieOp) : (onOp i f d).jnl = d.jnl := rfl
@[simp] theorem onOp_clo (i : Nat) (f : DieOp → DieOp) : (onOp i f d).clo = d.clo := rfl
@[simp] theorem onOp_kpr (i : Nat) (f : DieOp → DieOp) : (onOp i f d).kpr = d.kpr := rfl
@[simp] theorem onOp_hld (i : Nat) (f : DieOp → DieOp) : (onOp i f d).hld = d.hld := rfl
@[simp] theorem onOp_smt (i : Nat) (f : DieOp → DieOp) : (onOp i f d).smt = d.smt := rfl
@[simp] theorem onOp_pcx (i : Nat) (f : DieOp → DieOp) : (onOp i f d).pcx = d.pcx := rfl
@[simp] theorem onOp_hl (i : Nat) (f : DieOp → DieOp) : (onOp i f d).hl = d.hl := rfl
@[simp] theorem onOp_ecc (i : Nat) (f : DieOp → DieOp) : (onOp i f d).ecc = d.ecc := rfl
@[simp] theorem onOp_sec (i : Nat) (f : DieOp → DieOp) : (onOp i f d).sec = d.sec := rfl
@[simp] theorem onOp_scu (i : Nat) (f : DieOp → DieOp) : (onOp i f d).scu = d.scu := rfl
@[simp] theorem onOp_pwr (i : Nat) (f : DieOp → DieOp) : (onOp i f d).pwr = d.pwr := rfl
@[simp] theorem onOp_thm (i : Nat) (f : DieOp → DieOp) : (onOp i f d).thm = d.thm := rfl
@[simp] theorem onOp_age (i : Nat) (f : DieOp → DieOp) : (onOp i f d).age = d.age := rfl
@[simp] theorem onOp_sil (i : Nat) (f : DieOp → DieOp) : (onOp i f d).sil = d.sil := rfl
@[simp] theorem onOp_mgt (i : Nat) (f : DieOp → DieOp) : (onOp i f d).mgt = d.mgt := rfl
@[simp] theorem onOp_io (i : Nat) (f : DieOp → DieOp) : (onOp i f d).io = d.io := rfl

/-! onDie -/
@[simp] theorem onDie_id (i : Nat) (f : Die → Die) : (onDie i f d).id = d.id := rfl
@[simp] theorem onDie_rf (i : Nat) (f : Die → Die) : (onDie i f d).rf = d.rf := rfl
@[simp] theorem onDie_qm (i : Nat) (f : Die → Die) : (onDie i f d).qm = d.qm := rfl
@[simp] theorem onDie_bpm (i : Nat) (f : Die → Die) : (onDie i f d).bpm = d.bpm := rfl
@[simp] theorem onDie_maps (i : Nat) (f : Die → Die) : (onDie i f d).maps = d.maps := rfl
@[simp] theorem onDie_med (i : Nat) (f : Die → Die) : (onDie i f d).med = d.med := rfl
@[simp] theorem onDie_jnl (i : Nat) (f : Die → Die) : (onDie i f d).jnl = d.jnl := rfl
@[simp] theorem onDie_clo (i : Nat) (f : Die → Die) : (onDie i f d).clo = d.clo := rfl
@[simp] theorem onDie_kpr (i : Nat) (f : Die → Die) : (onDie i f d).kpr = d.kpr := rfl
@[simp] theorem onDie_hld (i : Nat) (f : Die → Die) : (onDie i f d).hld = d.hld := rfl
@[simp] theorem onDie_smt (i : Nat) (f : Die → Die) : (onDie i f d).smt = d.smt := rfl
@[simp] theorem onDie_pcx (i : Nat) (f : Die → Die) : (onDie i f d).pcx = d.pcx := rfl
@[simp] theorem onDie_hl (i : Nat) (f : Die → Die) : (onDie i f d).hl = d.hl := rfl
@[simp] theorem onDie_ecc (i : Nat) (f : Die → Die) : (onDie i f d).ecc = d.ecc := rfl
@[simp] theorem onDie_sec (i : Nat) (f : Die → Die) : (onDie i f d).sec = d.sec := rfl
@[simp] theorem onDie_scu (i : Nat) (f : Die → Die) : (onDie i f d).scu = d.scu := rfl
@[simp] theorem onDie_pwr (i : Nat) (f : Die → Die) : (onDie i f d).pwr = d.pwr := rfl
@[simp] theorem onDie_thm (i : Nat) (f : Die → Die) : (onDie i f d).thm = d.thm := rfl
@[simp] theorem onDie_age (i : Nat) (f : Die → Die) : (onDie i f d).age = d.age := rfl
@[simp] theorem onDie_sil (i : Nat) (f : Die → Die) : (onDie i f d).sil = d.sil := rfl
@[simp] theorem onDie_mgt (i : Nat) (f : Die → Die) : (onDie i f d).mgt = d.mgt := rfl
@[simp] theorem onDie_io (i : Nat) (f : Die → Die) : (onDie i f d).io = d.io := rfl

/-! onJob -/
@[simp] theorem onJob_id (i : Nat) (f : Job → Job) : (onJob i f d).id = d.id := rfl
@[simp] theorem onJob_rf (i : Nat) (f : Job → Job) : (onJob i f d).rf = d.rf := rfl
@[simp] theorem onJob_qm (i : Nat) (f : Job → Job) : (onJob i f d).qm = d.qm := rfl
@[simp] theorem onJob_bpm (i : Nat) (f : Job → Job) : (onJob i f d).bpm = d.bpm := rfl
@[simp] theorem onJob_maps (i : Nat) (f : Job → Job) : (onJob i f d).maps = d.maps := rfl
@[simp] theorem onJob_med (i : Nat) (f : Job → Job) : (onJob i f d).med = d.med := rfl
@[simp] theorem onJob_jnl (i : Nat) (f : Job → Job) : (onJob i f d).jnl = d.jnl := rfl
@[simp] theorem onJob_clo (i : Nat) (f : Job → Job) : (onJob i f d).clo = d.clo := rfl
@[simp] theorem onJob_kpr (i : Nat) (f : Job → Job) : (onJob i f d).kpr = d.kpr := rfl
@[simp] theorem onJob_hld (i : Nat) (f : Job → Job) : (onJob i f d).hld = d.hld := rfl
@[simp] theorem onJob_smt (i : Nat) (f : Job → Job) : (onJob i f d).smt = d.smt := rfl
@[simp] theorem onJob_pcx (i : Nat) (f : Job → Job) : (onJob i f d).pcx = d.pcx := rfl
@[simp] theorem onJob_hl (i : Nat) (f : Job → Job) : (onJob i f d).hl = d.hl := rfl
@[simp] theorem onJob_ecc (i : Nat) (f : Job → Job) : (onJob i f d).ecc = d.ecc := rfl
@[simp] theorem onJob_sec (i : Nat) (f : Job → Job) : (onJob i f d).sec = d.sec := rfl
@[simp] theorem onJob_scu (i : Nat) (f : Job → Job) : (onJob i f d).scu = d.scu := rfl
@[simp] theorem onJob_pwr (i : Nat) (f : Job → Job) : (onJob i f d).pwr = d.pwr := rfl
@[simp] theorem onJob_thm (i : Nat) (f : Job → Job) : (onJob i f d).thm = d.thm := rfl
@[simp] theorem onJob_age (i : Nat) (f : Job → Job) : (onJob i f d).age = d.age := rfl
@[simp] theorem onJob_sil (i : Nat) (f : Job → Job) : (onJob i f d).sil = d.sil := rfl
@[simp] theorem onJob_mgt (i : Nat) (f : Job → Job) : (onJob i f d).mgt = d.mgt := rfl
@[simp] theorem onJob_io (i : Nat) (f : Job → Job) : (onJob i f d).io = d.io := rfl

/-! onLink -/
@[simp] theorem onLink_id (i : Nat) (f : HLink → HLink) : (onLink i f d).id = d.id := rfl
@[simp] theorem onLink_rf (i : Nat) (f : HLink → HLink) : (onLink i f d).rf = d.rf := rfl
@[simp] theorem onLink_qm (i : Nat) (f : HLink → HLink) : (onLink i f d).qm = d.qm := rfl
@[simp] theorem onLink_bpm (i : Nat) (f : HLink → HLink) : (onLink i f d).bpm = d.bpm := rfl
@[simp] theorem onLink_maps (i : Nat) (f : HLink → HLink) : (onLink i f d).maps = d.maps := rfl
@[simp] theorem onLink_alm (i : Nat) (f : HLink → HLink) : (onLink i f d).alm = d.alm := rfl
@[simp] theorem onLink_med (i : Nat) (f : HLink → HLink) : (onLink i f d).med = d.med := rfl
@[simp] theorem onLink_jnl (i : Nat) (f : HLink → HLink) : (onLink i f d).jnl = d.jnl := rfl
@[simp] theorem onLink_clo (i : Nat) (f : HLink → HLink) : (onLink i f d).clo = d.clo := rfl
@[simp] theorem onLink_kpr (i : Nat) (f : HLink → HLink) : (onLink i f d).kpr = d.kpr := rfl
@[simp] theorem onLink_hld (i : Nat) (f : HLink → HLink) : (onLink i f d).hld = d.hld := rfl
@[simp] theorem onLink_smt (i : Nat) (f : HLink → HLink) : (onLink i f d).smt = d.smt := rfl
@[simp] theorem onLink_pcx (i : Nat) (f : HLink → HLink) : (onLink i f d).pcx = d.pcx := rfl
@[simp] theorem onLink_ecc (i : Nat) (f : HLink → HLink) : (onLink i f d).ecc = d.ecc := rfl
@[simp] theorem onLink_sec (i : Nat) (f : HLink → HLink) : (onLink i f d).sec = d.sec := rfl
@[simp] theorem onLink_scu (i : Nat) (f : HLink → HLink) : (onLink i f d).scu = d.scu := rfl
@[simp] theorem onLink_pwr (i : Nat) (f : HLink → HLink) : (onLink i f d).pwr = d.pwr := rfl
@[simp] theorem onLink_thm (i : Nat) (f : HLink → HLink) : (onLink i f d).thm = d.thm := rfl
@[simp] theorem onLink_age (i : Nat) (f : HLink → HLink) : (onLink i f d).age = d.age := rfl
@[simp] theorem onLink_sil (i : Nat) (f : HLink → HLink) : (onLink i f d).sil = d.sil := rfl
@[simp] theorem onLink_mgt (i : Nat) (f : HLink → HLink) : (onLink i f d).mgt = d.mgt := rfl
@[simp] theorem onLink_io (i : Nat) (f : HLink → HLink) : (onLink i f d).io = d.io := rfl

/-! onSeq -/
@[simp] theorem onSeq_id (i : Nat) (f : HSeq → HSeq) : (onSeq i f d).id = d.id := rfl
@[simp] theorem onSeq_rf (i : Nat) (f : HSeq → HSeq) : (onSeq i f d).rf = d.rf := rfl
@[simp] theorem onSeq_qm (i : Nat) (f : HSeq → HSeq) : (onSeq i f d).qm = d.qm := rfl
@[simp] theorem onSeq_bpm (i : Nat) (f : HSeq → HSeq) : (onSeq i f d).bpm = d.bpm := rfl
@[simp] theorem onSeq_maps (i : Nat) (f : HSeq → HSeq) : (onSeq i f d).maps = d.maps := rfl
@[simp] theorem onSeq_alm (i : Nat) (f : HSeq → HSeq) : (onSeq i f d).alm = d.alm := rfl
@[simp] theorem onSeq_med (i : Nat) (f : HSeq → HSeq) : (onSeq i f d).med = d.med := rfl
@[simp] theorem onSeq_jnl (i : Nat) (f : HSeq → HSeq) : (onSeq i f d).jnl = d.jnl := rfl
@[simp] theorem onSeq_clo (i : Nat) (f : HSeq → HSeq) : (onSeq i f d).clo = d.clo := rfl
@[simp] theorem onSeq_kpr (i : Nat) (f : HSeq → HSeq) : (onSeq i f d).kpr = d.kpr := rfl
@[simp] theorem onSeq_hld (i : Nat) (f : HSeq → HSeq) : (onSeq i f d).hld = d.hld := rfl
@[simp] theorem onSeq_smt (i : Nat) (f : HSeq → HSeq) : (onSeq i f d).smt = d.smt := rfl
@[simp] theorem onSeq_pcx (i : Nat) (f : HSeq → HSeq) : (onSeq i f d).pcx = d.pcx := rfl
@[simp] theorem onSeq_ecc (i : Nat) (f : HSeq → HSeq) : (onSeq i f d).ecc = d.ecc := rfl
@[simp] theorem onSeq_sec (i : Nat) (f : HSeq → HSeq) : (onSeq i f d).sec = d.sec := rfl
@[simp] theorem onSeq_scu (i : Nat) (f : HSeq → HSeq) : (onSeq i f d).scu = d.scu := rfl
@[simp] theorem onSeq_pwr (i : Nat) (f : HSeq → HSeq) : (onSeq i f d).pwr = d.pwr := rfl
@[simp] theorem onSeq_thm (i : Nat) (f : HSeq → HSeq) : (onSeq i f d).thm = d.thm := rfl
@[simp] theorem onSeq_age (i : Nat) (f : HSeq → HSeq) : (onSeq i f d).age = d.age := rfl
@[simp] theorem onSeq_sil (i : Nat) (f : HSeq → HSeq) : (onSeq i f d).sil = d.sil := rfl
@[simp] theorem onSeq_mgt (i : Nat) (f : HSeq → HSeq) : (onSeq i f d).mgt = d.mgt := rfl
@[simp] theorem onSeq_io (i : Nat) (f : HSeq → HSeq) : (onSeq i f d).io = d.io := rfl

/-! onStripe -/
@[simp] theorem onStripe_id (i j : Nat) (f : Stripe → Stripe) : (onStripe i j f d).id = d.id := rfl
@[simp] theorem onStripe_rf (i j : Nat) (f : Stripe → Stripe) : (onStripe i j f d).rf = d.rf := rfl
@[simp] theorem onStripe_qm (i j : Nat) (f : Stripe → Stripe) : (onStripe i j f d).qm = d.qm := rfl
@[simp] theorem onStripe_bpm (i j : Nat) (f : Stripe → Stripe) : (onStripe i j f d).bpm = d.bpm := rfl
@[simp] theorem onStripe_maps (i j : Nat) (f : Stripe → Stripe) : (onStripe i j f d).maps = d.maps := rfl
@[simp] theorem onStripe_alm (i j : Nat) (f : Stripe → Stripe) : (onStripe i j f d).alm = d.alm := rfl
@[simp] theorem onStripe_jnl (i j : Nat) (f : Stripe → Stripe) : (onStripe i j f d).jnl = d.jnl := rfl
@[simp] theorem onStripe_clo (i j : Nat) (f : Stripe → Stripe) : (onStripe i j f d).clo = d.clo := rfl
@[simp] theorem onStripe_kpr (i j : Nat) (f : Stripe → Stripe) : (onStripe i j f d).kpr = d.kpr := rfl
@[simp] theorem onStripe_hld (i j : Nat) (f : Stripe → Stripe) : (onStripe i j f d).hld = d.hld := rfl
@[simp] theorem onStripe_smt (i j : Nat) (f : Stripe → Stripe) : (onStripe i j f d).smt = d.smt := rfl
@[simp] theorem onStripe_pcx (i j : Nat) (f : Stripe → Stripe) : (onStripe i j f d).pcx = d.pcx := rfl
@[simp] theorem onStripe_hl (i j : Nat) (f : Stripe → Stripe) : (onStripe i j f d).hl = d.hl := rfl
@[simp] theorem onStripe_ecc (i j : Nat) (f : Stripe → Stripe) : (onStripe i j f d).ecc = d.ecc := rfl
@[simp] theorem onStripe_sec (i j : Nat) (f : Stripe → Stripe) : (onStripe i j f d).sec = d.sec := rfl
@[simp] theorem onStripe_scu (i j : Nat) (f : Stripe → Stripe) : (onStripe i j f d).scu = d.scu := rfl
@[simp] theorem onStripe_pwr (i j : Nat) (f : Stripe → Stripe) : (onStripe i j f d).pwr = d.pwr := rfl
@[simp] theorem onStripe_thm (i j : Nat) (f : Stripe → Stripe) : (onStripe i j f d).thm = d.thm := rfl
@[simp] theorem onStripe_age (i j : Nat) (f : Stripe → Stripe) : (onStripe i j f d).age = d.age := rfl
@[simp] theorem onStripe_sil (i j : Nat) (f : Stripe → Stripe) : (onStripe i j f d).sil = d.sil := rfl
@[simp] theorem onStripe_mgt (i j : Nat) (f : Stripe → Stripe) : (onStripe i j f d).mgt = d.mgt := rfl
@[simp] theorem onStripe_io (i j : Nat) (f : Stripe → Stripe) : (onStripe i j f d).io = d.io := rfl

/-! onPwr -/
@[simp] theorem onPwr_pwr (f : Pwr → Pwr) : (onPwr f d).pwr = f d.pwr := rfl
@[simp] theorem onPwr_id (f : Pwr → Pwr) : (onPwr f d).id = d.id := rfl
@[simp] theorem onPwr_rf (f : Pwr → Pwr) : (onPwr f d).rf = d.rf := rfl
@[simp] theorem onPwr_qm (f : Pwr → Pwr) : (onPwr f d).qm = d.qm := rfl
@[simp] theorem onPwr_bpm (f : Pwr → Pwr) : (onPwr f d).bpm = d.bpm := rfl
@[simp] theorem onPwr_maps (f : Pwr → Pwr) : (onPwr f d).maps = d.maps := rfl
@[simp] theorem onPwr_alm (f : Pwr → Pwr) : (onPwr f d).alm = d.alm := rfl
@[simp] theorem onPwr_med (f : Pwr → Pwr) : (onPwr f d).med = d.med := rfl
@[simp] theorem onPwr_jnl (f : Pwr → Pwr) : (onPwr f d).jnl = d.jnl := rfl
@[simp] theorem onPwr_clo (f : Pwr → Pwr) : (onPwr f d).clo = d.clo := rfl
@[simp] theorem onPwr_kpr (f : Pwr → Pwr) : (onPwr f d).kpr = d.kpr := rfl
@[simp] theorem onPwr_hld (f : Pwr → Pwr) : (onPwr f d).hld = d.hld := rfl
@[simp] theorem onPwr_smt (f : Pwr → Pwr) : (onPwr f d).smt = d.smt := rfl
@[simp] theorem onPwr_pcx (f : Pwr → Pwr) : (onPwr f d).pcx = d.pcx := rfl
@[simp] theorem onPwr_hl (f : Pwr → Pwr) : (onPwr f d).hl = d.hl := rfl
@[simp] theorem onPwr_ecc (f : Pwr → Pwr) : (onPwr f d).ecc = d.ecc := rfl
@[simp] theorem onPwr_sec (f : Pwr → Pwr) : (onPwr f d).sec = d.sec := rfl
@[simp] theorem onPwr_scu (f : Pwr → Pwr) : (onPwr f d).scu = d.scu := rfl
@[simp] theorem onPwr_thm (f : Pwr → Pwr) : (onPwr f d).thm = d.thm := rfl
@[simp] theorem onPwr_age (f : Pwr → Pwr) : (onPwr f d).age = d.age := rfl
@[simp] theorem onPwr_sil (f : Pwr → Pwr) : (onPwr f d).sil = d.sil := rfl
@[simp] theorem onPwr_mgt (f : Pwr → Pwr) : (onPwr f d).mgt = d.mgt := rfl
@[simp] theorem onPwr_io (f : Pwr → Pwr) : (onPwr f d).io = d.io := rfl

/-! touchPort -/
@[simp] theorem touchPort_id (u : ParkUnit) (t : Nat) : (touchPort u t d).id = d.id := rfl
@[simp] theorem touchPort_rf (u : ParkUnit) (t : Nat) : (touchPort u t d).rf = d.rf := rfl
@[simp] theorem touchPort_qm (u : ParkUnit) (t : Nat) : (touchPort u t d).qm = d.qm := rfl
@[simp] theorem touchPort_bpm (u : ParkUnit) (t : Nat) : (touchPort u t d).bpm = d.bpm := rfl
@[simp] theorem touchPort_maps (u : ParkUnit) (t : Nat) : (touchPort u t d).maps = d.maps := rfl
@[simp] theorem touchPort_alm (u : ParkUnit) (t : Nat) : (touchPort u t d).alm = d.alm := rfl
@[simp] theorem touchPort_med (u : ParkUnit) (t : Nat) : (touchPort u t d).med = d.med := rfl
@[simp] theorem touchPort_jnl (u : ParkUnit) (t : Nat) : (touchPort u t d).jnl = d.jnl := rfl
@[simp] theorem touchPort_clo (u : ParkUnit) (t : Nat) : (touchPort u t d).clo = d.clo := rfl
@[simp] theorem touchPort_kpr (u : ParkUnit) (t : Nat) : (touchPort u t d).kpr = d.kpr := rfl
@[simp] theorem touchPort_hld (u : ParkUnit) (t : Nat) : (touchPort u t d).hld = d.hld := rfl
@[simp] theorem touchPort_smt (u : ParkUnit) (t : Nat) : (touchPort u t d).smt = d.smt := rfl
@[simp] theorem touchPort_pcx (u : ParkUnit) (t : Nat) : (touchPort u t d).pcx = d.pcx := rfl
@[simp] theorem touchPort_hl (u : ParkUnit) (t : Nat) : (touchPort u t d).hl = d.hl := rfl
@[simp] theorem touchPort_ecc (u : ParkUnit) (t : Nat) : (touchPort u t d).ecc = d.ecc := rfl
@[simp] theorem touchPort_sec (u : ParkUnit) (t : Nat) : (touchPort u t d).sec = d.sec := rfl
@[simp] theorem touchPort_scu (u : ParkUnit) (t : Nat) : (touchPort u t d).scu = d.scu := rfl
@[simp] theorem touchPort_thm (u : ParkUnit) (t : Nat) : (touchPort u t d).thm = d.thm := rfl
@[simp] theorem touchPort_age (u : ParkUnit) (t : Nat) : (touchPort u t d).age = d.age := rfl
@[simp] theorem touchPort_sil (u : ParkUnit) (t : Nat) : (touchPort u t d).sil = d.sil := rfl
@[simp] theorem touchPort_mgt (u : ParkUnit) (t : Nat) : (touchPort u t d).mgt = d.mgt := rfl
@[simp] theorem touchPort_io (u : ParkUnit) (t : Nat) : (touchPort u t d).io = d.io := rfl

/-! tick -/
@[simp] theorem tick_id (t : Nat) : (tick t d).id = d.id := rfl
@[simp] theorem tick_rf (t : Nat) : (tick t d).rf = d.rf := rfl
@[simp] theorem tick_qm (t : Nat) : (tick t d).qm = d.qm := rfl
@[simp] theorem tick_bpm (t : Nat) : (tick t d).bpm = d.bpm := rfl
@[simp] theorem tick_maps (t : Nat) : (tick t d).maps = d.maps := rfl
@[simp] theorem tick_alm (t : Nat) : (tick t d).alm = d.alm := rfl
@[simp] theorem tick_med (t : Nat) : (tick t d).med = d.med := rfl
@[simp] theorem tick_jnl (t : Nat) : (tick t d).jnl = d.jnl := rfl
@[simp] theorem tick_clo (t : Nat) : (tick t d).clo = d.clo := rfl
@[simp] theorem tick_kpr (t : Nat) : (tick t d).kpr = d.kpr := rfl
@[simp] theorem tick_hld (t : Nat) : (tick t d).hld = d.hld := rfl
@[simp] theorem tick_smt (t : Nat) : (tick t d).smt = d.smt := rfl
@[simp] theorem tick_pcx (t : Nat) : (tick t d).pcx = d.pcx := rfl
@[simp] theorem tick_hl (t : Nat) : (tick t d).hl = d.hl := rfl
@[simp] theorem tick_ecc (t : Nat) : (tick t d).ecc = d.ecc := rfl
@[simp] theorem tick_sec (t : Nat) : (tick t d).sec = d.sec := rfl
@[simp] theorem tick_scu (t : Nat) : (tick t d).scu = d.scu := rfl
@[simp] theorem tick_thm (t : Nat) : (tick t d).thm = d.thm := rfl
@[simp] theorem tick_age (t : Nat) : (tick t d).age = d.age := rfl
@[simp] theorem tick_sil (t : Nat) : (tick t d).sil = d.sil := rfl
@[simp] theorem tick_mgt (t : Nat) : (tick t d).mgt = d.mgt := rfl

/-! onPcx -/
@[simp] theorem onPcx_pcx (f : Pcx → Pcx) : (onPcx f d).pcx = f d.pcx := rfl
@[simp] theorem onPcx_id (f : Pcx → Pcx) : (onPcx f d).id = d.id := rfl
@[simp] theorem onPcx_rf (f : Pcx → Pcx) : (onPcx f d).rf = d.rf := rfl
@[simp] theorem onPcx_qm (f : Pcx → Pcx) : (onPcx f d).qm = d.qm := rfl
@[simp] theorem onPcx_bpm (f : Pcx → Pcx) : (onPcx f d).bpm = d.bpm := rfl
@[simp] theorem onPcx_maps (f : Pcx → Pcx) : (onPcx f d).maps = d.maps := rfl
@[simp] theorem onPcx_alm (f : Pcx → Pcx) : (onPcx f d).alm = d.alm := rfl
@[simp] theorem onPcx_med (f : Pcx → Pcx) : (onPcx f d).med = d.med := rfl
@[simp] theorem onPcx_jnl (f : Pcx → Pcx) : (onPcx f d).jnl = d.jnl := rfl
@[simp] theorem onPcx_clo (f : Pcx → Pcx) : (onPcx f d).clo = d.clo := rfl
@[simp] theorem onPcx_kpr (f : Pcx → Pcx) : (onPcx f d).kpr = d.kpr := rfl
@[simp] theorem onPcx_hld (f : Pcx → Pcx) : (onPcx f d).hld = d.hld := rfl
@[simp] theorem onPcx_smt (f : Pcx → Pcx) : (onPcx f d).smt = d.smt := rfl
@[simp] theorem onPcx_hl (f : Pcx → Pcx) : (onPcx f d).hl = d.hl := rfl
@[simp] theorem onPcx_ecc (f : Pcx → Pcx) : (onPcx f d).ecc = d.ecc := rfl
@[simp] theorem onPcx_sec (f : Pcx → Pcx) : (onPcx f d).sec = d.sec := rfl
@[simp] theorem onPcx_scu (f : Pcx → Pcx) : (onPcx f d).scu = d.scu := rfl
@[simp] theorem onPcx_pwr (f : Pcx → Pcx) : (onPcx f d).pwr = d.pwr := rfl
@[simp] theorem onPcx_thm (f : Pcx → Pcx) : (onPcx f d).thm = d.thm := rfl
@[simp] theorem onPcx_age (f : Pcx → Pcx) : (onPcx f d).age = d.age := rfl
@[simp] theorem onPcx_sil (f : Pcx → Pcx) : (onPcx f d).sil = d.sil := rfl
@[simp] theorem onPcx_mgt (f : Pcx → Pcx) : (onPcx f d).mgt = d.mgt := rfl
@[simp] theorem onPcx_io (f : Pcx → Pcx) : (onPcx f d).io = d.io := rfl

/-! onSmt -/
@[simp] theorem onSmt_smt (f : Smt → Smt) : (onSmt f d).smt = f d.smt := rfl
@[simp] theorem onSmt_id (f : Smt → Smt) : (onSmt f d).id = d.id := rfl
@[simp] theorem onSmt_rf (f : Smt → Smt) : (onSmt f d).rf = d.rf := rfl
@[simp] theorem onSmt_qm (f : Smt → Smt) : (onSmt f d).qm = d.qm := rfl
@[simp] theorem onSmt_bpm (f : Smt → Smt) : (onSmt f d).bpm = d.bpm := rfl
@[simp] theorem onSmt_maps (f : Smt → Smt) : (onSmt f d).maps = d.maps := rfl
@[simp] theorem onSmt_alm (f : Smt → Smt) : (onSmt f d).alm = d.alm := rfl
@[simp] theorem onSmt_med (f : Smt → Smt) : (onSmt f d).med = d.med := rfl
@[simp] theorem onSmt_jnl (f : Smt → Smt) : (onSmt f d).jnl = d.jnl := rfl
@[simp] theorem onSmt_clo (f : Smt → Smt) : (onSmt f d).clo = d.clo := rfl
@[simp] theorem onSmt_kpr (f : Smt → Smt) : (onSmt f d).kpr = d.kpr := rfl
@[simp] theorem onSmt_hld (f : Smt → Smt) : (onSmt f d).hld = d.hld := rfl
@[simp] theorem onSmt_pcx (f : Smt → Smt) : (onSmt f d).pcx = d.pcx := rfl
@[simp] theorem onSmt_hl (f : Smt → Smt) : (onSmt f d).hl = d.hl := rfl
@[simp] theorem onSmt_ecc (f : Smt → Smt) : (onSmt f d).ecc = d.ecc := rfl
@[simp] theorem onSmt_sec (f : Smt → Smt) : (onSmt f d).sec = d.sec := rfl
@[simp] theorem onSmt_scu (f : Smt → Smt) : (onSmt f d).scu = d.scu := rfl
@[simp] theorem onSmt_pwr (f : Smt → Smt) : (onSmt f d).pwr = d.pwr := rfl
@[simp] theorem onSmt_thm (f : Smt → Smt) : (onSmt f d).thm = d.thm := rfl
@[simp] theorem onSmt_age (f : Smt → Smt) : (onSmt f d).age = d.age := rfl
@[simp] theorem onSmt_sil (f : Smt → Smt) : (onSmt f d).sil = d.sil := rfl
@[simp] theorem onSmt_mgt (f : Smt → Smt) : (onSmt f d).mgt = d.mgt := rfl
@[simp] theorem onSmt_io (f : Smt → Smt) : (onSmt f d).io = d.io := rfl

/-! onConn -/
@[simp] theorem onConn_id (i : Nat) (f : Conn → Conn) : (onConn i f d).id = d.id := rfl
@[simp] theorem onConn_rf (i : Nat) (f : Conn → Conn) : (onConn i f d).rf = d.rf := rfl
@[simp] theorem onConn_qm (i : Nat) (f : Conn → Conn) : (onConn i f d).qm = d.qm := rfl
@[simp] theorem onConn_bpm (i : Nat) (f : Conn → Conn) : (onConn i f d).bpm = d.bpm := rfl
@[simp] theorem onConn_maps (i : Nat) (f : Conn → Conn) : (onConn i f d).maps = d.maps := rfl
@[simp] theorem onConn_alm (i : Nat) (f : Conn → Conn) : (onConn i f d).alm = d.alm := rfl
@[simp] theorem onConn_med (i : Nat) (f : Conn → Conn) : (onConn i f d).med = d.med := rfl
@[simp] theorem onConn_jnl (i : Nat) (f : Conn → Conn) : (onConn i f d).jnl = d.jnl := rfl
@[simp] theorem onConn_clo (i : Nat) (f : Conn → Conn) : (onConn i f d).clo = d.clo := rfl
@[simp] theorem onConn_kpr (i : Nat) (f : Conn → Conn) : (onConn i f d).kpr = d.kpr := rfl
@[simp] theorem onConn_hld (i : Nat) (f : Conn → Conn) : (onConn i f d).hld = d.hld := rfl
@[simp] theorem onConn_pcx (i : Nat) (f : Conn → Conn) : (onConn i f d).pcx = d.pcx := rfl
@[simp] theorem onConn_hl (i : Nat) (f : Conn → Conn) : (onConn i f d).hl = d.hl := rfl
@[simp] theorem onConn_ecc (i : Nat) (f : Conn → Conn) : (onConn i f d).ecc = d.ecc := rfl
@[simp] theorem onConn_sec (i : Nat) (f : Conn → Conn) : (onConn i f d).sec = d.sec := rfl
@[simp] theorem onConn_scu (i : Nat) (f : Conn → Conn) : (onConn i f d).scu = d.scu := rfl
@[simp] theorem onConn_pwr (i : Nat) (f : Conn → Conn) : (onConn i f d).pwr = d.pwr := rfl
@[simp] theorem onConn_thm (i : Nat) (f : Conn → Conn) : (onConn i f d).thm = d.thm := rfl
@[simp] theorem onConn_age (i : Nat) (f : Conn → Conn) : (onConn i f d).age = d.age := rfl
@[simp] theorem onConn_sil (i : Nat) (f : Conn → Conn) : (onConn i f d).sil = d.sil := rfl
@[simp] theorem onConn_mgt (i : Nat) (f : Conn → Conn) : (onConn i f d).mgt = d.mgt := rfl
@[simp] theorem onConn_io (i : Nat) (f : Conn → Conn) : (onConn i f d).io = d.io := rfl

/-! onKpr -/
@[simp] theorem onKpr_kpr (f : Kpr → Kpr) : (onKpr f d).kpr = f d.kpr := rfl
@[simp] theorem onKpr_id (f : Kpr → Kpr) : (onKpr f d).id = d.id := rfl
@[simp] theorem onKpr_rf (f : Kpr → Kpr) : (onKpr f d).rf = d.rf := rfl
@[simp] theorem onKpr_qm (f : Kpr → Kpr) : (onKpr f d).qm = d.qm := rfl
@[simp] theorem onKpr_bpm (f : Kpr → Kpr) : (onKpr f d).bpm = d.bpm := rfl
@[simp] theorem onKpr_maps (f : Kpr → Kpr) : (onKpr f d).maps = d.maps := rfl
@[simp] theorem onKpr_alm (f : Kpr → Kpr) : (onKpr f d).alm = d.alm := rfl
@[simp] theorem onKpr_med (f : Kpr → Kpr) : (onKpr f d).med = d.med := rfl
@[simp] theorem onKpr_jnl (f : Kpr → Kpr) : (onKpr f d).jnl = d.jnl := rfl
@[simp] theorem onKpr_clo (f : Kpr → Kpr) : (onKpr f d).clo = d.clo := rfl
@[simp] theorem onKpr_hld (f : Kpr → Kpr) : (onKpr f d).hld = d.hld := rfl
@[simp] theorem onKpr_smt (f : Kpr → Kpr) : (onKpr f d).smt = d.smt := rfl
@[simp] theorem onKpr_pcx (f : Kpr → Kpr) : (onKpr f d).pcx = d.pcx := rfl
@[simp] theorem onKpr_hl (f : Kpr → Kpr) : (onKpr f d).hl = d.hl := rfl
@[simp] theorem onKpr_ecc (f : Kpr → Kpr) : (onKpr f d).ecc = d.ecc := rfl
@[simp] theorem onKpr_sec (f : Kpr → Kpr) : (onKpr f d).sec = d.sec := rfl
@[simp] theorem onKpr_scu (f : Kpr → Kpr) : (onKpr f d).scu = d.scu := rfl
@[simp] theorem onKpr_pwr (f : Kpr → Kpr) : (onKpr f d).pwr = d.pwr := rfl
@[simp] theorem onKpr_thm (f : Kpr → Kpr) : (onKpr f d).thm = d.thm := rfl
@[simp] theorem onKpr_age (f : Kpr → Kpr) : (onKpr f d).age = d.age := rfl
@[simp] theorem onKpr_sil (f : Kpr → Kpr) : (onKpr f d).sil = d.sil := rfl
@[simp] theorem onKpr_mgt (f : Kpr → Kpr) : (onKpr f d).mgt = d.mgt := rfl
@[simp] theorem onKpr_io (f : Kpr → Kpr) : (onKpr f d).io = d.io := rfl

/-! onEcc -/
@[simp] theorem onEcc_ecc (f : Ecc → Ecc) : (onEcc f d).ecc = f d.ecc := rfl
@[simp] theorem onEcc_id (f : Ecc → Ecc) : (onEcc f d).id = d.id := rfl
@[simp] theorem onEcc_rf (f : Ecc → Ecc) : (onEcc f d).rf = d.rf := rfl
@[simp] theorem onEcc_qm (f : Ecc → Ecc) : (onEcc f d).qm = d.qm := rfl
@[simp] theorem onEcc_bpm (f : Ecc → Ecc) : (onEcc f d).bpm = d.bpm := rfl
@[simp] theorem onEcc_maps (f : Ecc → Ecc) : (onEcc f d).maps = d.maps := rfl
@[simp] theorem onEcc_alm (f : Ecc → Ecc) : (onEcc f d).alm = d.alm := rfl
@[simp] theorem onEcc_med (f : Ecc → Ecc) : (onEcc f d).med = d.med := rfl
@[simp] theorem onEcc_jnl (f : Ecc → Ecc) : (onEcc f d).jnl = d.jnl := rfl
@[simp] theorem onEcc_clo (f : Ecc → Ecc) : (onEcc f d).clo = d.clo := rfl
@[simp] theorem onEcc_kpr (f : Ecc → Ecc) : (onEcc f d).kpr = d.kpr := rfl
@[simp] theorem onEcc_hld (f : Ecc → Ecc) : (onEcc f d).hld = d.hld := rfl
@[simp] theorem onEcc_smt (f : Ecc → Ecc) : (onEcc f d).smt = d.smt := rfl
@[simp] theorem onEcc_pcx (f : Ecc → Ecc) : (onEcc f d).pcx = d.pcx := rfl
@[simp] theorem onEcc_hl (f : Ecc → Ecc) : (onEcc f d).hl = d.hl := rfl
@[simp] theorem onEcc_sec (f : Ecc → Ecc) : (onEcc f d).sec = d.sec := rfl
@[simp] theorem onEcc_scu (f : Ecc → Ecc) : (onEcc f d).scu = d.scu := rfl
@[simp] theorem onEcc_pwr (f : Ecc → Ecc) : (onEcc f d).pwr = d.pwr := rfl
@[simp] theorem onEcc_thm (f : Ecc → Ecc) : (onEcc f d).thm = d.thm := rfl
@[simp] theorem onEcc_age (f : Ecc → Ecc) : (onEcc f d).age = d.age := rfl
@[simp] theorem onEcc_sil (f : Ecc → Ecc) : (onEcc f d).sil = d.sil := rfl
@[simp] theorem onEcc_mgt (f : Ecc → Ecc) : (onEcc f d).mgt = d.mgt := rfl
@[simp] theorem onEcc_io (f : Ecc → Ecc) : (onEcc f d).io = d.io := rfl

/-! onSec -/
@[simp] theorem onSec_sec (f : Sec → Sec) : (onSec f d).sec = f d.sec := rfl
@[simp] theorem onSec_id (f : Sec → Sec) : (onSec f d).id = d.id := rfl
@[simp] theorem onSec_rf (f : Sec → Sec) : (onSec f d).rf = d.rf := rfl
@[simp] theorem onSec_qm (f : Sec → Sec) : (onSec f d).qm = d.qm := rfl
@[simp] theorem onSec_bpm (f : Sec → Sec) : (onSec f d).bpm = d.bpm := rfl
@[simp] theorem onSec_maps (f : Sec → Sec) : (onSec f d).maps = d.maps := rfl
@[simp] theorem onSec_alm (f : Sec → Sec) : (onSec f d).alm = d.alm := rfl
@[simp] theorem onSec_med (f : Sec → Sec) : (onSec f d).med = d.med := rfl
@[simp] theorem onSec_jnl (f : Sec → Sec) : (onSec f d).jnl = d.jnl := rfl
@[simp] theorem onSec_clo (f : Sec → Sec) : (onSec f d).clo = d.clo := rfl
@[simp] theorem onSec_kpr (f : Sec → Sec) : (onSec f d).kpr = d.kpr := rfl
@[simp] theorem onSec_hld (f : Sec → Sec) : (onSec f d).hld = d.hld := rfl
@[simp] theorem onSec_smt (f : Sec → Sec) : (onSec f d).smt = d.smt := rfl
@[simp] theorem onSec_pcx (f : Sec → Sec) : (onSec f d).pcx = d.pcx := rfl
@[simp] theorem onSec_hl (f : Sec → Sec) : (onSec f d).hl = d.hl := rfl
@[simp] theorem onSec_ecc (f : Sec → Sec) : (onSec f d).ecc = d.ecc := rfl
@[simp] theorem onSec_scu (f : Sec → Sec) : (onSec f d).scu = d.scu := rfl
@[simp] theorem onSec_pwr (f : Sec → Sec) : (onSec f d).pwr = d.pwr := rfl
@[simp] theorem onSec_thm (f : Sec → Sec) : (onSec f d).thm = d.thm := rfl
@[simp] theorem onSec_age (f : Sec → Sec) : (onSec f d).age = d.age := rfl
@[simp] theorem onSec_sil (f : Sec → Sec) : (onSec f d).sil = d.sil := rfl
@[simp] theorem onSec_mgt (f : Sec → Sec) : (onSec f d).mgt = d.mgt := rfl
@[simp] theorem onSec_io (f : Sec → Sec) : (onSec f d).io = d.io := rfl

/-! onScu -/
@[simp] theorem onScu_scu (f : Scu → Scu) : (onScu f d).scu = f d.scu := rfl
@[simp] theorem onScu_id (f : Scu → Scu) : (onScu f d).id = d.id := rfl
@[simp] theorem onScu_rf (f : Scu → Scu) : (onScu f d).rf = d.rf := rfl
@[simp] theorem onScu_qm (f : Scu → Scu) : (onScu f d).qm = d.qm := rfl
@[simp] theorem onScu_bpm (f : Scu → Scu) : (onScu f d).bpm = d.bpm := rfl
@[simp] theorem onScu_maps (f : Scu → Scu) : (onScu f d).maps = d.maps := rfl
@[simp] theorem onScu_alm (f : Scu → Scu) : (onScu f d).alm = d.alm := rfl
@[simp] theorem onScu_med (f : Scu → Scu) : (onScu f d).med = d.med := rfl
@[simp] theorem onScu_jnl (f : Scu → Scu) : (onScu f d).jnl = d.jnl := rfl
@[simp] theorem onScu_clo (f : Scu → Scu) : (onScu f d).clo = d.clo := rfl
@[simp] theorem onScu_kpr (f : Scu → Scu) : (onScu f d).kpr = d.kpr := rfl
@[simp] theorem onScu_hld (f : Scu → Scu) : (onScu f d).hld = d.hld := rfl
@[simp] theorem onScu_smt (f : Scu → Scu) : (onScu f d).smt = d.smt := rfl
@[simp] theorem onScu_pcx (f : Scu → Scu) : (onScu f d).pcx = d.pcx := rfl
@[simp] theorem onScu_hl (f : Scu → Scu) : (onScu f d).hl = d.hl := rfl
@[simp] theorem onScu_ecc (f : Scu → Scu) : (onScu f d).ecc = d.ecc := rfl
@[simp] theorem onScu_sec (f : Scu → Scu) : (onScu f d).sec = d.sec := rfl
@[simp] theorem onScu_pwr (f : Scu → Scu) : (onScu f d).pwr = d.pwr := rfl
@[simp] theorem onScu_thm (f : Scu → Scu) : (onScu f d).thm = d.thm := rfl
@[simp] theorem onScu_age (f : Scu → Scu) : (onScu f d).age = d.age := rfl
@[simp] theorem onScu_sil (f : Scu → Scu) : (onScu f d).sil = d.sil := rfl
@[simp] theorem onScu_mgt (f : Scu → Scu) : (onScu f d).mgt = d.mgt := rfl
@[simp] theorem onScu_io (f : Scu → Scu) : (onScu f d).io = d.io := rfl

/-! onThm -/
@[simp] theorem onThm_thm (f : Thm → Thm) : (onThm f d).thm = f d.thm := rfl
@[simp] theorem onThm_id (f : Thm → Thm) : (onThm f d).id = d.id := rfl
@[simp] theorem onThm_rf (f : Thm → Thm) : (onThm f d).rf = d.rf := rfl
@[simp] theorem onThm_qm (f : Thm → Thm) : (onThm f d).qm = d.qm := rfl
@[simp] theorem onThm_bpm (f : Thm → Thm) : (onThm f d).bpm = d.bpm := rfl
@[simp] theorem onThm_maps (f : Thm → Thm) : (onThm f d).maps = d.maps := rfl
@[simp] theorem onThm_alm (f : Thm → Thm) : (onThm f d).alm = d.alm := rfl
@[simp] theorem onThm_med (f : Thm → Thm) : (onThm f d).med = d.med := rfl
@[simp] theorem onThm_jnl (f : Thm → Thm) : (onThm f d).jnl = d.jnl := rfl
@[simp] theorem onThm_clo (f : Thm → Thm) : (onThm f d).clo = d.clo := rfl
@[simp] theorem onThm_kpr (f : Thm → Thm) : (onThm f d).kpr = d.kpr := rfl
@[simp] theorem onThm_hld (f : Thm → Thm) : (onThm f d).hld = d.hld := rfl
@[simp] theorem onThm_smt (f : Thm → Thm) : (onThm f d).smt = d.smt := rfl
@[simp] theorem onThm_pcx (f : Thm → Thm) : (onThm f d).pcx = d.pcx := rfl
@[simp] theorem onThm_hl (f : Thm → Thm) : (onThm f d).hl = d.hl := rfl
@[simp] theorem onThm_ecc (f : Thm → Thm) : (onThm f d).ecc = d.ecc := rfl
@[simp] theorem onThm_sec (f : Thm → Thm) : (onThm f d).sec = d.sec := rfl
@[simp] theorem onThm_scu (f : Thm → Thm) : (onThm f d).scu = d.scu := rfl
@[simp] theorem onThm_pwr (f : Thm → Thm) : (onThm f d).pwr = d.pwr := rfl
@[simp] theorem onThm_age (f : Thm → Thm) : (onThm f d).age = d.age := rfl
@[simp] theorem onThm_sil (f : Thm → Thm) : (onThm f d).sil = d.sil := rfl
@[simp] theorem onThm_mgt (f : Thm → Thm) : (onThm f d).mgt = d.mgt := rfl
@[simp] theorem onThm_io (f : Thm → Thm) : (onThm f d).io = d.io := rfl

/-! onAge -/
@[simp] theorem onAge_age (f : Age → Age) : (onAge f d).age = f d.age := rfl
@[simp] theorem onAge_id (f : Age → Age) : (onAge f d).id = d.id := rfl
@[simp] theorem onAge_rf (f : Age → Age) : (onAge f d).rf = d.rf := rfl
@[simp] theorem onAge_qm (f : Age → Age) : (onAge f d).qm = d.qm := rfl
@[simp] theorem onAge_bpm (f : Age → Age) : (onAge f d).bpm = d.bpm := rfl
@[simp] theorem onAge_maps (f : Age → Age) : (onAge f d).maps = d.maps := rfl
@[simp] theorem onAge_alm (f : Age → Age) : (onAge f d).alm = d.alm := rfl
@[simp] theorem onAge_med (f : Age → Age) : (onAge f d).med = d.med := rfl
@[simp] theorem onAge_jnl (f : Age → Age) : (onAge f d).jnl = d.jnl := rfl
@[simp] theorem onAge_clo (f : Age → Age) : (onAge f d).clo = d.clo := rfl
@[simp] theorem onAge_kpr (f : Age → Age) : (onAge f d).kpr = d.kpr := rfl
@[simp] theorem onAge_hld (f : Age → Age) : (onAge f d).hld = d.hld := rfl
@[simp] theorem onAge_smt (f : Age → Age) : (onAge f d).smt = d.smt := rfl
@[simp] theorem onAge_pcx (f : Age → Age) : (onAge f d).pcx = d.pcx := rfl
@[simp] theorem onAge_hl (f : Age → Age) : (onAge f d).hl = d.hl := rfl
@[simp] theorem onAge_ecc (f : Age → Age) : (onAge f d).ecc = d.ecc := rfl
@[simp] theorem onAge_sec (f : Age → Age) : (onAge f d).sec = d.sec := rfl
@[simp] theorem onAge_scu (f : Age → Age) : (onAge f d).scu = d.scu := rfl
@[simp] theorem onAge_pwr (f : Age → Age) : (onAge f d).pwr = d.pwr := rfl
@[simp] theorem onAge_thm (f : Age → Age) : (onAge f d).thm = d.thm := rfl
@[simp] theorem onAge_sil (f : Age → Age) : (onAge f d).sil = d.sil := rfl
@[simp] theorem onAge_mgt (f : Age → Age) : (onAge f d).mgt = d.mgt := rfl
@[simp] theorem onAge_io (f : Age → Age) : (onAge f d).io = d.io := rfl

/-! onSil -/
@[simp] theorem onSil_sil (f : Sil → Sil) : (onSil f d).sil = f d.sil := rfl
@[simp] theorem onSil_id (f : Sil → Sil) : (onSil f d).id = d.id := rfl
@[simp] theorem onSil_rf (f : Sil → Sil) : (onSil f d).rf = d.rf := rfl
@[simp] theorem onSil_qm (f : Sil → Sil) : (onSil f d).qm = d.qm := rfl
@[simp] theorem onSil_bpm (f : Sil → Sil) : (onSil f d).bpm = d.bpm := rfl
@[simp] theorem onSil_maps (f : Sil → Sil) : (onSil f d).maps = d.maps := rfl
@[simp] theorem onSil_alm (f : Sil → Sil) : (onSil f d).alm = d.alm := rfl
@[simp] theorem onSil_med (f : Sil → Sil) : (onSil f d).med = d.med := rfl
@[simp] theorem onSil_jnl (f : Sil → Sil) : (onSil f d).jnl = d.jnl := rfl
@[simp] theorem onSil_clo (f : Sil → Sil) : (onSil f d).clo = d.clo := rfl
@[simp] theorem onSil_kpr (f : Sil → Sil) : (onSil f d).kpr = d.kpr := rfl
@[simp] theorem onSil_hld (f : Sil → Sil) : (onSil f d).hld = d.hld := rfl
@[simp] theorem onSil_smt (f : Sil → Sil) : (onSil f d).smt = d.smt := rfl
@[simp] theorem onSil_pcx (f : Sil → Sil) : (onSil f d).pcx = d.pcx := rfl
@[simp] theorem onSil_hl (f : Sil → Sil) : (onSil f d).hl = d.hl := rfl
@[simp] theorem onSil_ecc (f : Sil → Sil) : (onSil f d).ecc = d.ecc := rfl
@[simp] theorem onSil_sec (f : Sil → Sil) : (onSil f d).sec = d.sec := rfl
@[simp] theorem onSil_scu (f : Sil → Sil) : (onSil f d).scu = d.scu := rfl
@[simp] theorem onSil_pwr (f : Sil → Sil) : (onSil f d).pwr = d.pwr := rfl
@[simp] theorem onSil_thm (f : Sil → Sil) : (onSil f d).thm = d.thm := rfl
@[simp] theorem onSil_age (f : Sil → Sil) : (onSil f d).age = d.age := rfl
@[simp] theorem onSil_mgt (f : Sil → Sil) : (onSil f d).mgt = d.mgt := rfl
@[simp] theorem onSil_io (f : Sil → Sil) : (onSil f d).io = d.io := rfl

/-! onMgt -/
@[simp] theorem onMgt_mgt (f : Mgt → Mgt) : (onMgt f d).mgt = f d.mgt := rfl
@[simp] theorem onMgt_id (f : Mgt → Mgt) : (onMgt f d).id = d.id := rfl
@[simp] theorem onMgt_rf (f : Mgt → Mgt) : (onMgt f d).rf = d.rf := rfl
@[simp] theorem onMgt_qm (f : Mgt → Mgt) : (onMgt f d).qm = d.qm := rfl
@[simp] theorem onMgt_bpm (f : Mgt → Mgt) : (onMgt f d).bpm = d.bpm := rfl
@[simp] theorem onMgt_maps (f : Mgt → Mgt) : (onMgt f d).maps = d.maps := rfl
@[simp] theorem onMgt_alm (f : Mgt → Mgt) : (onMgt f d).alm = d.alm := rfl
@[simp] theorem onMgt_med (f : Mgt → Mgt) : (onMgt f d).med = d.med := rfl
@[simp] theorem onMgt_jnl (f : Mgt → Mgt) : (onMgt f d).jnl = d.jnl := rfl
@[simp] theorem onMgt_clo (f : Mgt → Mgt) : (onMgt f d).clo = d.clo := rfl
@[simp] theorem onMgt_kpr (f : Mgt → Mgt) : (onMgt f d).kpr = d.kpr := rfl
@[simp] theorem onMgt_hld (f : Mgt → Mgt) : (onMgt f d).hld = d.hld := rfl
@[simp] theorem onMgt_smt (f : Mgt → Mgt) : (onMgt f d).smt = d.smt := rfl
@[simp] theorem onMgt_pcx (f : Mgt → Mgt) : (onMgt f d).pcx = d.pcx := rfl
@[simp] theorem onMgt_hl (f : Mgt → Mgt) : (onMgt f d).hl = d.hl := rfl
@[simp] theorem onMgt_ecc (f : Mgt → Mgt) : (onMgt f d).ecc = d.ecc := rfl
@[simp] theorem onMgt_sec (f : Mgt → Mgt) : (onMgt f d).sec = d.sec := rfl
@[simp] theorem onMgt_scu (f : Mgt → Mgt) : (onMgt f d).scu = d.scu := rfl
@[simp] theorem onMgt_pwr (f : Mgt → Mgt) : (onMgt f d).pwr = d.pwr := rfl
@[simp] theorem onMgt_thm (f : Mgt → Mgt) : (onMgt f d).thm = d.thm := rfl
@[simp] theorem onMgt_age (f : Mgt → Mgt) : (onMgt f d).age = d.age := rfl
@[simp] theorem onMgt_sil (f : Mgt → Mgt) : (onMgt f d).sil = d.sil := rfl
@[simp] theorem onMgt_io (f : Mgt → Mgt) : (onMgt f d).io = d.io := rfl

/-! picked -/
@[simp] theorem picked_id  : (picked  d).id = d.id := rfl
@[simp] theorem picked_rf  : (picked  d).rf = d.rf := rfl
@[simp] theorem picked_qm  : (picked  d).qm = d.qm := rfl
@[simp] theorem picked_bpm  : (picked  d).bpm = d.bpm := rfl
@[simp] theorem picked_maps  : (picked  d).maps = d.maps := rfl
@[simp] theorem picked_alm  : (picked  d).alm = d.alm := rfl
@[simp] theorem picked_med  : (picked  d).med = d.med := rfl
@[simp] theorem picked_jnl  : (picked  d).jnl = d.jnl := rfl
@[simp] theorem picked_clo  : (picked  d).clo = d.clo := rfl
@[simp] theorem picked_kpr  : (picked  d).kpr = d.kpr := rfl
@[simp] theorem picked_hld  : (picked  d).hld = d.hld := rfl
@[simp] theorem picked_smt  : (picked  d).smt = d.smt := rfl
@[simp] theorem picked_pcx  : (picked  d).pcx = d.pcx := rfl
@[simp] theorem picked_hl  : (picked  d).hl = d.hl := rfl
@[simp] theorem picked_ecc  : (picked  d).ecc = d.ecc := rfl
@[simp] theorem picked_sec  : (picked  d).sec = d.sec := rfl
@[simp] theorem picked_scu  : (picked  d).scu = d.scu := rfl
@[simp] theorem picked_pwr  : (picked  d).pwr = d.pwr := rfl
@[simp] theorem picked_thm  : (picked  d).thm = d.thm := rfl
@[simp] theorem picked_age  : (picked  d).age = d.age := rfl
@[simp] theorem picked_sil  : (picked  d).sil = d.sil := rfl
@[simp] theorem picked_mgt  : (picked  d).mgt = d.mgt := rfl

/-! onRf -/
@[simp] theorem onRf_rf (f : RegFile → RegFile) : (onRf f d).rf = f d.rf := rfl
@[simp] theorem onRf_id (f : RegFile → RegFile) : (onRf f d).id = d.id := rfl
@[simp] theorem onRf_qm (f : RegFile → RegFile) : (onRf f d).qm = d.qm := rfl
@[simp] theorem onRf_bpm (f : RegFile → RegFile) : (onRf f d).bpm = d.bpm := rfl
@[simp] theorem onRf_maps (f : RegFile → RegFile) : (onRf f d).maps = d.maps := rfl
@[simp] theorem onRf_alm (f : RegFile → RegFile) : (onRf f d).alm = d.alm := rfl
@[simp] theorem onRf_med (f : RegFile → RegFile) : (onRf f d).med = d.med := rfl
@[simp] theorem onRf_jnl (f : RegFile → RegFile) : (onRf f d).jnl = d.jnl := rfl
@[simp] theorem onRf_clo (f : RegFile → RegFile) : (onRf f d).clo = d.clo := rfl
@[simp] theorem onRf_kpr (f : RegFile → RegFile) : (onRf f d).kpr = d.kpr := rfl
@[simp] theorem onRf_hld (f : RegFile → RegFile) : (onRf f d).hld = d.hld := rfl
@[simp] theorem onRf_smt (f : RegFile → RegFile) : (onRf f d).smt = d.smt := rfl
@[simp] theorem onRf_pcx (f : RegFile → RegFile) : (onRf f d).pcx = d.pcx := rfl
@[simp] theorem onRf_hl (f : RegFile → RegFile) : (onRf f d).hl = d.hl := rfl
@[simp] theorem onRf_ecc (f : RegFile → RegFile) : (onRf f d).ecc = d.ecc := rfl
@[simp] theorem onRf_sec (f : RegFile → RegFile) : (onRf f d).sec = d.sec := rfl
@[simp] theorem onRf_scu (f : RegFile → RegFile) : (onRf f d).scu = d.scu := rfl
@[simp] theorem onRf_pwr (f : RegFile → RegFile) : (onRf f d).pwr = d.pwr := rfl
@[simp] theorem onRf_thm (f : RegFile → RegFile) : (onRf f d).thm = d.thm := rfl
@[simp] theorem onRf_age (f : RegFile → RegFile) : (onRf f d).age = d.age := rfl
@[simp] theorem onRf_sil (f : RegFile → RegFile) : (onRf f d).sil = d.sil := rfl
@[simp] theorem onRf_mgt (f : RegFile → RegFile) : (onRf f d).mgt = d.mgt := rfl
@[simp] theorem onRf_io (f : RegFile → RegFile) : (onRf f d).io = d.io := rfl

/-! wr -/
@[simp] theorem wr_id (o v : Nat) : (wr o v d).id = d.id := rfl
@[simp] theorem wr_qm (o v : Nat) : (wr o v d).qm = d.qm := rfl
@[simp] theorem wr_bpm (o v : Nat) : (wr o v d).bpm = d.bpm := rfl
@[simp] theorem wr_maps (o v : Nat) : (wr o v d).maps = d.maps := rfl
@[simp] theorem wr_alm (o v : Nat) : (wr o v d).alm = d.alm := rfl
@[simp] theorem wr_med (o v : Nat) : (wr o v d).med = d.med := rfl
@[simp] theorem wr_jnl (o v : Nat) : (wr o v d).jnl = d.jnl := rfl
@[simp] theorem wr_clo (o v : Nat) : (wr o v d).clo = d.clo := rfl
@[simp] theorem wr_kpr (o v : Nat) : (wr o v d).kpr = d.kpr := rfl
@[simp] theorem wr_hld (o v : Nat) : (wr o v d).hld = d.hld := rfl
@[simp] theorem wr_smt (o v : Nat) : (wr o v d).smt = d.smt := rfl
@[simp] theorem wr_pcx (o v : Nat) : (wr o v d).pcx = d.pcx := rfl
@[simp] theorem wr_hl (o v : Nat) : (wr o v d).hl = d.hl := rfl
@[simp] theorem wr_ecc (o v : Nat) : (wr o v d).ecc = d.ecc := rfl
@[simp] theorem wr_sec (o v : Nat) : (wr o v d).sec = d.sec := rfl
@[simp] theorem wr_scu (o v : Nat) : (wr o v d).scu = d.scu := rfl
@[simp] theorem wr_pwr (o v : Nat) : (wr o v d).pwr = d.pwr := rfl
@[simp] theorem wr_thm (o v : Nat) : (wr o v d).thm = d.thm := rfl
@[simp] theorem wr_age (o v : Nat) : (wr o v d).age = d.age := rfl
@[simp] theorem wr_sil (o v : Nat) : (wr o v d).sil = d.sil := rfl
@[simp] theorem wr_mgt (o v : Nat) : (wr o v d).mgt = d.mgt := rfl
@[simp] theorem wr_io (o v : Nat) : (wr o v d).io = d.io := rfl

/-! wrMasked -/
@[simp] theorem wrMasked_id (o v : Nat) : (wrMasked o v d).id = d.id := rfl
@[simp] theorem wrMasked_qm (o v : Nat) : (wrMasked o v d).qm = d.qm := rfl
@[simp] theorem wrMasked_bpm (o v : Nat) : (wrMasked o v d).bpm = d.bpm := rfl
@[simp] theorem wrMasked_maps (o v : Nat) : (wrMasked o v d).maps = d.maps := rfl
@[simp] theorem wrMasked_alm (o v : Nat) : (wrMasked o v d).alm = d.alm := rfl
@[simp] theorem wrMasked_med (o v : Nat) : (wrMasked o v d).med = d.med := rfl
@[simp] theorem wrMasked_jnl (o v : Nat) : (wrMasked o v d).jnl = d.jnl := rfl
@[simp] theorem wrMasked_clo (o v : Nat) : (wrMasked o v d).clo = d.clo := rfl
@[simp] theorem wrMasked_kpr (o v : Nat) : (wrMasked o v d).kpr = d.kpr := rfl
@[simp] theorem wrMasked_hld (o v : Nat) : (wrMasked o v d).hld = d.hld := rfl
@[simp] theorem wrMasked_smt (o v : Nat) : (wrMasked o v d).smt = d.smt := rfl
@[simp] theorem wrMasked_pcx (o v : Nat) : (wrMasked o v d).pcx = d.pcx := rfl
@[simp] theorem wrMasked_hl (o v : Nat) : (wrMasked o v d).hl = d.hl := rfl
@[simp] theorem wrMasked_ecc (o v : Nat) : (wrMasked o v d).ecc = d.ecc := rfl
@[simp] theorem wrMasked_sec (o v : Nat) : (wrMasked o v d).sec = d.sec := rfl
@[simp] theorem wrMasked_scu (o v : Nat) : (wrMasked o v d).scu = d.scu := rfl
@[simp] theorem wrMasked_pwr (o v : Nat) : (wrMasked o v d).pwr = d.pwr := rfl
@[simp] theorem wrMasked_thm (o v : Nat) : (wrMasked o v d).thm = d.thm := rfl
@[simp] theorem wrMasked_age (o v : Nat) : (wrMasked o v d).age = d.age := rfl
@[simp] theorem wrMasked_sil (o v : Nat) : (wrMasked o v d).sil = d.sil := rfl
@[simp] theorem wrMasked_mgt (o v : Nat) : (wrMasked o v d).mgt = d.mgt := rfl
@[simp] theorem wrMasked_io (o v : Nat) : (wrMasked o v d).io = d.io := rfl

/-! vout -/
@[simp] theorem vout_id (n v : Nat) : (vout n v d).id = d.id := rfl
@[simp] theorem vout_rf (n v : Nat) : (vout n v d).rf = d.rf := rfl
@[simp] theorem vout_qm (n v : Nat) : (vout n v d).qm = d.qm := rfl
@[simp] theorem vout_bpm (n v : Nat) : (vout n v d).bpm = d.bpm := rfl
@[simp] theorem vout_maps (n v : Nat) : (vout n v d).maps = d.maps := rfl
@[simp] theorem vout_alm (n v : Nat) : (vout n v d).alm = d.alm := rfl
@[simp] theorem vout_med (n v : Nat) : (vout n v d).med = d.med := rfl
@[simp] theorem vout_jnl (n v : Nat) : (vout n v d).jnl = d.jnl := rfl
@[simp] theorem vout_clo (n v : Nat) : (vout n v d).clo = d.clo := rfl
@[simp] theorem vout_kpr (n v : Nat) : (vout n v d).kpr = d.kpr := rfl
@[simp] theorem vout_hld (n v : Nat) : (vout n v d).hld = d.hld := rfl
@[simp] theorem vout_smt (n v : Nat) : (vout n v d).smt = d.smt := rfl
@[simp] theorem vout_pcx (n v : Nat) : (vout n v d).pcx = d.pcx := rfl
@[simp] theorem vout_hl (n v : Nat) : (vout n v d).hl = d.hl := rfl
@[simp] theorem vout_ecc (n v : Nat) : (vout n v d).ecc = d.ecc := rfl
@[simp] theorem vout_sec (n v : Nat) : (vout n v d).sec = d.sec := rfl
@[simp] theorem vout_scu (n v : Nat) : (vout n v d).scu = d.scu := rfl
@[simp] theorem vout_pwr (n v : Nat) : (vout n v d).pwr = d.pwr := rfl
@[simp] theorem vout_thm (n v : Nat) : (vout n v d).thm = d.thm := rfl
@[simp] theorem vout_age (n v : Nat) : (vout n v d).age = d.age := rfl
@[simp] theorem vout_sil (n v : Nat) : (vout n v d).sil = d.sil := rfl

/-! Of the fields that an update changes, the parts it leaves. -/
@[simp] theorem onCmd_cmds (i : Nat) (f : Cmd → Cmd) : (onCmd i f d).qm.cmds = tmod d.qm.cmds i f := rfl
@[simp] theorem onCmd_sqs (i : Nat) (f : Cmd → Cmd) : (onCmd i f d).qm.sqs = d.qm.sqs := rfl
@[simp] theorem onCmd_cqs (i : Nat) (f : Cmd → Cmd) : (onCmd i f d).qm.cqs = d.qm.cqs := rfl
@[simp] theorem onCmd_locks (i : Nat) (f : Cmd → Cmd) : (onCmd i f d).qm.locks = d.qm.locks := rfl
@[simp] theorem onSq_cmds (i : Nat) (f : SubRing → SubRing) : (onSq i f d).qm.cmds = d.qm.cmds := rfl
@[simp] theorem onSq_sqs (i : Nat) (f : SubRing → SubRing) : (onSq i f d).qm.sqs = tmod d.qm.sqs i f := rfl
@[simp] theorem onSq_cqs (i : Nat) (f : SubRing → SubRing) : (onSq i f d).qm.cqs = d.qm.cqs := rfl
@[simp] theorem onCq_cmds (i : Nat) (f : CompRing → CompRing) : (onCq i f d).qm.cmds = d.qm.cmds := rfl
@[simp] theorem onCq_sqs (i : Nat) (f : CompRing → CompRing) : (onCq i f d).qm.sqs = d.qm.sqs := rfl
@[simp] theorem onCq_cqs (i : Nat) (f : CompRing → CompRing) : (onCq i f d).qm.cqs = tmod d.qm.cqs i f := rfl
@[simp] theorem setLocks_cmds (l : List Lock) : (setLocks l d).qm.cmds = d.qm.cmds := rfl
@[simp] theorem setLocks_locks (l : List Lock) : (setLocks l d).qm.locks = l := rfl
@[simp] theorem send_out (o : Out) : (send o d).io.out = d.io.out ++ [o] := rfl
@[simp] theorem send_now (o : Out) : (send o d).io.now = d.io.now := rfl
@[simp] theorem send_draws (o : Out) : (send o d).io.draws = d.io.draws := rfl
@[simp] theorem draw_draws (n : Nat) : (draw n d).io.draws = d.io.draws + n := rfl
@[simp] theorem draw_out (n : Nat) : (draw n d).io.out = d.io.out := rfl
@[simp] theorem draw_now (n : Nat) : (draw n d).io.now = d.io.now := rfl
@[simp] theorem tick_out (t : Nat) : (tick t d).io.out = d.io.out := rfl
@[simp] theorem tick_picks (t : Nat) : (tick t d).io.picks = d.io.picks := rfl
@[simp] theorem tick_line (t : Nat) : (tick t d).io.line = d.io.line := rfl
@[simp] theorem picked_picks : (picked d).io.picks = d.io.picks + 1 := rfl
@[simp] theorem picked_out : (picked d).io.out = d.io.out := rfl
@[simp] theorem tick_draws (t : Nat) : (tick t d).io.draws = d.io.draws := rfl
@[simp] theorem tick_now (t : Nat) : (tick t d).io.now = max d.io.now t := rfl
@[simp] theorem tick_sleep (t : Nat) : (tick t d).pwr.sleep = d.pwr.sleep := rfl
@[simp] theorem tick_aon (t : Nat) : (tick t d).pwr.aon = d.pwr.aon := rfl
@[simp] theorem tick_klinkUp (t : Nat) : (tick t d).pwr.klinkUp = d.pwr.klinkUp := rfl
@[simp] theorem raise_inboxMain (y : EvType) (l : List Nat) : (raise y l d).sil.inboxMain = d.sil.inboxMain ++ [⟨y, l⟩] := rfl
@[simp] theorem raise_inbox (y : EvType) (l : List Nat) : (raise y l d).sil.inbox = d.sil.inbox := rfl
@[simp] theorem raiseP_inbox (y : EvType) (l : List Nat) : (raiseP y l d).sil.inbox = d.sil.inbox ++ [(⟨y, l⟩, false)] := rfl
@[simp] theorem raiseP_inboxMain (y : EvType) (l : List Nat) : (raiseP y l d).sil.inboxMain = d.sil.inboxMain := rfl
@[simp] theorem wr_lock (o v : Nat) : (wr o v d).rf.lock = d.rf.lock := rfl
@[simp] theorem wr_stage (o v : Nat) : (wr o v d).rf.stage = d.rf.stage := rfl
@[simp] theorem wr_latch (o v : Nat) : (wr o v d).rf.latch = d.rf.latch := rfl
@[simp] theorem wr_copy (o v : Nat) : (wr o v d).rf.copy = d.rf.copy := rfl

end Sys2Proof.Machine
end

