-- ==== Sys2Proof/Laws/Tbl.lean ====
section
/-!
SUPPORT. Laws of the sparse tables: what reading gives after each change, and that every change keeps the canonical form.
-/

namespace Sys2Proof.Machine

variable {α β : Type}

@[simp] theorem tget_nil (k : Nat) : tget ([] : Tbl α) k = none := rfl

/-- Reading what was written gives the value written. -/
@[simp] theorem tget_tset_self (t : Tbl α) (k : Nat) (v : α) : tget (tset t k v) k = some v := by
  induction t with
  | nil => simp [tset, tget]
  | cons e t ih =>
    obtain ⟨i, w⟩ := e
    simp only [tset]
    split
    · simp [tget]
    · split
      · simp [tget]
      · rename_i h1 h2
        simp [tget, h1, h2, ih]

/-- A write leaves every other key alone. -/
theorem tget_tset_ne (t : Tbl α) {k j : Nat} (v : α) (h : j ≠ k) : tget (tset t k v) j = tget t j := by
  induction t with
  | nil => simp [tset, tget, h]
  | cons e t ih =>
    obtain ⟨i, w⟩ := e
    simp only [tset]
    split
    · rename_i h1
      simp only [tget, if_neg h]
      split
      · rename_i h2
        have h3 : j ≠ i := by omega
        have h4 : j < i := by omega
        simp [h3, h4]
      · rfl
    · split
      · rename_i h1 h2
        subst h2
        simp [tget, h]
      · simp only [tget]
        rw [ih]

theorem tget_tset (t : Tbl α) (k j : Nat) (v : α) : tget (tset t k v) j = if j = k then some v else tget t j := by
  split
  · rename_i h
    subst h
    simp
  · rename_i h
    exact tget_tset_ne t v h

/-- A change of a present entry shows there. -/
theorem tget_tmod_self {t : Tbl α} {k : Nat} {a : α} (f : α → α) (h : tget t k = some a) : tget (tmod t k f) k = some (f a) := by
  simp [tmod, h]

/-- A change of an entry leaves every other key alone. -/
theorem tget_tmod_ne (t : Tbl α) {k j : Nat} (f : α → α) (h : j ≠ k) : tget (tmod t k f) j = tget t j := by
  unfold tmod
  split
  · rfl
  · exact tget_tset_ne _ _ h

/-- A change of an absent entry changes nothing. -/
theorem tmod_none {t : Tbl α} {k : Nat} (f : α → α) (h : tget t k = none) : tmod t k f = t := by
  simp [tmod, h]

/-- Every key of a table lies at or above a bound. -/
def Tbl.above (b : Nat) (t : Tbl α) : Prop := ∀ e ∈ t, b ≤ e.1

theorem Tbl.wf_tail {i : Nat} {w : α} {t : Tbl α} (h : Tbl.wf ((i, w) :: t) = true) : Tbl.wf t = true := by
  cases t with
  | nil => rfl
  | cons e t => obtain ⟨j, x⟩ := e; simp [Tbl.wf] at h; exact h.2

theorem Tbl.wf_above {i : Nat} {w : α} {t : Tbl α} (h : Tbl.wf ((i, w) :: t) = true) : Tbl.above (i + 1) t := by
  induction t generalizing i w with
  | nil => intro e he; cases he
  | cons e t ih =>
    obtain ⟨j, x⟩ := e
    simp [Tbl.wf] at h
    intro e he
    cases he with
    | head => exact h.1
    | tail _ he => have := ih h.2 e he; omega

theorem Tbl.wf_cons {i : Nat} {w : α} {t : Tbl α} (h : Tbl.wf t = true) (ha : Tbl.above (i + 1) t) : Tbl.wf ((i, w) :: t) = true := by
  cases t with
  | nil => rfl
  | cons e t =>
    obtain ⟨j, x⟩ := e
    have := ha (j, x) (List.mem_cons_self ..)
    simp [Tbl.wf, h]
    simpa using this

theorem Tbl.above_get {b k : Nat} {t : Tbl α} (ha : Tbl.above b t) (hk : k < b) : tget t k = none := by
  cases t with
  | nil => rfl
  | cons e t =>
    obtain ⟨i, w⟩ := e
    have : b ≤ i := ha (i, w) (List.mem_cons_self ..)
    have h1 : k ≠ i := by omega
    have h2 : k < i := by omega
    simp [tget, h1, h2]

theorem Tbl.above_tset {b k : Nat} {t : Tbl α} (v : α) (ha : Tbl.above b t) (hk : b ≤ k) : Tbl.above b (tset t k v) := by
  induction t with
  | nil => intro e he; simp [tset] at he; subst he; exact hk
  | cons e t ih =>
    obtain ⟨i, w⟩ := e
    have hi : b ≤ i := ha (i, w) (List.mem_cons_self ..)
    have ht : Tbl.above b t := fun e he => ha e (List.mem_cons_of_mem _ he)
    intro e he
    simp only [tset] at he
    split at he
    · simp at he
      rcases he with rfl | rfl | he
      · exact hk
      · exact hi
      · exact ht e he
    · split at he
      · simp at he
        rcases he with rfl | he
        · exact hk
        · exact ht e he
      · simp at he
        rcases he with rfl | he
        · exact hi
        · exact ih ht e he

/-- Writing keeps the canonical form. -/
theorem Tbl.wf_tset {t : Tbl α} (k : Nat) (v : α) (h : Tbl.wf t = true) : Tbl.wf (tset t k v) = true := by
  induction t with
  | nil => rfl
  | cons e t ih =>
    obtain ⟨i, w⟩ := e
    simp only [tset]
    split
    · rename_i h1
      simp [Tbl.wf, h1, h]
    · split
      · rename_i h1 h2
        exact Tbl.wf_cons (Tbl.wf_tail h) (h2 ▸ Tbl.wf_above h)
      · rename_i h1 h2
        exact Tbl.wf_cons (ih (Tbl.wf_tail h)) (Tbl.above_tset v (Tbl.wf_above h) (by omega))

theorem Tbl.above_tdel {b : Nat} {t : Tbl α} (k : Nat) (ha : Tbl.above b t) : Tbl.above b (tdel t k) := by
  induction t with
  | nil => exact ha
  | cons e t ih =>
    obtain ⟨i, w⟩ := e
    have hi : b ≤ i := ha (i, w) (List.mem_cons_self ..)
    have ht : Tbl.above b t := fun e he => ha e (List.mem_cons_of_mem _ he)
    intro e he
    simp only [tdel] at he
    split at he
    · exact ht e he
    · split at he
      · exact ha e he
      · cases he with
        | head => exact hi
        | tail _ he => exact ih ht e he

/-- Removing keeps the canonical form. -/
theorem Tbl.wf_tdel {t : Tbl α} (k : Nat) (h : Tbl.wf t = true) : Tbl.wf (tdel t k) = true := by
  induction t with
  | nil => rfl
  | cons e t ih =>
    obtain ⟨i, w⟩ := e
    simp only [tdel]
    split
    · exact Tbl.wf_tail h
    · split
      · exact h
      · exact Tbl.wf_cons (ih (Tbl.wf_tail h)) (Tbl.above_tdel k (Tbl.wf_above h))

/-- A removed entry is gone. -/
theorem tget_tdel_self {t : Tbl α} (k : Nat) (h : Tbl.wf t = true) : tget (tdel t k) k = none := by
  induction t with
  | nil => rfl
  | cons e t ih =>
    obtain ⟨i, w⟩ := e
    simp only [tdel]
    split
    · rename_i h1
      exact Tbl.above_get (Tbl.wf_above h) (by omega)
    · split
      · rename_i h1 h2
        simp [tget, h1, h2]
      · rename_i h1 h2
        simp [tget, h1, h2, ih (Tbl.wf_tail h)]

/-- A removal leaves every other key alone. -/
theorem tget_tdel_ne {t : Tbl α} {k j : Nat} (h : Tbl.wf t = true) (hj : j ≠ k) : tget (tdel t k) j = tget t j := by
  induction t with
  | nil => rfl
  | cons e t ih =>
    obtain ⟨i, w⟩ := e
    simp only [tdel]
    split
    · rename_i h1
      simp only [tget]
      have h3 : j ≠ i := by omega
      simp only [if_neg h3]
      split
      · rename_i h2
        exact Tbl.above_get (Tbl.wf_above h) (by omega)
      · rfl
    · split
      · rfl
      · simp only [tget]
        rw [ih (Tbl.wf_tail h)]

theorem Tbl.wf_tsetD [DecidableEq α] {t : Tbl α} (k : Nat) (v d : α) (h : Tbl.wf t = true) : Tbl.wf (tsetD t k v d) = true := by
  unfold tsetD
  split
  · exact Tbl.wf_tdel k h
  · exact Tbl.wf_tset k v h

/-- Reading what was written into a table with a default. -/
theorem tgetD_tsetD_self [DecidableEq α] {t : Tbl α} (k : Nat) (v d : α) (h : Tbl.wf t = true) : tgetD (tsetD t k v d) k d = v := by
  unfold tgetD tsetD
  split
  · rename_i hv
    rw [tget_tdel_self k h, hv]
    rfl
  · simp

theorem tgetD_tsetD_ne [DecidableEq α] {t : Tbl α} {k j : Nat} (v d e : α) (h : Tbl.wf t = true) (hj : j ≠ k) :
    tgetD (tsetD t k v d) j e = tgetD t j e := by
  unfold tgetD tsetD
  split
  · rw [tget_tdel_ne h hj]
  · rw [tget_tset_ne t v hj]

theorem Tbl.wf_tmod {t : Tbl α} (k : Nat) (f : α → α) (h : Tbl.wf t = true) : Tbl.wf (tmod t k f) = true := by
  unfold tmod
  split
  · exact h
  · exact Tbl.wf_tset k _ h

theorem Tbl.wf_of_sorted {t : Tbl α} (h : (t.map (·.1)).Pairwise (· < ·)) : Tbl.wf t = true := by
  induction t with
  | nil => rfl
  | cons e t ih =>
    obtain ⟨i, w⟩ := e
    rw [List.map_cons, List.pairwise_cons] at h
    refine Tbl.wf_cons (ih h.2) ?_
    intro e he
    exact h.1 e.1 (List.mem_map_of_mem he)

theorem Tbl.sorted_of_wf {t : Tbl α} (h : Tbl.wf t = true) : (t.map (·.1)).Pairwise (· < ·) := by
  induction t with
  | nil => simp
  | cons e t ih =>
    obtain ⟨i, w⟩ := e
    rw [List.map_cons, List.pairwise_cons]
    refine ⟨?_, ih (Tbl.wf_tail h)⟩
    intro j hj
    rw [List.mem_map] at hj
    obtain ⟨e, he, rfl⟩ := hj
    exact Tbl.wf_above h e he

theorem Tbl.wf_tfilter {t : Tbl α} (p : Nat → α → Bool) (h : Tbl.wf t = true) : Tbl.wf (tfilter t p) = true := by
  refine Tbl.wf_of_sorted ?_
  exact List.Pairwise.sublist (List.Sublist.map _ List.filter_sublist) (Tbl.sorted_of_wf h)

theorem Tbl.wf_tmap {t : Tbl α} (f : Nat → α → β) (h : Tbl.wf t = true) : Tbl.wf (tmap t f) = true := by
  refine Tbl.wf_of_sorted ?_
  have : (tmap t f).map (·.1) = t.map (·.1) := by simp [tmap, Function.comp_def]
  rw [this]
  exact Tbl.sorted_of_wf h

end Sys2Proof.Machine
end

