-- ==== Sys2Proof/Laws/Ops.lean ====
section
/-!
SUPPORT. What the shared operations can do, said once: applying an effect, the conditional ones and the repeated one, a register's stored value, the end of a command,
a journal record, the range locks. A proof cites these and does not unfold the operation.
-/

namespace Sys2Proof.Machine

/-! ### Applying an effect -/

/-- An effect answers a next state, with the queue as it was. -/
theorem on_next (f : Dev → Dev) (s : State) : s.on f = .next { s with dev := f s.dev } := rfl

/-- The effect of a register access: the path's port is touched last. -/
theorem onReg_next (s : State) (p : Path) (f : Dev → Dev) : s.onReg p f = .next { s with dev := touchPath p (f s.dev) } := rfl

@[simp] theorem onlyIf_true (f : Dev → Dev) (d : Dev) : onlyIf true f d = f d := rfl
@[simp] theorem onlyIf_false (f : Dev → Dev) (d : Dev) : onlyIf false f d = d := rfl
@[simp] theorem withSome_some {α : Type} (a : α) (f : α → Dev → Dev) (d : Dev) : withSome (some a) f d = f a d := rfl
@[simp] theorem withSome_none {α : Type} (f : α → Dev → Dev) (d : Dev) : withSome none f d = d := rfl
@[simp] theorem forAll_nil {α : Type} (f : α → Dev → Dev) (d : Dev) : forAll [] f d = d := rfl
@[simp] theorem forAll_cons {α : Type} (a : α) (l : List α) (f : α → Dev → Dev) (d : Dev) : forAll (a :: l) f d = forAll l f (f a d) := rfl

/-- What holds before, and after the effect where it takes place, holds after a conditional effect. -/
theorem onlyIf_keeps {P : Dev → Prop} {c : Bool} {f : Dev → Dev} {d : Dev} (h : P d) (hf : c = true → P (f d)) : P (onlyIf c f d) := by
  cases c with
  | true => exact hf rfl
  | false => exact h

theorem withSome_keeps {α : Type} {P : Dev → Prop} {o : Option α} {f : α → Dev → Dev} {d : Dev} (h : P d) (hf : ∀ a, o = some a → P (f a d)) : P (withSome o f d) := by
  cases o with
  | none => exact h
  | some a => exact hf a rfl

/-- What each round of a repeated effect keeps, all of it keeps. -/
theorem forAll_keeps {α : Type} {P : Dev → Prop} {f : α → Dev → Dev} : ∀ (l : List α) (d : Dev), P d → (∀ a ∈ l, ∀ d, P d → P (f a d)) → P (forAll l f d)
  | [], _, h, _ => h
  | a :: l, d, h, hf => forAll_keeps l (f a d) (hf a (by simp) d h) fun b hb => hf b (by simp [hb])

/-- A register access touches power's state of the port only. -/
theorem touchPath_eq (p : Path) (d : Dev) : touchPath p d = { d with pwr := (touchPath p d).pwr } := by
  cases p <;> simp only [touchPath] <;> first | rfl | (split <;> rfl)

/-- An update that changes one kind of state, of a register access: everything else is as the effect left it. -/
theorem touchPath_field {α : Type} (g : Dev → α) (hg : ∀ d w, g { d with pwr := w } = g d) (p : Path) (d : Dev) : g (touchPath p d) = g d := by
  rw [touchPath_eq, hg]

/-! ### Registers -/

/-- A stored register reads what was stored. -/
theorem rd_wr_self (off v : Nat) (d : Dev) (h : Tbl.wf d.rf.regs = true) : rd (wr off v d) off = v % 2 ^ 32 := by
  simp [rd, wr, tgetD_tsetD_self _ _ _ h]

theorem rd_wr_ne {off o : Nat} (v : Nat) (d : Dev) (h : Tbl.wf d.rf.regs = true) (ho : o ≠ off) : rd (wr off v d) o = rd d o := by
  simp [rd, wr, tgetD_tsetD_ne _ _ _ h ho]

theorem rd_wrMasked_ne {off o : Nat} (v : Nat) (d : Dev) (h : Tbl.wf d.rf.regs = true) (ho : o ≠ off) : rd (wrMasked off v d) o = rd d o := rd_wr_ne _ d h ho

/-- The stored registers keep their canonical form. -/
theorem wr_wf (off v : Nat) (d : Dev) (h : Tbl.wf d.rf.regs = true) : Tbl.wf (wr off v d).rf.regs = true := Tbl.wf_tsetD _ _ _ h

theorem wrMasked_wf (off v : Nat) (d : Dev) (h : Tbl.wf d.rf.regs = true) : Tbl.wf (wrMasked off v d).rf.regs = true := wr_wf _ _ d h

/-- What a stored register holds is a word. -/
theorem rd_lt (d : Dev) (off : Nat) : rd d off < 2 ^ 32 := (tgetD d.rf.regs off (resetAt off)).isLt

/-! ### Commands -/

theorem onCmd_get_self {id : Nat} {d : Dev} {c : Cmd} (f : Cmd → Cmd) (h : tget d.qm.cmds id = some c) : tget (onCmd id f d).qm.cmds id = some (f c) := tget_tmod_self f h

theorem onCmd_get_ne {id j : Nat} (d : Dev) (f : Cmd → Cmd) (h : j ≠ id) : tget (onCmd id f d).qm.cmds j = tget d.qm.cmds j := tget_tmod_ne _ f h

/-- The command that ends holds its status, result and faulty field; the others stay, and everything else does. -/
theorem finish_spec {id : Nat} {d : Dev} {c : Cmd} (st : Status) (r n : Nat) (h : tget d.qm.cmds id = some c) :
    tget (finish id st r n d).qm.cmds id = some { c with stage := .done, status := st, result := BitVec.ofNat 64 r, field := n } ∧
    (∀ j, j ≠ id → tget (finish id st r n d).qm.cmds j = tget d.qm.cmds j) ∧
    finish id st r n d = { d with qm := { d.qm with cmds := (finish id st r n d).qm.cmds } } :=
  ⟨onCmd_get_self _ h, fun _ hj => onCmd_get_ne d _ hj, rfl⟩

/-- The command that a row takes up is outstanding, not yet checked, of its opcode and in its turn, with the part awake, power there and room in the journal. -/
theorem fresh_some {d : Dev} {id opc : Nat} {c : Cmd} : fresh d id opc = some c ↔ tget d.qm.cmds id = some c ∧ c.stage = .fetched ∧ dOpc c.desc = opc ∧ d.pwr.sleep = .s0 ∧
    halting d = false ∧ (changesMap opc && journalFull d) = false ∧ askTurn d id c = true := by
  unfold fresh
  cases h : tget d.qm.cmds id with
  | none => simp
  | some x =>
    simp only [Option.some.injEq]
    constructor
    · intro h2
      split at h2
      · next hc => cases h2; exact ⟨rfl, hc⟩
      · cases h2
    · rintro ⟨rfl, hc⟩
      rw [if_pos hc]

/-! ### The journal -/

/-- A record takes its sequence numbers, stands at the end of the tail, and changes the maps by its own effect; nothing else moves. -/
theorem record_spec (r : JRec) (d : Dev) :
    (record r d).maps = applyRec r d.maps ∧ (record r d).jnl.seq = d.jnl.seq + r.parts ∧ (record r d).jnl.tail = d.jnl.tail ++ [(d.jnl.seq, r)] ∧
    (record r d).jnl.prog = d.jnl.prog ∧ (record r d).jnl.flash = d.jnl.flash ∧ record r d = { d with maps := (record r d).maps, jnl := (record r d).jnl } :=
  ⟨rfl, rfl, rfl, rfl, rfl, rfl⟩

/-! ### Range locks -/

/-- Promotion changes no entry but for its place in the table. -/
theorem lockPromote_cmds (mx : Nat) : ∀ (l w : List Lock), (lockPromote mx w l).map (fun e => (e.cmd, e.plot, e.first, e.last, e.excl, e.held)) = l.map fun e => (e.cmd, e.plot, e.first, e.last, e.excl, e.held)
  | [], _ => rfl
  | e :: t, w => by
    unfold lockPromote
    split <;> simp [lockPromote_cmds mx t]

/-- Arriving, granting and releasing change the lock list and its high-water mark alone. -/
theorem lockGrant_frame (id : Nat) (d : Dev) : lockGrant id d = { d with qm := { d.qm with locks := (lockGrant id d).qm.locks, lockHigh := (lockGrant id d).qm.lockHigh } } := by
  unfold lockGrant
  split <;> rfl

theorem lockRelease_frame (id : Nat) (d : Dev) : lockRelease id d = { d with qm := { d.qm with locks := (lockRelease id d).qm.locks, lockHigh := (lockRelease id d).qm.lockHigh } } := rfl

theorem lockArrive_frame (e : Lock) (d : Dev) : lockArrive e d = { d with qm := { d.qm with locks := (lockArrive e d).qm.locks, lockHigh := (lockArrive e d).qm.lockHigh } } := by
  unfold lockArrive
  rw [lockGrant_frame]
  rfl

/-! ### Returned buffers -/

/-- A returned buffer changes the pools and, where it is refused, adds a record for Sillage. -/
theorem returnBuffer_frame (pool ptr : Nat) (d : Dev) :
    returnBuffer pool ptr d = { d with bpm := (returnBuffer pool ptr d).bpm, sil := { d.sil with inboxMain := (returnBuffer pool ptr d).sil.inboxMain } } := by
  unfold returnBuffer
  split
  · rfl
  · split <;> rfl

/-! ### Time -/

/-- Telling the time changes the latest time told, the times at which a cause outside the commands last stood, and when the part was last not idle. -/
theorem tick_frame (t : Nat) (d : Dev) :
    tick t d = { d with io := { d.io with now := max d.io.now t, stood := (tick t d).io.stood }, pwr := { d.pwr with activeAt := (tick t d).pwr.activeAt } } := rfl

/-! ### Caches -/

/-- A cache takes no more than its entries. -/
theorem cacheLoad_length {α : Type} [DecidableEq α] (n pick : Nat) (used c : List α) (k : α) (h : c.length ≤ n) : (cacheLoad n pick used c k).length ≤ n := by
  unfold cacheLoad
  split
  · simp; omega
  · split
    · next x hx =>
      have hm : x ∈ c := by
        have := List.mem_of_find?_eq_some hx
        rcases List.mem_append.mp this with h1 | h1
        · exact List.mem_of_mem_drop h1
        · exact List.mem_of_mem_take h1
      have := List.length_pos_of_mem hm
      simp [List.length_erase_of_mem hm]; omega
    · exact h

/-- A lookup in the maps changes the map cache, its count of misses and the choices of evictions alone. -/
theorem mapLookup_frame (ls : List (Nat × Nat)) (d : Dev) :
    mapLookup ls d = { d with med := { d.med with mapLines := (mapLookup ls d).med.mapLines, mapc := (mapLookup ls d).med.mapc }, io := { d.io with picks := (mapLookup ls d).io.picks } } := by
  have : ∀ (l : List (Nat × Nat)) (e : Dev), l.foldl (fun d k =>
      if d.med.mapLines.contains k then d
      else picked { d with med := { d.med with mapLines := cacheLoad 262144 (pickOf d) ls d.med.mapLines k, mapc := satInc 32 d.med.mapc } }) e =
      (let x := l.foldl (fun d k =>
      if d.med.mapLines.contains k then d
      else picked { d with med := { d.med with mapLines := cacheLoad 262144 (pickOf d) ls d.med.mapLines k, mapc := satInc 32 d.med.mapc } }) e
      { e with med := { e.med with mapLines := x.med.mapLines, mapc := x.med.mapc }, io := { e.io with picks := x.io.picks } }) := by
    intro l
    induction l with
    | nil => intro e; rfl
    | cons k t ih =>
      intro e
      dsimp only [List.foldl]
      split
      · exact ih e
      · rw [ih]; rfl
  exact this ls d

/-- Loading a plot's key, or a connection's, changes its cache and the choices of evictions alone. -/
theorem loadXts_frame (plot : Nat) (d : Dev) : loadXts plot d = { d with sec := { d.sec with xts := (loadXts plot d).sec.xts }, io := { d.io with picks := (loadXts plot d).io.picks } } := by
  unfold loadXts
  split <;> rfl

theorem loadGcm_frame (port i : Nat) (d : Dev) : loadGcm port i d = { d with smt := { d.smt with gcm := (loadGcm port i d).smt.gcm }, io := { d.io with picks := (loadGcm port i d).io.picks } } := by
  unfold loadGcm
  dsimp only
  split <;> rfl

/-! ### Records as bytes -/

theorem fitTo_length (n : Nat) (l : List Byte) : (fitTo n l).length = n := by simp [fitTo]; omega

theorem leBytes_length : ∀ (n v : Nat), (leBytes n v).length = n
  | 0, _ => rfl
  | n + 1, v => by simp [leBytes, leBytes_length n]

/-- A record is of 32 bytes (R313). -/
theorem recBlock_length (seq ty part last : Nat) (pay : List Byte) : (recBlock seq ty part last pay).length = 32 := by simp [recBlock, fitTo_length, leBytes_length]

/-- A record takes as many 32-byte records, and sequence numbers, as its parts (R314). -/
theorem bytes_length (worn : Nat → Bool) (seq : Nat) (r : JRec) : (r.bytes worn seq).length = r.parts := by
  cases r <;> try rfl
  case tenant i t op => cases t with
    | none => rfl
    | some t => simp only [JRec.bytes, JRec.pays, JRec.parts, List.length_map, List.length_zipIdx]; split <;> rfl

/-! ### Sillage -/

/-- Counting losses, dropping what finds no token and starting a write change Sillage's own state alone. -/
theorem silLose_frame (cause n ty : Nat) (d : Dev) : silLose cause n ty d = { d with sil := (silLose cause n ty d).sil } := by
  unfold silLose
  split <;> rfl

theorem silShed_frame (d : Dev) : silShed d = { d with sil := (silShed d).sil } := by
  unfold silShed
  split
  · dsimp only
    rw [silLose_frame]
    rfl
  · rfl

theorem silKick_frame (d : Dev) : silKick d = { d with sil := (silKick d).sil } := by
  unfold silKick
  split
  · rfl
  · dsimp only
    rw [silShed_frame]
    split
    · rfl
    · split <;> rfl

/-! ### A Herarn link's line -/

/-- Blocks with valid headers never lose block lock (R335). -/
theorem lockEnd_none (bs : List LineBlk) (h : ∀ b ∈ bs, b ≠ .bad true) : lockEnd bs = none := by
  have e : ∀ i, (((bs.take (i + 1)).drop (i + 1 - 64)).filter fun b => decide (b = .bad true)) = [] := fun i =>
    List.filter_eq_nil_iff.2 fun b hb => by simpa using h b (List.mem_of_mem_take (List.mem_of_mem_drop hb))
  simp only [lockEnd, e]
  simp

end Sys2Proof.Machine
end

