-- ==== Sys2Proof/WellFormed.lean ====
section
/-!
DEFINITION. Which commands are well formed: every operand that names one of a fixed number of things names one that can exist
(spec/01_architecture.md R1, spec/03_command_rings.md R73, spec/05_pcie_ports.md R166), and every parameter block has its length.
-/

namespace Sys2Proof

/-- Herarn blocks on the line: a 2-bit sync header and 16 bytes each (R331). -/
def blocksOk (bs : List (Nat × List Byte)) : Bool := decide (bs.length ≤ 4096) && bs.all fun b => decide (b.1 < 4) && decide (b.2.length = 16)

/-- Operand ranges. -/
def Instr.wellFormed : Instr → Bool
  | .nop _ => true
  | .read _ sg => decide (sg.length ≤ 256)
  | .zwrite _ sg => decide (sg.length ≤ 256)
  | .zappend _ sg => decide (sg.length ≤ 256)
  | .zmgmtOpen _ => true
  | .zmgmtClose _ => true
  | .zmgmtFinish _ => true
  | .zmgmtReset _ => true
  | .zmgmtQuery _ => true
  | .cwrite _ sg => decide (sg.length ≤ 256)
  | .cread _ sg => decide (sg.length ≤ 256)
  | .copy _ => true
  | .wait _ _ => true
  | .abort _ => true
  | .tenantCreate _ blk => decide (blk.length ≤ 4096)
  | .tenantGrant _ blk => decide (blk.length ≤ 4096)
  | .tenantDelete _ => true
  | .ringCreate _ => true
  | .ringDelete _ => true
  | .plotCreate _ blk => decide (blk.length ≤ 4096)
  | .regionCreate _ blk => decide (blk.length ≤ 4096)
  | .plotDelete _ => true
  | .plotHints _ => true
  | .accordSet _ => true
  | .connCreate _ blk => decide (blk.length ≤ 4096)
  | .connDelete _ => true
  | .connKey _ blk => decide (blk.length ≤ 4096)
  | .graftStart _ => true
  | .sqTail fn sq _ _ => decide (fn < 2048) && decide (sq < 65536)
  | .cqHead fn cq _ _ => decide (fn < 2048) && decide (cq < 65536)
  | .cqCountRead fn cq _ => decide (fn < 2048) && decide (cq < 65536)
  | .qmMbxDb _ _ _ => true
  | .adminRingEnable _ _ => true
  | .glbSetupLock _ _ => true
  | .registerWrite p off _ => decide (off < if p.isBar2 then 2 ^ 28 else 2 ^ 24)
  | .reg64HighWrite _ off _ => decide (off < 2 ^ 24)
  | .reg64LowRead p off => decide (off < if p.isBar2 then 2 ^ 28 else 2 ^ 24)
  | .smtIfIpv6LastWrite _ iface _ => decide (iface < 64)
  | .descriptorFetch sq _ _ => decide (sq < 65536)
  | .rangeLockGrant _ => true
  | .writeCommit _ _ _ => true
  | .writeAcknowledge _ => true
  | .completionPost _ _ => true
  | .coalesceTimerExpiry cq _ => decide (cq < 65536)
  | .waitTimeout _ _ => true
  | .bufferGrant => true
  | .bufferReturn pool _ => decide (pool < 5)
  | .telemetryPeriod _ => true
  | .accordMissSecond _ => true
  | .almanacPeriod _ => true
  | .almanacSlot _ => true
  | .blockedTimeExpiry die _ => decide (die < 4096)
  | .ldpcDecodeDone _ _ _ => true
  | .softBufferGrant _ => true
  | .stripeIdleSpill _ _ => true
  | .weedSwitch _ _ => true
  | .transplantSwitch _ pos _ _ => decide (pos < 32)
  | .rebuildReplace _ pos _ _ => decide (pos < 32)
  | .graftZoneSwitch plot zone _ _ => decide (plot < 16384) && decide (zone < 2 ^ 32)
  | .rowReadsDrained _ _ => true
  | .patrolStripe _ _ _ _ _ _ _ => true
  | .medHourTick _ => true
  | .hlFrameReceive link fs pay fin _ => decide (link < 512) && blocksOk (fs ++ pay ++ fin)
  | .hlDinFrame link _ => decide (link < 512)
  | .hlRspFrame link _ => decide (link < 512)
  | .hlAlert link _ => decide (link < 512)
  | .hlLctlAck link bs _ => decide (link < 512) && blocksOk bs
  | .hlLctlNak link bs _ => decide (link < 512) && blocksOk bs
  | .hlParkAck link bs _ => decide (link < 512) && blocksOk bs
  | .hlParkNak link bs _ => decide (link < 512) && blocksOk bs
  | .hlP1IdleTimer link _ => decide (link < 512)
  | .hlReplayTimer link _ => decide (link < 512)
  | .hlLockLoss link _ => decide (link < 512)
  | .hlRetrainDone link _ => decide (link < 512)
  | .hlRetrainTimeout link _ => decide (link < 512)
  | .hlTrainingDone link _ _ _ _ _ => decide (link < 512)
  | .hlTrainingTimeout link _ => decide (link < 512)
  | .hlBridgeWake link _ => decide (link < 512)
  | .lgParkTimer lg _ => decide (lg < 64)
  | .hlOpTimeout link otag _ => decide (link < 512) && decide (otag < 256)
  | .hlResetTimeout link otag _ => decide (link < 512) && decide (otag < 256)
  | .hlRetryTimer link _ => decide (link < 512)
  | .hlLctrlRetrain _ link _ => decide (link < 512)
  | .hlLctrlFull _ link _ => decide (link < 512)
  | .hlLctrlReturn _ link _ => decide (link < 512)
  | .smtBell _ _ => true
  | .smtRresp _ _ => true
  | .smtAckRx _ _ => true
  | .smtCredRx _ _ => true
  | .smtKeepRx _ _ => true
  | .smtCloseRx _ _ => true
  | .smtArpRequest iface _ _ _ _ => decide (iface < 64)
  | .smtNeighborSolicit iface _ _ _ _ => decide (iface < 64)
  | .smtIcmpEcho iface _ _ _ _ _ => decide (iface < 64)
  | .smtFrameDrop iface _ _ => decide (iface < 64)
  | .smtRtoExpiry conn _ => decide (conn < 2 ^ 18)
  | .smtAckDelayTimer conn _ => decide (conn < 2 ^ 18)
  | .smtKeepIdle conn _ => decide (conn < 2 ^ 18)
  | .smtDeadTimer conn _ => decide (conn < 2 ^ 18)
  | .smtEcnHold conn _ => decide (conn < 2 ^ 18)
  | .smtKeyDrainTimer conn _ => decide (conn < 2 ^ 18)
  | .smtCloseTimer conn _ => decide (conn < 2 ^ 18)
  | .ethParkTimer port _ => decide (port < 8)
  | .pcxParkTimer port _ => decide (port < 2)
  | .pcxFlr fn => decide (fn < 2048)
  | .pcxOwnerFlr => true
  | .pcxVfDisable link => decide (link < 8)
  | .pcxPerst link => decide (link < 8)
  | .pcxHotReset link => decide (link < 8)
  | .pcxDlDown link => decide (link < 8)
  | .pcxDmaError fn _ _ => decide (fn < 2048)
  | .ceilingRecompute _ => true
  | .holdupShortTimer _ => true
  | .vinDrop _ _ => true
  | .vinGlitch _ _ => true
  | .powerFail _ => true
  | .flushDone _ _ => true
  | .vinReturn _ _ => true
  | .keeperWdogExpiry _ => true
  | .heartbeat _ => true
  | .kprCtrlWarm _ _ => true
  | .kprCtrlShutdown _ _ => true
  | .cleanShutdownDone _ => true
  | .hldCtrlCal _ _ => true
  | .hldCalSchedule _ => true
  | .hldCalDone _ _ _ => true
  | .hldCalAbort _ _ => true
  | .hldCtrlBleedSet _ _ => true
  | .hldCtrlBleedClear _ _ => true
  | .bleedDone _ _ => true
  | .leakageCheck _ => true
  | .adcSample _ _ _ => true
  | .jnlPageTimer e => e.fails.all fun e => decide (e.1 < 4096) && decide (e.2.1 < 4096)
  | .checkpointTimer _ => true
  | .checkpointDone e => e.fails.all fun e => decide (e.1 < 4096) && decide (e.2.1 < 4096)
  | .coldReset _ _ _ => true
  | .railPowerGood rail _ => decide (rail < 8)
  | .railPgTimeout _ _ => true
  | .railFault rail _ _ => decide (rail < 8)
  | .sramFillDone _ _ => true
  | .warmupDone _ _ => true
  | .warmupTimeout _ _ => true
  | .hbmFillDone _ => true
  | .bootVerifyDone _ _ _ _ => true
  | .discoveryDone _ _ _ => true
  | .checkpointLoadDone _ _ _ => true
  | .journalReplayDone _ _ _ _ => true
  | .rescueIntakeDone _ => true
  | .rngReady => true
  | .rngHealthFail _ => true
  | .plCeilingChange _ => true
  | .plMoveDone _ => true
  | .pl6ModeCheck _ _ => true
  | .vddcAdapt _ _ => true
  | .pmbusArbLoss _ _ _ => true
  | .s1IdleTimer _ => true
  | .s2IdleTimer _ => true
  | .sleepEntryDone _ _ => true
  | .sleepExitDone _ _ => true
  | .pwrSleepS2 _ _ => true
  | .pwrSleepS3 _ _ => true
  | .pwrPadRelease _ => true
  | .klinkResync _ _ _ => true
  | .klinkPfTimeout _ => true
  | .clkLoss _ _ => true
  | .xtalLost _ => true
  | .rcTrim _ _ _ => true
  | .thmSample sensor _ _ => decide (sensor < 48)
  | .sensorTimeout sensor _ => decide (sensor < 260)
  | .hbmSensorRead _ _ => true
  | .pthSample sensor _ _ => decide (sensor < 4)
  | .throttleStep _ => true
  | .thermalCeilingRise _ => true
  | .orderlyStopDone _ => true
  | .thermalRestart _ => true
  | .powerSample _ _ _ _ _ => true
  | .ageHourTick _ _ => true
  | .silRecord _ => true
  | .silProgramDone _ => true
  | .silSectorEraseDone _ => true
  | .silTokenTick _ => true
  | .silHourStore _ => true
  | .silFreeze _ _ _ => true
  | .silFreezeTimeout _ _ => true
  | .silWindowRead _ word => decide (word < 16)
  | .silClearGo _ _ => true
  | .silClearDone _ => true
  | .mainRecordStore _ _ => true
  | .registerAccessRequest _ bytes _ => decide (bytes.length ≤ 72)
  | .setEndpointId _ _ eid _ => decide (eid < 256)
  | .getEndpointId _ _ => true
  | .getMctpVersionSupport _ _ _ => true
  | .getMessageTypeSupport _ _ => true
  | .getVendorDefinedMessageSupport _ _ _ => true
  | .pldmBase _ _ _ _ => true
  | .pldmSensorRead _ _ _ => true
  | .pldmFirmwareUpdate _ _ _ _ => true
  | .mctpTimeout _ => true
  | .commitKa _ => true
  | .commitSig _ => true
  | .raise1 _ _ => true
  | .raise2 _ _ => true
  | .secCmdLower _ _ _ => true
  | .loweringDone _ _ _ => true
  | .secCmdReplaceKa _ _ => true
  | .secCmdReplaceSig _ _ => true
  | .secCmdAdvanceSvn _ _ => true
  | .scuTake _ => true
  | .scuRelease _ => true
  | .scuGcmEncrypt _ _ => true
  | .scuGcmDecrypt _ _ => true
  | .scuCmac _ _ => true
  | .scuKeyWrap _ _ => true
  | .scuKeyUnwrap _ _ => true
  | .scuSha384 _ _ => true
  | .scuOpDone => true
  | .memCorrectable _ _ => true
  | .memUncorrectable _ _ _ _ => true
  | .narrowWriteRefused _ _ => true
  | .fabricParityFail _ _ _ _ => true
  | .errorRecordHandled => true
  | .eccInject _ _ => true
  | .ageBankReset _ => true
  | .rootPllLock _ => true
  | .vinStable _ _ => true
  | .inrushDone _ => true
  | .railSequenceRestart _ _ => true
  | .railPowerDownStep _ => true
  | .vinAboveRange _ _ => true
  | .allSuppliesLost _ => true
  | .linkGroupPllFail lg _ => decide (lg < 64)
  | .pcxLinkTrained link _ _ => decide (link < 8)
  | .ethLinkStateChange iface _ => decide (iface < 64)
  | .pcxBusMasterEnable fn => decide (fn < 2048)
  | .jtagInstruction _ _ => true

end Sys2Proof
end

