-- ==== Sys2Proof/Tests/Slice0.lean ====
section
/-!
SUPPORT. Tests: states and operands that meet the hypotheses of each statement, ill-formed commands, worked examples and register values printed in the spec. Each runs
one command on a small part. Expected values come from the spec's text.
-/

set_option Elab.async false

namespace Sys2Proof.Tests

open Sys2Proof.Machine
/-! ### Small states -/

/-- What holds of the part after a command that answers a next state. -/
def after (o : Host.Outcome State Fault Refusal) (p : Dev → Bool) : Bool := match o with
  | .next t => p t.dev
  | _ => false

/-- The part serving commands, with nothing created. -/
def upDev : Dev := {
  kpr := { running := true, state := 2, vinMv := 12000, vauxOk := true, pwrcyc := 1 }
  pwr := { aon := true, klinkUp := true, pllLock := true, pl := 4 }
  clo := { phase := 7, ready := true, armed := true }
  pcx := { master := [0] } }

/-- A state over a part. -/
def st (d : Dev) : State := { dev := d, pending := [] }

/-- A descriptor: opcode, tag, plot, NBLK (as sent), LBA, ARG0-ARG4. -/
def desc (opc tag plot nblk lba a0 a1 a2 a3 a4 : Nat) : BitVec 512 :=
  BitVec.ofNat 512 (opc + tag * 2 ^ 16 + plot * 2 ^ 32 + nblk * 2 ^ 48 + lba * 2 ^ 64 + a0 * 2 ^ 352 + a1 * 2 ^ 384 + a2 * 2 ^ 416 + a3 * 2 ^ 448 + a4 * 2 ^ 480)

/-- A ring pair of the owner on function 0, of 16 entries, and one command outstanding as number 7. -/
def ringDev (d : BitVec 512) : Dev := { upDev with qm := {
  sqs := [(0, { admin := true, bind := .fn 0, base := 0x10000, log2 := 4, tail := 3 })]
  cqs := [(0, { bind := .fn 0, base := 0x20000, log2 := 4, phase := true, count := 5, widx := 15, reserved := 1 })]
  cmds := [(7, { desc := d })]
  nextCmd := 8, adminOn := true } }

/-! ### Well-formedness: an ill-formed term for each check, and a well-formed one of each constructor that has checks -/

def illFormed1 : List Instr := [
  .read 0 (List.replicate (256 + 1) ⟨0, 0, 0⟩), .zwrite 0 (List.replicate (256 + 1) ⟨0, 0, 0⟩), .zappend 0 (List.replicate (256 + 1) ⟨0, 0, 0⟩),
  .cwrite 0 (List.replicate (256 + 1) ⟨0, 0, 0⟩), .cread 0 (List.replicate (256 + 1) ⟨0, 0, 0⟩), .tenantCreate 0 (List.replicate (4096 + 1) 0),
  .tenantGrant 0 (List.replicate (4096 + 1) 0), .plotCreate 0 (List.replicate (4096 + 1) 0), .regionCreate 0 (List.replicate (4096 + 1) 0),
  .connCreate 0 (List.replicate (4096 + 1) 0), .connKey 0 (List.replicate (4096 + 1) 0), .sqTail (2048) 0 0 0, .sqTail 0 (65536) 0 0, .cqHead (2048) 0 0 0,
  .cqHead 0 (65536) 0 0, .cqCountRead (2048) 0 .lo, .cqCountRead 0 (65536) .lo, .registerWrite .bar0 (2 ^ 24) ⟨0, .word⟩, .reg64HighWrite .bar0 (2 ^ 24) 0,
  .reg64LowRead .bar0 (2 ^ 24), .smtIfIpv6LastWrite .bar0 (64) 0, .descriptorFetch (65536) 0 0, .coalesceTimerExpiry (65536) 0, .bufferReturn (5) 0]
theorem test_illFormed1 : illFormed1.all (fun i => !i.wellFormed) = true := by decide +kernel
def illFormed2 : List Instr := [
  .blockedTimeExpiry (4096) 0, .transplantSwitch 0 (32) [] 0, .rebuildReplace 0 (32) [] 0, .graftZoneSwitch (16384) 0 [] 0, .graftZoneSwitch 0 (2 ^ 32) [] 0,
  .hlFrameReceive (512) [] [] [] 0, .hlDinFrame (512) 0, .hlRspFrame (512) 0, .hlAlert (512) 0, .hlLctlAck (512) [] 0,
  .hlLctlAck 0 (List.replicate (4096 + 1) (1, [])) 0, .hlLctlNak (512) [] 0, .hlLctlNak 0 [(1, [])] 0, .hlParkAck (512) [] 0,
  .hlParkAck 0 [(4, List.replicate 16 0)] 0, .hlParkNak (512) [] 0, .hlParkNak 0 (List.replicate (4096 + 1) (1, List.replicate 16 0)) 0, .hlP1IdleTimer (512) 0,
  .hlReplayTimer (512) 0, .hlLockLoss (512) 0, .hlRetrainDone (512) 0, .hlRetrainTimeout (512) 0, .hlTrainingDone (512) 0 0 0 0 0, .hlTrainingTimeout (512) 0]
theorem test_illFormed2 : illFormed2.all (fun i => !i.wellFormed) = true := by decide +kernel
def illFormed3 : List Instr := [
  .hlBridgeWake (512) 0, .lgParkTimer (64) 0, .hlOpTimeout (512) 0 0, .hlOpTimeout 0 (256) 0, .hlResetTimeout (512) 0 0, .hlResetTimeout 0 (256) 0,
  .hlRetryTimer (512) 0, .hlLctrlRetrain .bar0 (512) 0, .hlLctrlFull .bar0 (512) 0, .hlLctrlReturn .bar0 (512) 0, .smtArpRequest (64) ⟨0, none⟩ 0 0 0,
  .smtNeighborSolicit (64) ⟨0, none⟩ 0 0 0, .smtIcmpEcho (64) ⟨0, none⟩ 0 0 [] 0, .smtFrameDrop (64) none 0, .smtRtoExpiry (2 ^ 18) 0, .smtAckDelayTimer (2 ^ 18) 0,
  .smtKeepIdle (2 ^ 18) 0, .smtDeadTimer (2 ^ 18) 0, .smtEcnHold (2 ^ 18) 0, .smtKeyDrainTimer (2 ^ 18) 0, .smtCloseTimer (2 ^ 18) 0, .ethParkTimer (8) 0,
  .pcxParkTimer (2) 0, .pcxFlr (2048)]
theorem test_illFormed3 : illFormed3.all (fun i => !i.wellFormed) = true := by decide +kernel
def illFormed4 : List Instr := [
  .pcxVfDisable (8), .pcxPerst (8), .pcxHotReset (8), .pcxDlDown (8), .pcxDmaError (2048) .unsupported ⟨none, none⟩, .railPowerGood (8) 0, .railFault (8) 0 0,
  .thmSample (48) 0 0, .sensorTimeout (260) 0, .pthSample (4) 0 0, .silWindowRead .bar0 (16), .registerAccessRequest true (List.replicate (72 + 1) 0) 0,
  .setEndpointId true 0 (256) 0, .linkGroupPllFail (64) 0, .pcxLinkTrained (8) 0 0, .ethLinkStateChange (64) 0, .pcxBusMasterEnable (2048)]
theorem test_illFormed4 : illFormed4.all (fun i => !i.wellFormed) = true := by decide +kernel
def inRange1 : List Instr := [
  .read 0 [], .zwrite 0 [], .zappend 0 [], .cwrite 0 [], .cread 0 [], .tenantCreate 0 [], .tenantGrant 0 [], .plotCreate 0 [], .regionCreate 0 [],
  .connCreate 0 [], .connKey 0 [], .sqTail 0 0 0 0, .cqHead 0 0 0 0, .cqCountRead 0 0 .lo, .registerWrite .bar0 0 ⟨0, .word⟩, .reg64HighWrite .bar0 0 0,
  .reg64LowRead .bar0 0, .smtIfIpv6LastWrite .bar0 0 0, .descriptorFetch 0 0 0, .coalesceTimerExpiry 0 0, .bufferReturn 0 0, .blockedTimeExpiry 0 0,
  .transplantSwitch 0 0 [] 0, .rebuildReplace 0 0 [] 0]
theorem test_inRange1 : inRange1.all (fun i => i.wellFormed) = true := by decide +kernel
def inRange2 : List Instr := [
  .graftZoneSwitch 0 0 [] 0, .hlFrameReceive 0 [] [] [] 0, .hlDinFrame 0 0, .hlRspFrame 0 0, .hlAlert 0 0, .hlLctlAck 0 [] 0, .hlLctlNak 0 [] 0,
  .hlParkAck 0 [] 0, .hlParkNak 0 [] 0, .hlP1IdleTimer 0 0, .hlReplayTimer 0 0, .hlLockLoss 0 0, .hlRetrainDone 0 0, .hlRetrainTimeout 0 0,
  .hlTrainingDone 0 0 0 0 0 0, .hlTrainingTimeout 0 0, .hlBridgeWake 0 0, .lgParkTimer 0 0, .hlOpTimeout 0 0 0, .hlResetTimeout 0 0 0, .hlRetryTimer 0 0,
  .hlLctrlRetrain .bar0 0 0, .hlLctrlFull .bar0 0 0, .hlLctrlReturn .bar0 0 0]
theorem test_inRange2 : inRange2.all (fun i => i.wellFormed) = true := by decide +kernel
def inRange3 : List Instr := [
  .smtArpRequest 0 ⟨0, none⟩ 0 0 0, .smtNeighborSolicit 0 ⟨0, none⟩ 0 0 0, .smtIcmpEcho 0 ⟨0, none⟩ 0 0 [] 0, .smtFrameDrop 0 none 0, .smtRtoExpiry 0 0, .smtAckDelayTimer 0 0,
  .smtKeepIdle 0 0, .smtDeadTimer 0 0, .smtEcnHold 0 0, .smtKeyDrainTimer 0 0, .smtCloseTimer 0 0, .ethParkTimer 0 0, .pcxParkTimer 0 0, .pcxFlr 0,
  .pcxVfDisable 0, .pcxPerst 0, .pcxHotReset 0, .pcxDlDown 0, .pcxDmaError 0 .unsupported ⟨none, none⟩, .railPowerGood 0 0, .railFault 0 0 0, .thmSample 0 0 0,
  .sensorTimeout 0 0, .pthSample 0 0 0]
theorem test_inRange3 : inRange3.all (fun i => i.wellFormed) = true := by decide +kernel
def inRange4 : List Instr := [
  .silWindowRead .bar0 0, .registerAccessRequest true [] 0, .setEndpointId true 0 0 0, .linkGroupPllFail 0 0, .pcxLinkTrained 0 0 0, .ethLinkStateChange 0 0,
  .pcxBusMasterEnable 0]
theorem test_inRange4 : inRange4.all (fun i => i.wellFormed) = true := by decide +kernel

/-! ### Rings -/

/-- Obligations.NopWaitAbortComplete: NOP. -/
theorem test_nop : Outstanding (st (ringDev (desc 0 1 0 0 0 0 0 0 0 0))) 7 0 { desc := desc 0 1 0 0 0 0 0 0 0 0 } ∧
    after (exec (.nop 7) (st (ringDev (desc 0 1 0 0 0 0 0 0 0 0)))) (fun d => ((tget d.qm.cmds 7).map (·.stage)) = some .done) = true := by
  unfold Outstanding; decide +kernel

/-- Obligations.NopWaitAbortComplete: WAIT, with the count reached (5 of 5) and with the count ahead (6). -/
theorem test_wait_satisfied : Outstanding (st (ringDev (desc 8 1 0 0 0 100 0 5 0 0))) 7 8 { desc := desc 8 1 0 0 0 100 0 5 0 0 } ∧
    after (exec (.wait 7 10) (st (ringDev (desc 8 1 0 0 0 100 0 5 0 0)))) (fun d => ((tget d.qm.cmds 7).map fun c => (c.stage, c.result)) = some (.done, 5)) = true := by
  unfold Outstanding; decide +kernel
theorem test_wait_waits :
    after (exec (.wait 7 10) (st (ringDev (desc 8 1 0 0 0 60000 0 6 0 0)))) (fun d => ((tget d.qm.cmds 7).map (·.stage)) = some .transfer) = true := by
  decide +kernel

/-- Obligations.NopWaitAbortComplete: the time-out of a WAIT of 100 ms, at 100 ms after its fetch. -/
theorem test_wait_timeout :
    after (exec (.waitTimeout 7 100000000) (st { ringDev 0 with qm := { (ringDev 0).qm with
      cmds := [(7, { desc := desc 8 1 0 0 0 100 0 5 0 0, stage := .transfer })] } })) (fun d =>
        ((tget d.qm.cmds 7).map fun c => (c.stage, c.status)) = some (.done, .waitTimeout)) = true := by
  decide +kernel

/-- Obligations.NopWaitAbortComplete: ABORT with no target (result 2), one past its commit point (1), one before it (0). -/
def abortDev (past : Bool) (tag : Nat) : Dev := { ringDev 0 with qm := { (ringDev 0).qm with
  cmds := [(6, { desc := desc 2 9 3 0 0 0 0 0 0 0, past := past, stage := .transfer }), (7, { desc := desc 9 1 0 0 0 0 (tag * 65536) 0 0 0 })] } }
theorem test_abort_not_found : after (exec (.abort 7) (st (abortDev false 8))) (fun d =>
    ((tget d.qm.cmds 7).map fun c => (c.stage, c.result)) = some (.done, 2)) = true := by decide +kernel
theorem test_abort_late : after (exec (.abort 7) (st (abortDev true 9))) (fun d =>
    ((tget d.qm.cmds 7).map fun c => (c.stage, c.result)) = some (.done, 1) ∧ ((tget d.qm.cmds 6).map (·.stage)) = some .transfer) = true := by decide +kernel
theorem test_abort_caught : after (exec (.abort 7) (st (abortDev false 9))) (fun d =>
    ((tget d.qm.cmds 7).map fun c => (c.stage, c.result)) = some (.done, 0) ∧ ((tget d.qm.cmds 6).map fun c => (c.stage, c.status)) = some (.done, .aborted)) = true := by
  decide +kernel

/-- Obligations.DoorbellsComplete. -/
theorem test_sq_tail : mainUp upDev = true ∧ after (exec (.sqTail 0 0 15 10) (st (ringDev 0))) (fun d => ((tget d.qm.sqs 0).map (·.tail)) = some 15) = true ∧
    after (exec (.sqTail 1 0 15 10) (st (ringDev 0))) (fun d => d.qm.dbReject = 1 ∧ d.qm.sqs = (ringDev 0).qm.sqs) = true ∧
    after (exec (.sqTail 0 0 16 10) (st (ringDev 0))) (fun d => d.qm.dbReject = 1 ∧ d.qm.sqs = (ringDev 0).qm.sqs) = true := by decide +kernel
theorem test_cq_head : after (exec (.cqHead 0 0 4 10) (st (ringDev 0))) (fun d => ((tget d.qm.cqs 0).map (·.head)) = some 4) = true := by decide +kernel
def mbxDev : Dev := { ringDev 0 with id := { ownerMgt := true }, qm := { (ringDev 0).qm with
  sqs := [(0, { admin := true, log2 := 4 })], cqs := [(0, { log2 := 4, phase := true })] } }
theorem test_mbx_db : reachable mbxDev .mgmt 0x1038 = true ∧ after (exec (.qmMbxDb .mgmt 0x8002 10) (st mbxDev)) (fun d => ((tget d.qm.sqs 0).map (·.tail)) = some 2) = true ∧
    after (exec (.qmMbxDb .mgmt 0x80030000 10) (st mbxDev)) (fun d => ((tget d.qm.cqs 0).map (·.head)) = some 3) = true := by decide +kernel

/-- Obligations.CompletionCountReadsLatch, with a count above 32 bits. -/
def countDev (l : Tbl Word) : Dev := { ringDev 0 with qm := { (ringDev 0).qm with cqs := [(0, { bind := .fn 0, log2 := 4, count := 0x300000005 })], countLatch := l } }
theorem test_count_lo : after (exec (.cqCountRead 0 0 .lo) (st (countDev []))) (fun d => d.io.out = [.regRead 0x810 5] ∧ d.qm.countLatch = [(0, 3)]) = true := by decide +kernel
theorem test_count_hi : after (exec (.cqCountRead 0 0 .hi) (st (countDev [(0, 2)]))) (fun d => d.io.out = [.regRead 0x814 2] ∧ d.qm.countLatch = []) = true ∧
    after (exec (.cqCountRead 0 0 .hi) (st (countDev []))) (fun d => d.io.out = [.regRead 0x814 3]) = true ∧
    after (exec (.cqCountRead 0 0 .both) (st (countDev []))) (fun d => d.io.out = [.regRead 0x810 5, .regRead 0x814 3]) = true := by decide +kernel

/-- Obligations.AdminRingEnableStartsTheRing: the mailbox; the rings in host memory; a zero base; ENABLE cleared. -/
def admDev (owner : Bool) (regs : Tbl Word) : Dev := { upDev with id := { ownerMgt := owner }, rf := { regs := regs } }
theorem test_admin_enable : reachable (admDev true []) .mgmt 0x1014 = true ∧ reachable (admDev false []) .bar0 0x1014 = true ∧
    after (exec (.adminRingEnable .mgmt 1) (st (admDev true []))) (fun d => d.qm.adminOn ∧ ((tget d.qm.sqs 0).map (·.log2)) = some 4) = true ∧
    after (exec (.adminRingEnable .bar0 0x50001) (st (admDev false [(0x1000, 0x4000), (0x1008, 0x8000)]))) (fun d => d.qm.adminOn ∧
      ((tget d.qm.cqs 0).map fun q => (q.base, q.vector)) = some (0x8000, 5)) = true ∧
    after (exec (.adminRingEnable .bar0 1) (st (admDev false [(0x1000, 0x4000)]))) (fun d => !d.qm.adminOn ∧ d.qm.adminErr) = true := by decide +kernel
theorem test_admin_disable : after (exec (.adminRingEnable .bar0 0) (st { admDev false [(0x1014, 1)] with qm := { adminOn := true } })) (fun d => !d.qm.adminOn) = true := by
  decide +kernel

/-- Obligations.RingCreateDeleteComplete: an admin ring pair of tenant 0 on PF 0. -/
def tenDev (d : BitVec 512) : Dev := { ringDev d with bpm := { pools := [⟨0x1000, 0x400, 4, 0, [0x1400], 0⟩] }, maps := { tenants := [(0, { grants := ⟨100, 4, 4, 4, 4, 4, 8, 0⟩, accord := none })] } }
def cqDesc : BitVec 512 := desc 0x83 1 0 0 0 (2 * 65536) 6 0 0 0 ||| BitVec.ofNat 512 (0x7000 * 2 ^ 128)
def sqDesc : BitVec 512 := desc 0x83 1 0 0 0 65536 (5 + 65536) 0 0 0 ||| BitVec.ofNat 512 (0x9000 * 2 ^ 128)
def pairDev (d : BitVec 512) : Dev := { tenDev d with qm := { (tenDev d).qm with cqs := tset (tenDev d).qm.cqs 1 { tenant := some 0, bind := .fn 0, log2 := 6 } } }
theorem test_cq_create : adminTurn (tenDev cqDesc) 7 { desc := cqDesc } = true ∧ ringCreateFault (tenDev cqDesc) { desc := cqDesc } = none ∧
    after (exec (.ringCreate 7) (st (tenDev cqDesc))) (fun d => ((tget d.qm.cqs 1).map fun q => (q.base, q.log2)) = some (0x7000, 6)) = true := by decide +kernel
theorem test_sq_create : ringCreateFault (pairDev sqDesc) { desc := sqDesc } = none ∧
    after (exec (.ringCreate 7) (st (pairDev sqDesc))) (fun d => ((tget d.qm.sqs 1).map fun q => (q.base, q.log2, q.cq)) = some (0x9000, 5, 1)) = true := by decide +kernel
def cqDel : BitVec 512 := desc 0x84 1 0 0 0 (1 + 2 ^ 31) 0 0 0 0
theorem test_cq_delete : after (exec (.ringDelete 7) (st (pairDev cqDel))) (fun d => ((tget d.qm.cmds 7).map (·.status)) = some .ok ∧ !thas d.qm.cqs 1) = true := by decide +kernel
def sqDelDev : Dev := { pairDev 0 with qm := { (pairDev 0).qm with
  sqs := tset (pairDev 0).qm.sqs 1 { tenant := some 0, bind := .fn 0, log2 := 4, cq := 1 }
  cmds := [(6, { sq := 1, stage := .reading }), (7, { desc := desc 0x84 1 0 0 0 1 0 0 0 0 })] } }
theorem test_sq_delete : after (exec (.ringDelete 7) (st sqDelDev)) (fun d => ((tget d.qm.sqs 1).map (·.deleting)) = some (some 7)) = true := by decide +kernel

/-- Obligations.DescriptorFetchTakesACommand, at the wrap of a ring of 16: a NOP, and an opcode the ring does not take. -/
def fetchDev : Dev := { ringDev 0 with qm := { (ringDev 0).qm with sqs := [(0, { admin := true, bind := .fn 0, base := 0x10000, log2 := 4, head := 15 })], cqs := [(0, { bind := .fn 0, log2 := 4 })] } }
theorem test_fetch : canFetch fetchDev 0 = true ∧ after (exec (.descriptorFetch 0 (desc 0 5 0 0 0 0 0 0 0 0) 10) (st fetchDev)) (fun d =>
    ((tget d.qm.cmds 8).map fun c => (c.stage, c.sqhd)) = some (.fetched, 0) ∧ d.io.out = [.dmaRead 0 0x103C0 64]) = true := by decide +kernel
theorem test_fetch_refused : after (exec (.descriptorFetch 0 (desc 1 5 0 0 0 0 0 0 0 0) 10) (st fetchDev)) (fun d =>
    ((tget d.qm.cmds 8).map fun c => (c.stage, c.status)) = some (.done, .invalidOpcode)) = true := by decide +kernel

/-- Obligations.CompletionPostWritesAndCounts: at the last slot of the ring the phase inverts. -/
def doneDev : Dev := { ringDev 0 with qm := { (ringDev 0).qm with cmds := [(7, { stage := .done, desc := desc 0 5 0 0 0 0 0 0 0 0 })] } }
theorem test_post : canPost doneDev 7 { stage := .done, desc := desc 0 5 0 0 0 0 0 0 0 0 } = true ∧ after (exec (.completionPost 7 10) (st doneDev)) (fun d =>
    ((tget d.qm.cqs 0).map fun q => (q.count, q.widx, q.phase, q.reserved)) = some (6, 0, false, 0) ∧ d.qm.cmds = []) = true := by decide +kernel
def coalDev : Dev := { ringDev 0 with
  qm := { (ringDev 0).qm with cqs := [(0, { bind := .fn 0, log2 := 4, vector := 3, coalCount := 9, coalTime := 2, firstAt := some 5, sinceIrq := 1 })] }
  pcx := { master := [0], cfg := [(0x80, 0x80000000)], msix := [(3, ⟨0xFEE00000, 0x41, false, false⟩)] } }
theorem test_coalesce_timer : after (exec (.coalesceTimerExpiry 0 2005) (st coalDev)) (fun d => d.io.out = [.msix 0 0xFEE00000 0x41] ∧
    ((tget d.qm.cqs 0).map (·.sinceIrq)) = some 0) = true := by decide +kernel

/-! ### Tenants, plots, accords -/

/-- Bytes of little-endian fields: value, width. -/
def blkOf (l : List (Nat × Nat)) : List Byte := l.flatMap fun e => leBytes e.2 e.1

/-- Obligations.TenantCommandsComplete: grants at the ends of their ranges. -/
def grantBlk : List Byte := blkOf [(10, 4), (16380, 2), (8, 2), (1, 4), (65530, 4), (0, 4), (65528, 4), (0, 2)]
def tcDesc : BitVec 512 := desc 0x80 1 0 0 0 0 0 0 0 0
theorem test_tenant_create : AdminTurn (st (tenDev tcDesc)) 7 0x80 { desc := tcDesc } ∧ blockReady (tenDev tcDesc) 7 32 = true ∧ readBlk (tenDev tcDesc) { desc := tcDesc } 32 grantBlk = .got (padTo 32 grantBlk) ∧
    grantFault (tenDev tcDesc) (grantsOf (padTo 32 grantBlk)) = none ∧ overSum (tenDev tcDesc) none (grantsOf (padTo 32 grantBlk)) = false ∧
    after (exec (.tenantCreate 7 grantBlk) (st (tenDev tcDesc))) (fun d => ((tget d.maps.tenants 1).map (·.grants)) = some ⟨10, 16380, 8, 1, 65530, 0, 65528, 0⟩) = true := by
  unfold AdminTurn Outstanding; decide +kernel
def tgDesc : BitVec 512 := desc 0x81 1 0 0 0 0 0 0 0 0
theorem test_tenant_grant : overSum (tenDev tgDesc) (some 0) (grantsOf (padTo 32 grantBlk)) = false ∧
    after (exec (.tenantGrant 7 grantBlk) (st (tenDev tgDesc))) (fun d => ((tget d.maps.tenants 0).map (·.grants.plots)) = some 16380) = true := by decide +kernel
def tdDesc : BitVec 512 := desc 0x82 1 0 0 0 0 0 0 0 0
theorem test_tenant_delete : after (exec (.tenantDelete 7) (st (tenDev tdDesc))) (fun d => d.maps.tenants = [] ∧ ((tget d.qm.cmds 7).map (·.status)) = some .ok) = true ∧
    after (exec (.tenantDelete 7) (st (pairDev tdDesc))) (fun d => ((tget d.qm.cmds 7).map (·.status)) = some .tenantBusy) = true := by decide +kernel

/-- Obligations.PlotAndRegionCreateComplete: the hypotheses. Whether a drawn seed has equal halves is not for Lean to compute. -/
def plotBlk : List Byte := blkOf [(1, 1), (4, 1), (0, 1), (1, 1), (0, 4), (3, 4), (0, 4), (5, 8), (0, 40)]
def pcDesc : BitVec 512 := desc 0x85 1 0 0 0 0 0 0 0 0
def plotDev (d : BitVec 512) : Dev := { tenDev d with sec := { rngReady := true }, ecc := { cmapRes := 100 }, alm := { dies := [(0, { profile := 1, included := true })] } }
theorem test_plot_create : AdminTurn (st (plotDev pcDesc)) 7 0x85 { desc := pcDesc } ∧ blockReady (plotDev pcDesc) 7 64 = true ∧ readBlk (plotDev pcDesc) { desc := pcDesc } 64 plotBlk = .got (padTo 64 plotBlk) ∧ plotFault (padTo 64 plotBlk) = none ∧
    (profileOf (pbProfile (padTo 64 plotBlk))).isSome = true ∧ actingTenant (plotDev pcDesc) { desc := pcDesc } 0 = some 0 ∧ hasQ (plotDev pcDesc) = true ∧
    plotRoom (plotDev pcDesc) 0 = true ∧ mediaRefused (plotDev pcDesc) 0 (pbProfile (padTo 64 plotBlk)) = false ∧ pbWrapped (padTo 64 plotBlk) = false := by
  unfold AdminTurn Outstanding; decide +kernel
def regBlk : List Byte := blkOf [(0, 1), (0, 1), (0, 1), (1, 1), (0, 4), (1, 4), (0, 4), (5, 8), (0, 40)]
theorem test_region_create : pbCount (padTo 64 regBlk) = 1 ∧ regionOf (plotDev pcDesc) 0 = none ∧ regionSum (plotDev pcDesc) + 1 ≤ regionLimit (plotDev pcDesc) ∧
    quotaUsed (plotDev pcDesc) 0 + 1 * gibBlocks ≤ 100 * gibBlocks ∧ pbWrapped (padTo 64 regBlk) = false ∧ plotRoom (plotDev pcDesc) 0 = true := by decide +kernel

/-- Obligations.PlotDeleteAndHintsComplete. -/
def aPlot : Plot := { tenant := 0, region := false, durable := true, k := 4, mc := 0, profile := 1, count := 3, cap := 4, span := 4, hints := 0 }
def delDev (opc : Nat) (busy : Bool) : Dev := { tenDev 0 with
  maps := { (tenDev 0).maps with plots := [(5, aPlot)] }, sec := { store := [(5, 1)] }
  qm := { (tenDev 0).qm with cmds := (if busy then [(6, { desc := desc 1 4 5 0 0 0 0 0 0 0 })] else []) ++ [(7, { desc := desc opc 1 5 0 0 0 0 0 0 0 })] } }
theorem test_plot_delete : plotFor (delDev 0x87 false) 7 (some 0) 5 = some aPlot ∧ after (exec (.plotDelete 7) (st (delDev 0x87 false))) (fun d =>
    d.maps.plots = [] ∧ d.sec.store = [] ∧ ((tget d.qm.cmds 7).map (·.status)) = some .ok) = true := by decide +kernel
theorem test_plot_delete_waits : earlierOn (delDev 0x87 true) 7 0 8 5 = true ∧ after (exec (.plotDelete 7) (st (delDev 0x87 true))) (fun d =>
    ((tget d.qm.cmds 7).map (·.stage)) = some .transfer ∧ (plotFor d 8 (some 0) 5).isNone) = true := by decide +kernel
def hintDev : Dev := { delDev 0x88 false with qm := { (tenDev 0).qm with cmds := [(7, { desc := desc 0x88 1 5 0 0 0 0 0 0 0 ||| BitVec.ofNat 512 (3 * 2 ^ 288) })] } }
theorem test_plot_hints : after (exec (.plotHints 7) (st hintDev)) (fun d => ((tget d.maps.plots 5).map (·.hints)) = some 3) = true := by decide +kernel

/-- Obligations.AccordAndGraftComplete: no dies, so no shortfall; an accord of 8,301 MB/s more than the ports carry; one removed; a graft to more data positions. -/
def accDesc (a1 a2 : Nat) : BitVec 512 := desc 0x89 1 0 0 0 0 a1 a2 0 0
theorem test_accord_set : after (exec (.accordSet 7) (st (tenDev (accDesc (7 + 1000 * 65536) 8300)))) (fun d =>
    ((tget d.maps.tenants 0).map fun x => x.accord.map (·.bw)) = some (some 8300)) = true ∧
    after (exec (.accordSet 7) (st { tenDev (accDesc 7 1) with maps := { tenants := [(0, { grants := ⟨1, 1, 1, 1, 1, 1, 1, 1⟩, accord := none }),
      (1, { grants := ⟨1, 1, 1, 1, 1, 1, 1, 1⟩, accord := some ⟨7, false, 0, 8300⟩ })] } })) (fun d =>
    ((tget d.qm.cmds 7).map fun c => (c.status, c.result)) = some (.accordRefused, 1 * 2 ^ 32)) = true := by decide +kernel
theorem test_accord_remove : after (exec (.accordSet 7) (st { tenDev (accDesc (2 ^ 31) 0) with maps := { tenants := [(0, { grants := ⟨1, 1, 1, 1, 1, 1, 1, 1⟩, accord := some ⟨7, false, 0, 1⟩ })] } })) (fun d =>
    ((tget d.maps.tenants 0).map fun x => x.accord.isNone) = some true) = true := by decide +kernel
def graftDev : Dev := { delDev 0x8D false with qm := { (tenDev 0).qm with cmds := [(7, { desc := desc 0x8D 1 5 0 0 (30 * 256 + 1) 0 0 0 0 })] } }
theorem test_graft_start : graftFault graftDev aPlot 30 0 true = false ∧ plotValid graftDev 5 = 0 ∧
    after (exec (.graftStart 7) (st graftDev)) (fun d => d.maps.grafts = [(5, { st := 1, durable := true, k := 30, mc := 0, waitSpace := false })] ∧
      ((tget d.qm.cmds 7).map (·.status)) = some .ok) = true := by decide +kernel

/-! ### Zones, reads and writes -/

/-- A plot of capacity 8 per zone (span 8), whose zone 0 lies in row 0, with a command of tenant 0 on ring 1 of PF 0. -/
def zPlot : Plot := { tenant := 0, region := false, durable := true, k := 4, mc := 0, profile := 1, count := 3, cap := 8, span := 8, hints := 0 }
def zRow : Row := {
  st := .isOpen, durable := true, kind := 0, role := 0, k := 4, mc := 0, life := 0, slc := false, profile := 1, plot := 5, bset := none, valid := 0, claimed := 1
  sealHour := 0, colo := 0, stream := 0, pos := [(0, 9), (64, 9), (128, 9), (192, 9), (256, 9), (320, 9)], assigned := [[0]], since := [0], filled := 0 }
def zoneDev (z : Tbl Zone) (c : BitVec 512) : Dev := { upDev with
  maps := { tenants := [(0, { grants := ⟨100, 4, 4, 4, 4, 4, 8, 0⟩, accord := none })], plots := [(5, zPlot)], rows := [(0, zRow)], zones := z }
  qm := { sqs := [(1, { tenant := some 0, bind := .fn 0, log2 := 4, cq := 1 })], cqs := [(1, { tenant := some 0, bind := .fn 0, log2 := 4 })]
          cmds := [(7, { sq := 1, desc := c })], nextCmd := 8 } }
def zWith (st : ZState) (wp : Nat) : Tbl Zone := [(zkey 5 0, { st := st, row := some 0, slot := 0, wp := wp, written := wp, commit := 0, lost := false })]
def zm (act : Nat) : BitVec 512 := desc 4 1 5 0 0 act 0 0 0 0
def zState (d : Dev) : ZState × Nat := ((zoneOf d 5 0).st, (zoneOf d 5 0).wp)
def ended (d : Dev) (id : Nat) : Option (Stage × Status) := (tget d.qm.cmds id).map fun c => (c.stage, c.status)

/-- Obligations.ZoneOpenCompletes. -/
theorem test_zopen_promotes : plotFor (zoneDev (zWith .iOpen 3) (zm 1)) 7 (some 0) 5 = some zPlot ∧
    after (exec (.zmgmtOpen 7) (st (zoneDev (zWith .iOpen 3) (zm 1)))) (fun d => zState d = (.eOpen, 3) ∧ ended d 7 = some (.done, .ok)) = true := by decide +kernel
theorem test_zopen_closed_and_empty : after (exec (.zmgmtOpen 7) (st (zoneDev (zWith .closed 3) (zm 1)))) (fun d => zState d = (.eOpen, 3)) = true ∧
    (takeShare (shareWant (zoneDev [] (zm 1)) 5 zPlot (zm 1)) { zoneDev [] (zm 1) with maps := { (zoneDev [] (zm 1)).maps with rows := [(0, { zRow with claimed := 0, assigned := [] })] } }).isSome = true ∧
    after (exec (.zmgmtOpen 7) (st { zoneDev [] (zm 1) with maps := { (zoneDev [] (zm 1)).maps with rows := [(0, { zRow with claimed := 0, assigned := [] })] } })) (fun d =>
      zState d = (.eOpen, 0) ∧ (zoneOf d 5 0).row = some 0) = true ∧
    after (exec (.zmgmtOpen 7) (st { zoneDev [] (zm 1) with maps := { (zoneDev [] (zm 1)).maps with tenants := [(0, { grants := ⟨100, 4, 4, 4, 4, 4, 0, 0⟩, accord := none })] } })) (fun d =>
      ended d 7 = some (.done, .tooManyActive)) = true := by decide +kernel

/-- Obligations.ZoneCloseFinishResetQueryComplete. -/
theorem test_zclose : after (exec (.zmgmtClose 7) (st (zoneDev (zWith .eOpen 3) (zm 2)))) (fun d => zState d = (.closed, 3) ∧ ended d 7 = some (.done, .ok)) = true ∧
    after (exec (.zmgmtClose 7) (st (zoneDev (zWith .iOpen 0) (zm 2)))) (fun d => d.maps.zones = [] ∧ ended d 7 = some (.done, .ok)) = true := by decide +kernel
theorem test_zfinish : after (exec (.zmgmtFinish 7) (st (zoneDev [(zkey 5 0, { st := .closed, row := none, slot := 0, wp := 3, written := 3, commit := 0, lost := false })] (zm 3)))) (fun d =>
    zState d = (.full, 8) ∧ ended d 7 = some (.done, .ok)) = true := by decide +kernel
theorem test_zreset : after (exec (.zmgmtReset 7) (st (zoneDev [(zkey 5 0, { st := .full, row := none, slot := 0, wp := 8, written := 8, commit := 0, lost := false })] (zm 4)))) (fun d =>
    d.maps.zones = [] ∧ ended d 7 = some (.done, .ok)) = true := by decide +kernel
theorem test_zquery : after (exec (.zmgmtQuery 7) (st (zoneDev (zWith .eOpen 3) (zm 5)))) (fun d =>
    ((tget d.qm.cmds 7).map (·.result)) = some 0x300000003) = true := by decide +kernel

/-- Obligations.ReadsOfBufferedAndUnwrittenBlocksComplete: a block at the last written LBA, and a region block. -/
def rdDesc (opc lba : Nat) : BitVec 512 := desc opc 1 5 0 lba 0 0 0 0 0 ||| BitVec.ofNat 512 (0x4000 * 2 ^ 128)
def readDev : Dev := { zoneDev (zWith .iOpen 3) (rdDesc 1 2) with clo := { phase := 7, ready := true, buf := [(0, { plot := 5, lba := 2, pay := 0x5A, spilled := false })], nextPos := 1 } }
theorem test_read_buffered : source readDev [] 5 zPlot 2 = .buffer 0x5A ∧ plotFor readDev 7 (some 0) 5 = some zPlot ∧ bindOf readDev { sq := 1, desc := rdDesc 1 2 } = some (.fn 0) ∧
    Outstanding (st readDev) 7 1 { sq := 1, desc := rdDesc 1 2 } ∧ LockOpen (st readDev) (lockFor 7 zPlot 5 2 2 false) := by
  unfold Outstanding LockOpen; decide +kernel
def creadDev : Dev := { zoneDev [] (rdDesc 6 7) with maps := { (zoneDev [] (rdDesc 6 7)).maps with plots := [(5, { zPlot with region := true, count := 1 })] } }
theorem test_cread_unwritten : after (exec (.cread 7 []) (st creadDev)) (fun d => ended d 7 = some (.done, .ok)) = true := by decide +kernel
theorem test_cread_buffered : source { creadDev with clo := { phase := 7, ready := true, buf := [(0, { plot := 5, lba := 7, pay := 0x5A, spilled := false })], nextPos := 1 } } [] 5 { zPlot with region := true, count := 1 } 7 =
    .buffer 0x5A := by decide +kernel

/-- Obligations.WritesAskForTheirData. -/
theorem test_zwrite : after (exec (.zwrite 7 []) (st (zoneDev (zWith .iOpen 3) (rdDesc 2 3)))) (fun d =>
    ended d 7 = some (.transfer, .ok) ∧ d.io.out = [.dmaRead 0 0x4000 4096]) = true := by decide +kernel
theorem test_zappend : after (exec (.zappend 7 []) (st (zoneDev (zWith .iOpen 3) (rdDesc 3 2)))) (fun d =>
    ended d 7 = some (.transfer, .ok) ∧ d.io.out = [.dmaRead 0 0x4000 4096]) = true := by decide +kernel
theorem test_cwrite : after (exec (.cwrite 7 []) (st { creadDev with qm := (zoneDev [] (rdDesc 5 7)).qm })) (fun d =>
    ended d 7 = some (.transfer, .ok) ∧ d.io.out = [.dmaRead 0 0x4000 4096] ∧ lockHeld d.qm.locks 7) = true := by decide +kernel
def copyDesc : BitVec 512 := desc 7 1 5 0 2 5 1 0 0 0
theorem test_copy : after (exec (.copy 7) (st { readDev with qm := (zoneDev [] copyDesc).qm })) (fun d => ended d 7 = some (.spaceWait, .ok) ∧
    d.bpm.waiting = [(poolFor 4096, .copy 7)]) = true := by decide +kernel

/-- Obligations.LockAndBufferGrantsComplete. -/
def waitDev : Dev := { creadDev with qm := { (zoneDev [] 0).qm with
  cmds := [(7, { sq := 1, desc := rdDesc 5 7, stage := .lockWait, segs := [⟨0x4000, 4096, 0⟩] })], locks := [⟨7, 0, 5, 7, 7, true, true, false⟩] } }
theorem test_lock_grant : lockFree waitDev.qm.locks 7 = true ∧ after (exec (.rangeLockGrant 7) (st waitDev)) (fun d =>
    ended d 7 = some (.transfer, .ok) ∧ lockHeld d.qm.locks 7) = true := by decide +kernel
def poolDev : Dev := { upDev with bpm := { pools := [⟨0x1000, 0x400, 4, 0, [0x1400], 0⟩], waiting := [(0, .copy 3)] } }
theorem test_buffer_grant : servable poolDev = some ((0, .copy 3), 0, 0x1400) ∧ after (exec .bufferGrant (st poolDev)) (fun d =>
    d.bpm.waiting = [] ∧ d.bpm.granted = [(.copy 3, 0, 0x1400)]) = true := by decide +kernel
theorem test_buffer_return : badReturn ⟨0x1000, 0x400, 4, 0, [0x1400], 0⟩ 0x1C00 = none ∧
    after (exec (.bufferReturn 0 0x1C00) (st poolDev)) (fun d => (d.bpm.pools.map (·.free)) = [[0x1400, 0x1C00]]) = true ∧
    after (exec (.bufferReturn 0 0x2000) (st poolDev)) (fun d => d.bpm.bad = 1 ∧ d.bpm.badKind = 0) = true ∧
    after (exec (.bufferReturn 0 0x1400) (st poolDev)) (fun d => d.bpm.bad = 1 ∧ d.bpm.badKind = 2) = true := by decide +kernel
theorem test_buffer_grant_copy : after (exec .bufferGrant (st { zoneDev [] 0 with bpm := { pools := [⟨0x1000, 0x1000, 4, 0, [0x1000], 0⟩], waiting := [(0, .copy 7)] }, qm := { (zoneDev [] 0).qm with
    cmds := [(7, { sq := 1, desc := copyDesc, stage := .spaceWait })] } })) (fun d => d.bpm.granted = [(.copy 7, 0, 0x1000)] ∧ ended d 7 = some (.transfer, .ok)) = true := by decide +kernel

/-- Obligations.WriteCommitMovesThePointer: an append that fills the zone, a write off the pointer, a write beyond the capacity. -/
def commitDev (c : BitVec 512) (wp : Nat) : Dev := { zoneDev (zWith .iOpen wp) c with qm := { (zoneDev [] c).qm with cmds := [(7, { sq := 1, desc := c, stage := .transfer })] } }
theorem test_commit : mayCommit (commitDev (rdDesc 3 0) 6) 7 { sq := 1, desc := rdDesc 3 0, stage := .transfer } = true ∧
    after (exec (.writeCommit 7 [1] []) (st (commitDev (rdDesc 3 0) 6))) (fun d => zState d = (.iOpen, 7) ∧ ended d 7 = some (.committed, .ok) ∧ d.clo.nextPos = 1) = true := by decide +kernel
theorem test_commit_refused : after (exec (.writeCommit 7 [1] []) (st (commitDev (rdDesc 2 5) 6))) (fun d => ended d 7 = some (.done, .zoneInvalidWrite)) = true ∧
    after (exec (.writeCommit 7 [1, 1] []) (st (commitDev (rdDesc 2 7 ||| BitVec.ofNat 512 (2 ^ 48)) 7))) (fun d => ended d 7 = some (.done, .zoneBoundary)) = true := by decide +kernel

/-- Obligations.AcknowledgeAndSpillComplete: with the list unarmed, blocks still in the buffer keep a write waiting, and one on media is acknowledged. -/
def ackDev (b : Tbl BufBlk) : Dev := { zoneDev (zWith .iOpen 3) 0 with
  clo := { phase := 7, ready := true, buf := b, nextPos := 1 }
  qm := { (zoneDev [] 0).qm with cmds := [(7, { sq := 1, desc := rdDesc 2 2, stage := .committed, past := true, pos0 := 0, npos := 1 })] } }
theorem test_acknowledge : after (exec (.writeAcknowledge 10) (st (ackDev []))) (fun d => ended d 7 = some (.done, .ok) ∧ d.clo.ackPos = 1) = true ∧
    after (exec (.writeAcknowledge 10) (st (ackDev [(0, { plot := 5, lba := 2, pay := 0, spilled := false })]))) (fun d => ended d 7 = some (.committed, .ok) ∧ d.clo.ackPos = 0) = true := by decide +kernel
def spillDev : Dev := { upDev with
  maps := { rows := [(0, zRow), (9, { zRow with kind := 2, role := 2, slc := true, plot := 16384, k := 4, pos := [(0, 1), (64, 1), (128, 1), (192, 1), (256, 1), (320, 1)], assigned := [[]] })] }
  med := { stripes := [(0, { blocks := [some 0] })] }, clo := { phase := 7, ready := true, armed := true, buf := [(0, { plot := 5, lba := 0, pay := 0, spilled := false })], nextPos := 1 } }
theorem test_spill : spillDue (tick 10 spillDev) 0 { blocks := [some 0] } = true ∧ maySpill spillDev = true ∧ rescueFor spillDev (spillBlocks spillDev 0 { blocks := [some 0] }).length = some 9 ∧
    after (exec (.stripeIdleSpill 0 10) (st spillDev)) (fun d => ((tget d.med.stripes 0).map (·.spilling)) = some true ∧ (d.clo.buf.map (·.2.at_)) = [some (9, 0)]) = true := by decide +kernel

/-! ### Telemetry, the Almanac, decoding -/

/-- Obligations.PeriodReportsComplete: the owner's telemetry ring with room, and full. -/
def telDev (head : Nat) : Dev := { upDev with
  qm := { cqs := [(3, { telem := true, bind := .fn 0, base := 0x8000, log2 := 4, widx := 15, head := head, phase := true })], telemSeq := 6 }
  alm := { stats := [(2, { reads := 1, misses := [(8, 1), (3, 2)] })] } }
theorem test_telemetry : after (exec (.telemetryPeriod 100000000) (st (telDev 15))) (fun d => d.qm.telemSeq = 7 ∧ d.io.out.length = 1 ∧
    ((tget d.qm.cqs 3).map fun q => (q.widx, q.phase)) = some (0, false)) = true ∧
    after (exec (.telemetryPeriod 100000000) (st (telDev 0))) (fun d => d.qm.telemDrop = 1 ∧ d.io.out = []) = true := by decide +kernel
theorem test_accord_miss : after (exec (.accordMissSecond 5) (st (telDev 0))) (fun d => d.sil.inboxMain = [⟨.accordMiss, [2, 3, 3, 8, 0]⟩] ∧ d.alm.missDue = 1000000005) = true := by
  decide +kernel

/-- Obligations.AlmanacClockEventsComplete. -/
def almDev : Dev := { upDev with alm := { dies := [(5, { profile := 1, included := true, busy := 7, blockedUntil := 100 })] } }
theorem test_almanac_period : after (exec (.almanacPeriod 4000001) (st almDev)) (fun d => d.alm.periodAt = 4000000 ∧ ((tget d.alm.dies 5).map fun x => (x.busy, x.busyLast)) = some (0, 7)) = true := by
  decide +kernel
theorem test_almanac_slot : after (exec (.almanacSlot 750100) (st almDev)) (fun d => d.alm.slotAt = 750000 ∧ d.alm.slotBg = [5]) = true := by decide +kernel
theorem test_blocked_time : after (exec (.blockedTimeExpiry 5 100) (st almDev)) (fun d => ((tget d.alm.dies 5).map (·.blockedUntil)) = some 0) = true := by decide +kernel

/-- Obligations.DecodeEndsComplete: the hypotheses of the first clause; a failed decode is retried; a soft buffer granted. -/
def jobDev (st : JobSt) : Dev := { readDev with
  clo := { phase := 7, ready := true }
  qm := { (zoneDev [] 0).qm with cmds := [(7, { sq := 1, desc := rdDesc 1 2, stage := .reading, got := [.pending], lat := 7 })] }
  alm := { jobs := [(0, { cmd := 7, plot := 5, lba := 2, row := 0, stripe := 0, c := 2, st := st })], nextJob := 1 } }
theorem test_decode_fails : after (exec (.ldpcDecodeDone 0 .failed 10) (st (jobDev .decoding))) (fun d => d.ecc.hardFail = 1 ∧ d.ecc.cw = 1 ∧
    ((tget d.alm.jobs 0).map fun j => (j.st, j.retries)) = some (.retrying, 1)) = true := by decide +kernel
theorem test_decode_ready : (rowAt (jobDev .decoding) 0).isSome = true ∧ decodeReady { cmd := 7, st := .decoding } = true ∧ mainUp (jobDev .decoding) = true := by decide +kernel
theorem test_soft_grant : after (exec (.softBufferGrant 0) (st { jobDev .softWait with ecc := { softWait := [0] } })) (fun d => d.ecc.softWait = [] ∧ d.ecc.softUse = [(0, 1)] ∧
    ((tget d.alm.jobs 0).map (·.st)) = some .soft) = true := by decide +kernel

/-! ### Media management -/

/-- Obligations.ZoneMovesSwitch: an empty zone (write pointer 0) moves from row 0 to row 1; the same for a graft; a zone that has gained a block since stays. -/
def moveDev (z : Tbl Zone) (weed : Bool) : Dev := { zoneDev z 0 with
  maps := { (zoneDev z 0).maps with rows := [(0, zRow), (1, zRow)] }
  med := { weedRow := if weed then some 0 else none, copies := [(zkey 5 0, { plot := 5, zone := 0, src := 0, dst := 1, slot := 3, wp := 0, st := .readOnly, kind := 0, writing := true })] } }
theorem test_weed_switch : rowReady (moveDev (zWith .readOnly 0) true) 1 = true ∧ after (exec (.weedSwitch [] 10) (st (moveDev (zWith .readOnly 0) true))) (fun d =>
    ((tget d.maps.zones (zkey 5 0)).map fun z => (z.row, z.slot, z.wp)) = some (some 1, 3, 0)) = true := by decide +kernel
theorem test_graft_switch : after (exec (.graftZoneSwitch 5 0 [] 10) (st (moveDev (zWith .readOnly 0) false))) (fun d =>
      ((tget d.maps.zones (zkey 5 0)).map fun z => (z.row, z.slot, z.wp)) = some (some 1, 3, 0)) = true ∧
    after (exec (.graftZoneSwitch 5 0 [] 10) (st (moveDev (zWith .readOnly 1) false))) (fun d => d.maps.zones = zWith .readOnly 1 ∧ d.med.copies = []) = true := by decide +kernel

/-- Obligations.FreshBedsTakeTheirPosition: the hypotheses, at the last position of a row. -/
def xplDev : Dev := { moveDev [] false with med := { xpls := [(pkey 0 5, { cause := 1, running := true, writing := true, die := 400, bed := 8 })], rebuilds := [(pkey 1 5, { running := true, writing := true, die := 401, bed := 8 })] } }
theorem test_transplant : rowAt xplDev 0 = some zRow ∧ 5 < zRow.n ∧ 5 < zRow.pos.length ∧ readyToWrite xplDev (.xpl (pkey 0 5)) 400 8 = true ∧ mainUp xplDev = true ∧ (bedOf xplDev 320 9).st ≠ .suspect := by decide +kernel
theorem test_rebuild : rowAt xplDev 1 = some zRow ∧ readyToWrite xplDev (.rebuild (pkey 1 5)) 401 8 = true := by decide +kernel

/-- Obligations.DrainedRowsAreFreed. -/
theorem test_row_drained : after (exec (.rowReadsDrained 0 10) (st { moveDev [] false with med := { oldRows := [0] } })) (fun d => d.med.oldRows = [] ∧ !thas d.maps.rows 0 ∧
    (bedOf d 320 9).st = .released ∧ (bedOf d 0 9).st = .released) = true := by decide +kernel

/-- Obligations.PatrolAndHourComplete: a stripe in the middle of a row, and the hour. -/
def patDev : Dev := { moveDev [] false with maps := { (moveDev [] false).maps with rows := [(0, { zRow with st := .isSealed })], lost := [(skey 0 9, [0])] }, med := { patrolFrom := 9, patrolRead := true } }
theorem test_patrol : patrolOn patDev = true ∧ patrolNext (patrolPeriod 10 (tick 10 patDev)) = some 0 ∧ owed patDev (.patrol 0) = 0 ∧ after (exec (.patrolStripe 0 9 [] [] [] [] 10) (st patDev)) (fun d => d.med.patrolFrom = 10) = true := by decide +kernel
theorem test_patrol_end : after (exec (.patrolStripe 0 6143 [] [] [] [] 10) (st { patDev with med := { patrolFrom := 6143, patrolRead := true }, maps := { patDev.maps with lost := [(skey 0 6143, [0])] } })) (fun d =>
    d.med.patrolRow = 1 ∧ d.med.patrolDone = [0]) = true := by decide +kernel
theorem test_med_hour : after (exec (.medHourTick 7200000000001) (st upDev)) (fun d => d.med.hourDue = 7200000000000 ∧ effHour d 0 = 128 ∧ effHour d 63 = 128) = true := by decide +kernel

/-! ### Herarn links -/

/-- A part with link 0 in a state, its sequence side, and outstanding work. -/
def hlDev (x : Nat) (q : HSeq) (ops : Tbl DieOp) (jobs : Tbl Job) : Dev := { upDev with
  hl := { links := [(0, { st := x })], seqs := [(0, q)] }
  alm := { ops := ops, jobs := jobs, dies := [(2, { profile := 1, included := true })] } }

/-- A frame of 16 bytes, SEQ 7, with its CRCs (R336-R338); blocks as the bridge's scrambler sends them, from its seed (R332). -/
def aFs : List Byte := let b : List Byte := [0x1E, 2 + 8 * 2, 7, 0, 16, 0, 5, 0, 0, 0, 0, 0, 0, 0]
  b ++ leBytes 2 (crc16 b)
def aPay : List Byte := [1, 2, 3, 4, 0, 0, 0, 0, 0, 0, 0, 0, 0, 0, 0, 0]
def aFin (bad : Nat) : List Byte := let b : List Byte := [0x2D, 0, 0, 0, 3, 0, 0, 0, 0, 0, 0, 0]
  b ++ leBytes 4 ((crc32c (aFs ++ aPay ++ b) + bad) % 2 ^ 32)
def aLctl (code ack : Nat) : List Byte := let b : List Byte := [0x4B] ++ leBytes 1 code ++ leBytes 2 ack ++ [0, 0, 0, 0, 0, 0, 0, 0]
  b ++ leBytes 4 (crc32c b)

def onLine (l : List (Nat × List Byte)) : List (Nat × List Byte) := (lineSend {} l).1
def aFrame (bad : Nat) : List (Nat × List Byte) := onLine [(hdrCtl, aFs), (hdrData, aPay), skpBlk, (hdrCtl, aFin bad)]
def oneLctl (code ack : Nat) : List (Nat × List Byte) := onLine [(hdrCtl, aLctl code ack)]

/-- Obligations.HerarnFrameReceived: both clauses, with an SKP block among the frame's (R334); a block with an invalid header is counted (R331). -/
theorem test_hl_frame : fsOk aFs = true ∧ fsLen aFs = 16 ∧ linkPresent (hlDev lsActive {} [] []) 0 = true ∧ mainUp (hlDev lsActive {} [] []) = true ∧
    (lineRead (hlDev lsActive { rxSeq := 7 } [] []) 0 (aFrame 0)).filter (fun b => decide (b ≠ .skp)) = [.ctl aFs, .data aPay, .ctl (aFin 0)] ∧
    after (exec (.hlFrameReceive 0 ((aFrame 0).take 1) ((aFrame 0).drop 1) [] 10) (st (hlDev lsActive { rxSeq := 7 } [] []))) (fun d =>
      (seqAt d 0).rxSeq = 8 ∧ (seqAt d 0).inbox.map (fun f => (f.seq, f.pay)) = [(7, aPay)] ∧ d.io.out = [.lctl 0 0 7]) = true := by decide +kernel
theorem test_hl_frame_crc : after (exec (.hlFrameReceive 0 [] (aFrame 1) [] 5000) (st (hlDev lsActive { rxSeq := 7 } [] []))) (fun d =>
      (seqAt d 0).rxSeq = 7 ∧ (seqAt d 0).inbox = [] ∧ (linkAt d 0).errCrc = 1 ∧ d.io.out = [.lctl 0 1 6]) = true ∧
    after (exec (.hlFrameReceive 0 [] [(3, aPay)] [] 5000) (st (hlDev lsActive { rxSeq := 7 } [] []))) (fun d => (linkAt d 0).errSync = 1) = true := by decide +kernel

/-- Obligations.HerarnAnswersTakenUp: a frame of data, the answers to a read and to an erase, an alert. -/
def inFrame (kind otag : Nat) : HlFrame := { kind := kind, target := 2, seq := 0, len := 4, otag := otag, offset := 0, pay := [0, 0, 0, 40] }
def opDev (kind otag opc : Nat) (k : OpKind) : Dev := hlDev lsActive
  { inbox := [inFrame kind otag], ops := [(5, { opc := opc, target := 2, op := some 1, sentAt := 0, pausedFor := 0, pausedAt := none, din := 0, data := [] })] }
  [(1, { kind := k, die := 2, bed := 9, jobs := if k = .readPage then [3] else [] })] [(3, { cmd := 7, st := .sensing })]
theorem test_hl_din : after (exec (.hlDinFrame 0 10) (st (opDev kDin 5 opRead .readPage))) (fun d => (seqAt d 0).inbox = [] ∧
    ((tget (seqAt d 0).ops 5).map (·.din)) = some 4) = true := by decide +kernel
theorem test_hl_rsp_read : after (exec (.hlRspFrame 0 10) (st (opDev kRsp 5 opRead .readPage))) (fun d => ((tget d.alm.jobs 3).map (·.st)) = some .decoding ∧
    (linkAt d 0).temp = 40 ∧ d.alm.ops = []) = true := by decide +kernel
theorem test_hl_rsp_erase : after (exec (.hlRspFrame 0 10) (st (opDev kRsp 5 opErase .erase))) (fun d => (bedOf d 2 9).st = .erased ∧ (bedOf d 2 9).pe = 1) = true := by decide +kernel
theorem test_hl_alert : after (exec (.hlAlert 0 10) (st (opDev kRsp 255 opErase .erase))) (fun d => d.sil.inboxMain = [⟨.bridgeAlert, [0, 40]⟩]) = true := by decide +kernel

/-- Obligations.HerarnAcknowledgeAndReplay: two frames in the replay buffer. -/
def twoFrames : HSeq := { unacked := [{ inFrame 0 1 with seq := 4 }, { inFrame 0 2 with seq := 5 }], txSeq := 6 }
theorem test_hl_ack : LctlReads (st (hlDev lsActive twoFrames [] [])) 0 (oneLctl 0 4) (aLctl 0 4) 0 ∧ after (exec (.hlLctlAck 0 (oneLctl 0 4) 10) (st (hlDev lsActive twoFrames [] []))) (fun d => (seqAt d 0).unacked.map (·.seq) = [5]) = true := by
  unfold LctlReads LctlOk LineReads; decide +kernel
theorem test_hl_nak : after (exec (.hlLctlNak 0 (oneLctl 1 4) 10) (st (hlDev lsActive twoFrames [] []))) (fun d => d.io.out.length = 1 ∧ (linkAt d 0).replays = 1) = true := by decide +kernel
theorem test_hl_replay : after (exec (.hlReplayTimer 0 2000) (st (hlDev lsActive twoFrames [] []))) (fun d => d.io.out.length = 2 ∧ (linkAt d 0).replays = 1) = true := by decide +kernel
theorem test_hl_fourth_replay : after (exec (.hlReplayTimer 0 2000) (st (hlDev lsActive { twoFrames with sameReplay := 3 } [] []))) (fun d => (linkAt d 0).st = lsRetrain) = true := by
  decide +kernel

/-- Obligations.HerarnParking. -/
theorem test_hl_park : after (exec (.hlP1IdleTimer 0 70000000) (st (hlDev lsActive {} [] []))) (fun d => mayPark (hlDev lsActive {} [] []) 0 70000000 = (seqAt d 0).parking) = true := by decide +kernel
theorem test_hl_park_ack : after (exec (.hlParkAck 0 (oneLctl 3 0) 10) (st (hlDev lsActive { parking := true } [] []))) (fun d => (linkAt d 0).st = lsP1) = true := by decide +kernel
theorem test_hl_park_nak : after (exec (.hlParkNak 0 (oneLctl 4 0) 10) (st (hlDev lsActive { parking := true } [] []))) (fun d => (linkAt d 0).st = lsActive ∧ !(seqAt d 0).parking) = true := by
  decide +kernel
theorem test_hl_wake : after (exec (.hlBridgeWake 0 10) (st (hlDev lsP1 {} [] []))) (fun d => (linkAt d 0).st = lsRetrain ∧ d.io.out = [.linkAct 0 0]) = true := by decide +kernel

/-- Obligations.HerarnTraining. -/
theorem test_hl_lock : after (exec (.hlLockLoss 0 10) (st (hlDev lsActive {} [] []))) (fun d => (linkAt d 0).st = lsRetrain ∧ (linkAt d 0).lockLosses = 1) = true := by decide +kernel
theorem test_hl_retrained : after (exec (.hlRetrainDone 0 10) (st (hlDev lsRetrain twoFrames [] []))) (fun d => (linkAt d 0).st = lsActive ∧ d.io.out.length = 2) = true := by decide +kernel
theorem test_hl_retrain_late : after (exec (.hlRetrainTimeout 0 40000) (st (hlDev lsRetrain {} [] []))) (fun d => (linkAt d 0).st = lsTraining) = true := by decide +kernel
theorem test_hl_trained : after (exec (.hlTrainingDone 0 3 2 90 64 10) (st (hlDev lsTraining twoFrames [] []))) (fun d => (linkAt d 0).st = lsActive ∧ (seqAt d 0).doutLimit = 64 ∧
    ((tget (seqAt d 0).ops 0).map (·.opc)) = some opGeometry) = true := by decide +kernel
theorem test_hl_train_late : after (exec (.hlTrainingTimeout 0 2000000) (st (hlDev lsTraining { attempts := 2 } [] []))) (fun d => (linkAt d 0).st = lsFailed) = true := by decide +kernel
theorem test_hl_retry : after (exec (.hlRetryTimer 0 10) (st (hlDev lsFailed {} [] []))) (fun d => (linkAt d 0).st = lsTraining) = true := by decide +kernel
theorem test_hl_lctrl : reachable (hlDev lsActive {} [] []) .bar0 0x50004 = true ∧
    after (exec (.hlLctrlRetrain .bar0 0 10) (st (hlDev lsActive {} [] []))) (fun d => (linkAt d 0).st = lsRetrain) = true ∧
    after (exec (.hlLctrlFull .bar0 0 10) (st (hlDev lsActive {} [] []))) (fun d => (linkAt d 0).st = lsTraining) = true ∧
    after (exec (.hlLctrlReturn .bar0 0 10) (st (hlDev lsFailed {} [] []))) (fun d => (linkAt d 0).st = lsTraining) = true := by decide +kernel

/-- Obligations.HerarnFailures. -/
theorem test_hl_op_late : after (exec (.hlOpTimeout 0 5 20000000000) (st (opDev kDin 9 opRead .readPage))) (fun d => (linkAt d 0).timeouts = 1 ∧
    ((tget d.alm.dies 2).bind (·.resetting)).isSome) = true := by decide +kernel
theorem test_hl_reset_late : after (exec (.hlResetTimeout 0 5 20000000000) (st (opDev kDin 9 opReset .readPage))) (fun d => tgetD d.maps.dieSvc 2 0 = 1 ∧
    d.sil.inboxMain = [⟨.memberFailed, [0, 2, 0]⟩]) = true := by decide +kernel
theorem test_lg_pll : after (exec (.linkGroupPllFail 3 10) (st (hlDev lsActive {} [] []))) (fun d => d.med.failedLg = [3] ∧ (linkAt d 31).st = lsFailed ∧ (linkAt d 0).st = lsActive) = true := by
  decide +kernel

/-! ### Smiast -/

/-- A connection on interface 8, Open under a key. -/
def aConn : Conn := { iface := 8, peer := 0xFFFF0A000002, port := 7190, limit := 100, granted := 16, told := 16, window := 16, st := .isOpen, key := some 5, psize := 0, rxCum := 40, ctlRx := 9, txNext := 70 }
def smtDev (k : Conn) : Dev := { upDev with
  rf := { regs := [(0x21208, 0x0A000001)] }
  smt := { conns := [(6, k)], links := [(8, 4)] }
  qm := { (ringDev 0).qm with
    sqs := [(4, { tenant := some 0, bind := .conn 6, base := 0x10000, rkey := 1, log2 := 4, cq := 4 })]
    cqs := [(4, { tenant := some 0, bind := .conn 6, base := 0x20000, rkey := 1, log2 := 4 })] } }

/-- A datagram from the client, sealed under the connection's key (R137, R138, R140). -/
def aPkt (k : Conn) (ty psn reqId addr rkey flags space : Nat) (pay : List Byte) : RxPkt :=
  let hdr := beBytes 1 (16 + ty) ++ beBytes 1 flags ++ [0, 0] ++ beBytes 4 6 ++ beBytes 4 psn ++ beBytes 4 reqId ++ beBytes 8 addr ++ beBytes 4 rkey ++ beBytes 2 pay.length ++ [0, 0]
  { iface := 8, src := k.peer, sport := 9000, dport := 7190, ecn := 0, csum := 0, bytes := smtSeal 5 k.salt space psn hdr pay }
def badTag (p : RxPkt) : RxPkt := { p with bytes := p.bytes.dropLast ++ [p.bytes.getLastD 0 + 1] }

/-- Obligations.SmiastBellAndCloseComplete: each clause, the bell of the completion ring at its last index. -/
def bellPay (kind v : Nat) : List Byte := [0, 4] ++ leBytes 1 kind ++ [0] ++ beBytes 2 v ++ [0, 0]
theorem test_smt_bell_verified : Verified (smtDev aConn) (aPkt aConn 1 40 0 0 0 0 0 (bellPay 1 15)) 1 6 aConn (bellPay 1 15) ∧ InOrder (aPkt aConn 1 40 0 0 0 0 0 (bellPay 1 15)) aConn := by
  unfold Verified InOrder
  refine ⟨⟨?_, ?_, ?_, ?_, ?_, ?_, ?_, ?_, ?_, ?_, ?_, ?_, 5, ?_, ?_⟩, ?_⟩ <;> decide +kernel
theorem test_smt_bell : after (exec (.smtBell (aPkt aConn 1 40 0 0 0 0 0 (bellPay 1 15)) 10) (st (smtDev aConn))) (fun d =>
      ((tget d.qm.cqs 4).map (·.head)) = some 15 ∧ ((tget d.smt.conns 6).map (·.rxCum)) = some 41) = true ∧
    after (exec (.smtBell (aPkt aConn 1 40 0 0 0 0 0 (bellPay 0 3)) 10) (st (smtDev aConn))) (fun d => ((tget d.qm.sqs 4).map (·.tail)) = some 3) = true := by decide +kernel
theorem test_smt_close_rx : after (exec (.smtCloseRx (aPkt aConn 8 40 0 0 0 0 0 [0, 0, 0, 0]) 10) (st (smtDev aConn))) (fun d => ((tget d.smt.conns 6).map (·.st)) = some .closing) = true := by
  decide +kernel

/-- Obligations.SmiastReadResponsesComplete. -/
def reqConn (u : ReqUse) : Conn := { aConn with reqs := [(2, ⟨u, 0x5000, 8, 1, []⟩)] }
theorem test_smt_rresp : after (exec (.smtRresp (aPkt aConn 3 40 2 0x5000 1 0 0 [1, 2, 3, 4, 5, 6, 7, 8]) 10) (st (smtDev (reqConn (.data 7 16))))) (fun d =>
      ((tget d.qm.cmds 7).map fun c => c.staged.map (·.1)) = some [16, 17, 18, 19, 20, 21, 22, 23] ∧ ((tget d.smt.conns 6).map (·.clientUsed)) = some 1) = true ∧
    after (exec (.smtRresp (aPkt aConn 3 40 2 0x5000 1 8 0 []) 10) (st (smtDev (reqConn (.descs 4 0 1))))) (fun d =>
      ((tget d.qm.sqs 4).map (·.fault)) = some true ∧ d.sil.inboxMain = [⟨.smtRingFault, [4, 6]⟩]) = true := by decide +kernel

/-- Obligations.SmiastControlPacketsComplete: packets 68 and 69 unacknowledged; an ACK up to 69; one that shows three above a gap at 68. -/
def txPkt (n : Nat) : TxPkt := ⟨n, 4, [], [1], 0, 0, 10000, 0, none, none, 0⟩
def ackPay (cum sack : Nat) : List Byte := beBytes 4 cum ++ leBytes 32 sack ++ beBytes 4 200 ++ List.replicate 8 0
def ackConn : Conn := { aConn with unacked := [txPkt 68, txPkt 69] }
theorem test_smt_ack : LaterControl (aPkt aConn 5 10 0 0 0 0 2 (ackPay 69 0)) ackConn ∧
    after (exec (.smtAckRx (aPkt aConn 5 10 0 0 0 0 2 (ackPay 69 0)) 10) (st (smtDev ackConn))) (fun d =>
      ((tget d.smt.conns 6).map fun k => (k.unacked.map (·.psn), k.limit, k.ctlRx)) = some ([69], 200, 10)) = true := by unfold LaterControl; decide +kernel
theorem test_smt_ack_gap : after (exec (.smtAckRx (aPkt aConn 5 10 0 0 0 0 2 (ackPay 68 14)) 10) (st (smtDev { aConn with unacked := [txPkt 68] }))) (fun d =>
      d.smt.retx = 1 ∧ ((tget d.smt.conns 6).map fun k => k.unacked.map fun x => (x.retries, x.rto)) = some [(1, 20000)]) = true := by decide +kernel
theorem test_smt_cred : after (exec (.smtCredRx (aPkt aConn 6 10 0 0 0 0 2 [0, 0, 1, 0]) 10) (st (smtDev aConn))) (fun d => ((tget d.smt.conns 6).map (·.limit)) = some 256) = true := by
  decide +kernel
theorem test_smt_keep : after (exec (.smtKeepRx (aPkt aConn 7 10 0 0 0 0 2 []) 10) (st (smtDev aConn))) (fun d => d.io.out.length = 1 ∧ ((tget d.smt.conns 6).map (·.lastRx)) = some 10) = true := by
  decide +kernel

/-- Obligations.SmiastForgedPacketsChangeNothing. -/
theorem test_smt_forged : after (exec (.smtBell (badTag (aPkt aConn 1 40 0 0 0 0 0 (bellPay 1 15))) 10) (st (smtDev aConn))) (fun d => d.smt.dropAuth = 1 ∧ d.smt.conns = [(6, aConn)]) = true ∧
    after (exec (.smtKeepRx (badTag (aPkt aConn 7 10 0 0 0 0 2 [])) 10) (st (smtDev aConn))) (fun d => d.smt.dropAuth = 1 ∧ d.smt.conns = [(6, aConn)]) = true := by decide +kernel
theorem test_smt_frame_drop : after (exec (.smtFrameDrop 8 none 10) (st (smtDev aConn))) (fun d => d.smt.dropOther = 1) = true ∧
    after (exec (.smtFrameDrop 8 (some { aPkt aConn 2 40 0 0 0 0 0 [] with bytes := [18, 0, 0, 0, 9, 9, 9, 9] }) 10) (st (smtDev aConn))) (fun d => d.smt.dropOther = 1) = true ∧
    after (exec (.smtFrameDrop 8 (some (aPkt aConn 9 10 0 0 0 0 2 [])) 10) (st (smtDev aConn))) (fun d => d.smt.dropOther = 1 ∧ d.smt.dropAuth = 0) = true := by decide +kernel

/-- Obligations.SmiastRetransmissionAndFailure: one packet late, one not; at the limit; silence. -/
theorem test_smt_rto : after (exec (.smtRtoExpiry 6 10000) (st (smtDev { aConn with unacked := [txPkt 68, { txPkt 69 with timerFrom := 5 }] }))) (fun d =>
      d.smt.retx = 1 ∧ ((tget d.smt.conns 6).map fun k => k.unacked.map fun x => (x.rto, x.timerFrom)) = some [(20000, 10000), (10000, 5)]) = true := by decide +kernel
theorem test_smt_rto_limit : retryMax (smtDev aConn) ≤ 15 ∧ after (exec (.smtRtoExpiry 6 10000) (st (smtDev { aConn with unacked := [{ txPkt 68 with retries := 15 }] }))) (fun d =>
      ((tget d.smt.conns 6).map fun k => (k.st, k.reason)) = some (.failed, 1)) = true := by decide +kernel
theorem test_smt_dead : fld (rd (smtDev aConn) 0x2000C) 16 8 ≠ 0 ∧ after (exec (.smtDeadTimer 6 300000000000) (st (smtDev aConn))) (fun d =>
      ((tget d.smt.conns 6).map fun k => (k.st, k.reason)) = some (.failed, 2)) = true := by decide +kernel

/-- Obligations.SmiastTimersComplete. -/
theorem test_smt_ack_delay : after (exec (.smtAckDelayTimer 6 1000000) (st (smtDev { aConn with ackFrom := some 5, ackDue := 1 }))) (fun d => d.io.out.length = 1 ∧
    ((tget d.smt.conns 6).map (·.ackDue)) = some 0) = true := by decide +kernel
theorem test_smt_keep_idle : after (exec (.smtKeepIdle 6 70000000000) (st (smtDev aConn))) (fun d => d.io.out.length = 1 ∧ ((tget d.smt.conns 6).map (·.ctlTx)) = some 1) = true := by decide +kernel
theorem test_smt_ecn_hold : after (exec (.smtEcnHold 6 1000000) (st (smtDev aConn))) (fun d => ((tget d.smt.conns 6).map (·.window)) = some 17) = true ∧
    after (exec (.smtEcnHold 6 1000000) (st (smtDev { aConn with ceAt := some 3 }))) (fun d => ((tget d.smt.conns 6).map (·.window)) = some 16) = true := by decide +kernel
theorem test_smt_drain : after (exec (.smtKeyDrainTimer 6 2000001) (st (smtDev { aConn with kgen := 1, prevKey := some (4, 1), unacked := [txPkt 68] }))) (fun d =>
      ((tget d.smt.conns 6).map fun k => (k.prevKey, k.unacked.map (·.kgen), k.sealedTx)) = some (none, [1], 1)) = true := by decide +kernel
theorem test_smt_close_timer : after (exec (.smtCloseTimer 6 10) (st (smtDev { aConn with st := .closing }))) (fun d => ((tget d.smt.conns 6).map (·.st)) = some .shut ∧
    d.sil.inboxMain = [⟨.smtClose, [6]⟩]) = true := by decide +kernel

/-- Obligations.ConnectionCommandsComplete: the owner's mailbox; a block of one region. The key that protects keys is not Lean's to compute. -/
def connBlk : List Byte := beBytes 16 0xFFFF0A000002 ++ leBytes 2 7190 ++ [8, 0, 0, 1, 2, 0, 0, 0, 0, 1] ++ leBytes 4 65535 ++ List.replicate 32 0 ++ leBytes 8 0x40 ++ leBytes 4 4096 ++ leBytes 4 9
def cxDev (opc a0 a1 : Nat) (k : Conn) : Dev := { smtDev k with
  maps := (tenDev 0).maps, sec := { rngReady := true }, bpm := (tenDev 0).bpm
  qm := { (smtDev k).qm with sqs := [(0, { admin := true, bind := .fn 0 })], cqs := [], cmds := [(7, { desc := desc opc 1 0 0 0 a0 a1 0 0 0 })] } }
theorem find_zero (p : Nat → Bool) (n : Nat) (h : 0 < n) (hp : p 0 = true) : (List.range n).find? p = some 0 := by
  obtain ⟨m, rfl⟩ : ∃ m, n = m + 1 := ⟨n - 1, by omega⟩
  simp [List.range_succ_eq_map, hp]
theorem test_conn_create : blockReady (cxDev 0x8A 0 0 aConn) 7 320 = true ∧ cbRange (padTo 320 connBlk) = none ∧ cbFault (cxDev 0x8A 0 0 aConn) (padTo 320 connBlk) = none ∧ hasSmt (cxDev 0x8A 0 0 aConn) = true ∧
    ifPresent (cxDev 0x8A 0 0 aConn) 8 = true ∧ ((cxDev 0x8A 0 0 aConn).smt.conns.filter fun e => decide (e.2.tenant = 0)).length <
      (((tget (cxDev 0x8A 0 0 aConn).maps.tenants 0).map (·.grants.conns)).getD 0) := by decide +kernel
theorem test_conn_free : freeConn (cxDev 0x8A 0 0 aConn) = some 0 := find_zero _ _ (by decide +kernel) (by decide +kernel)
theorem test_conn_delete : after (exec (.connDelete 7) (st (cxDev 0x8B 6 0 { aConn with st := .shut }))) (fun d => d.smt.conns = [] ∧ d.smt.gens = [(6, 1)] ∧
      ((tget d.qm.cmds 7).map (·.status)) = some .ok) = true ∧
    after (exec (.connDelete 7) (st (cxDev 0x8B 6 0 aConn))) (fun d => ((tget d.smt.conns 6).bind (·.deleting)) = some 7) = true := by decide +kernel
theorem test_conn_key : blockReady (cxDev 0x8C 6 1 aConn) 7 40 = true ∧ AdminTurn (st (cxDev 0x8C 6 1 aConn)) 7 0x8C { desc := desc 0x8C 1 0 0 0 6 1 0 0 0 } ∧ (readBlk (cxDev 0x8C 6 1 aConn) { desc := desc 0x8C 1 0 0 0 6 1 0 0 0 } 40 [] = .got (padTo 40 [])) ∧
    connNamed (cxDev 0x8C 6 1 aConn) 6 = some (6, aConn) := by unfold AdminTurn Outstanding; decide +kernel

/-- Obligations.InterfaceFramesComplete. -/
theorem test_arp : rxOk (smtDev aConn) 8 = true ∧ vlanOk (smtDev aConn) 8 none = true ∧ after (exec (.smtArpRequest 8 ⟨0x112233445566, none⟩ 0x0A000002 0x0A000001 10) (st (smtDev aConn))) (fun d => d.io.out.length = 1) = true := by decide +kernel
theorem test_neighbor : after (exec (.smtNeighborSolicit 8 ⟨0x112233445566, none⟩ 1 2 10) (st { smtDev aConn with smt := { links := [(8, 4)], ipv6 := [(8, 2)] } })) (fun d => d.io.out.length = 1) = true := by
  decide +kernel
theorem test_icmp : after (exec (.smtIcmpEcho 8 ⟨1, none⟩ 0xFFFF0A000002 0xFFFF0A000001 [8] 10) (st (smtDev aConn))) (fun d => d.io.out.length = 1 ∧ d.smt.echoes = [(8, [10])]) = true := by decide +kernel
theorem test_eth_link : after (exec (.ethLinkStateChange 8 0) (st (smtDev aConn))) (fun d => d.smt.links = []) = true ∧
    after (exec (.ethLinkStateChange 8 2) (st (smtDev aConn))) (fun d => d.smt.links = [(8, 4)]) = true ∧
    after (exec (.ethLinkStateChange 8 2) (st { smtDev aConn with rf := { regs := [(0x20024, 2)] } })) (fun d => d.smt.links = [(8, 2)]) = true := by decide +kernel
theorem test_ipv6 : after (exec (.smtIfIpv6LastWrite .bar0 8 7) (st (smtDev aConn))) (fun d => d.smt.ipv6 = [(8, 7)]) = true ∧
    after (exec (.smtIfIpv6LastWrite .bar0 8 7) (st { smtDev aConn with rf := { lock := true } })) (fun d => d.smt.ipv6 = []) = true := by decide +kernel

/-! ### PCIe ports -/

/-- Rings 0 (the owner's, function 0) and 4 (function 3), a command of each; three VFs on link 0. -/
def pcxDev : Dev := { upDev with
  pcx := { links := [(0, { numVfs := 3, rate := 5, width := 16 })], master := [0, 1, 2, 3] }
  qm := {
    sqs := [(0, { admin := true, bind := .fn 0, log2 := 4, tail := 3, head := 2 }), (4, { tenant := some 0, bind := .fn 3, log2 := 4, cq := 4, tail := 1 })]
    cqs := [(0, { bind := .fn 0, log2 := 4, count := 5, widx := 15, reserved := 2 }), (4, { tenant := some 0, bind := .fn 3, log2 := 4, reserved := 1 })]
    cmds := [(6, { sq := 4, desc := 1, past := true }), (7, { sq := 4, desc := 1 }), (8, { sq := 0, desc := 1 })], nextCmd := 9, adminOn := true } }

/-- Obligations.FunctionLevelResetHaltsTheRings. -/
theorem test_flr : linkKey pcxDev 3 = some 0 ∧ vfEnabled pcxDev 0 3 = true ∧ after (exec (.pcxFlr 3) (st pcxDev)) (fun d => ((tget d.qm.sqs 4).map (·.halted)) = some true ∧
    ((tget d.qm.sqs 0).map (·.halted)) = some false ∧ d.qm.cmds.map (fun e => (e.1, e.2.discard)) = [(6, true), (8, false)] ∧ d.pcx.master = [0, 1, 2] ∧
    (tgetD d.pcx.links 0 {}).flrLast = 3) = true := by decide +kernel
/-- A VF beyond NumVFs is no function: nothing happens. -/
theorem test_flr_no_function : after (exec (.pcxFlr 4) (st pcxDev)) (fun d => d = pcxDev) = true := by decide +kernel

/-- Obligations.OwnerFunctionResetRewindsItsRing. -/
theorem test_owner_flr : isOwnerFn pcxDev 0 = true ∧ after (exec .pcxOwnerFlr (st pcxDev)) (fun d => ((tget d.qm.sqs 0).map fun r => (r.head, r.tail)) = some (0, 0) ∧
    ((tget d.qm.cqs 0).map fun q => (q.widx, q.phase, q.count, q.reserved)) = some (0, true, 5, 0) ∧ d.qm.adminAwait) = true := by decide +kernel

/-- Obligations.LinkResetsClearTheLink. -/
theorem test_vf_disable : after (exec (.pcxVfDisable 0) (st pcxDev)) (fun d => (tgetD d.pcx.links 0 {}).numVfs = 0 ∧ d.pcx.master = [0] ∧
    ((tget d.qm.sqs 4).map (·.halted)) = some true) = true := by decide +kernel
theorem test_link_resets : linkPf pcxDev 0 = some 0 ∧ after (exec (.pcxPerst 0) (st pcxDev)) (fun d => tgetD d.pcx.links 0 {} = { pend := true }) = true ∧
    after (exec (.pcxHotReset 0) (st pcxDev)) (fun d => tgetD d.pcx.links 0 {} = { pend := true, flrCount := 1 }) = true ∧
    after (exec (.pcxDlDown 0) (st pcxDev)) (fun d => tgetD d.pcx.links 0 {} = { pend := true, flrCount := 1 }) = true := by decide +kernel

/-- Obligations.PcieEventsComplete. -/
theorem test_dma_ring : canFetch pcxDev 4 = true ∧ after (exec (.pcxDmaError 3 .unsupported ⟨some 4, none⟩) (st pcxDev)) (fun d => ((tget d.qm.sqs 4).map (·.fault)) = some true ∧
    d.sil.inboxMain = [⟨.pcxRingFault, [4, 0, 3]⟩] ∧ (tgetD d.pcx.links 0 {}).dmaErr = 1) = true := by decide +kernel
theorem test_dma_cmd : after (exec (.pcxDmaError 3 .unsupported ⟨none, some 7⟩) (st pcxDev)) (fun d => ((tget d.qm.cmds 7).map fun c => (c.status, c.field)) = some (.invalidField, 0xFE) ∧
    (tgetD d.pcx.links 0 {}).dmaErr = 1) = true := by decide +kernel
theorem test_link_trained : pcxHeld pcxDev 0 = false ∧ after (exec (.pcxLinkTrained 0 6 16) (st pcxDev)) (fun d => (tgetD d.pcx.links 0 {}).rate = 6 ∧ (tgetD d.pcx.links 0 {}).retrains = 1 ∧
      d.sil.inboxMain = []) = true ∧
    after (exec (.pcxLinkTrained 0 3 8) (st pcxDev)) (fun d => (tgetD d.pcx.links 0 {}).degraded ∧ d.sil.inboxMain = [⟨.pcxDegraded, [0, 0, 3, 8]⟩]) = true := by decide +kernel
theorem test_bus_master : after (exec (.pcxBusMasterEnable 3) (st { pcxDev with pcx := { pcxDev.pcx with master := [0, 1] } })) (fun d => d.pcx.master = [0, 1, 3]) = true := by decide +kernel

/-! ### Power and clocks -/

/-- The part at a level, with a thermal ceiling. -/
def plDev (pl ceil : Nat) : Dev := { upDev with pwr := { upDev.pwr with pl := pl, cdiv := divisorOf false pl, vddc := nominalMv pl }, thm := { ceil := ceil } }
/-- The part with an armed rescue row. -/
def armDev : Dev := { upDev with maps := { rows := [(2, { zRow with kind := 2, role := 2, slc := true })] } }

/-- Obligations.PerformanceLevelsComplete: down, up, and at the ceiling. -/
theorem test_pl_change : after (exec (.plCeilingChange 5) (st (plDev 5 2))) (fun d => d.pwr.pl = 2 ∧ d.pwr.cdiv = 8 ∧ d.io.out = [.pmbus 0x43 0x21 650]) = true ∧
    after (exec (.plCeilingChange 5) (st (plDev 2 5))) (fun d => d.pwr.pl = 2 ∧ d.pwr.move = some ⟨5, true⟩ ∧ d.io.out = [.pmbus 0x43 0x21 750]) = true ∧
    after (exec (.plCeilingChange 5) (st (plDev 5 5))) (fun d => d.pwr.move = none ∧ d.io.out = []) = true ∧
    after (exec (.plCeilingChange 5) (st { plDev 5 2 with pwr := { (plDev 5 2).pwr with klinkUp := false } })) (fun d => d.pwr.pl = 2 ∧ d.io.out = [] ∧ d.pwr.voutHeld = some 650) = true := by decide +kernel
theorem test_pl_move : after (exec (.plMoveDone 5) (st { plDev 2 5 with pwr := { (plDev 2 5).pwr with move := some ⟨5, true⟩ } })) (fun d => d.pwr.pl = 5 ∧ d.pwr.cdiv = 4 ∧ d.pwr.vddc = 750 ∧
    d.pwr.move = none) = true := by decide +kernel
theorem test_pl6_mode : after (exec (.pl6ModeCheck 40 5) (st (plDev 6 6))) (fun d => d.pwr.cdiv = 3 ∧ d.sil.inboxMain = [⟨.pl6Mode, [3, 40]⟩]) = true ∧
    after (exec (.pl6ModeCheck 39 5) (st (plDev 6 6))) (fun d => d.pwr.cdiv = 4 ∧ d.sil.inboxMain = []) = true := by decide +kernel
theorem test_vddc_adapt : after (exec (.vddcAdapt 51 5) (st (plDev 5 5))) (fun d => d.pwr.vddc = 745) = true ∧ after (exec (.vddcAdapt 51 5) (st (plDev 0 5))) (fun d => d.pwr.vddc = 600) = true ∧
    after (exec (.vddcAdapt 29 5) (st (plDev 5 5))) (fun d => d.pwr.vddc = 750) = true ∧ after (exec (.vddcAdapt 50 5) (st (plDev 5 5))) (fun d => d.pwr.vddc = 750) = true := by decide +kernel
theorem test_arb_loss : after (exec (.pmbusArbLoss 1 3 5) (st { plDev 5 5 with mgt := { arbRun := 7 } })) (fun d => d.mgt.arbPmbus = 1 ∧ d.sil.inbox = [(⟨.arbLoss, [1, 3, 8]⟩, false)]) = true ∧
    after (exec (.pmbusArbLoss 0 3 5) (st { plDev 5 5 with mgt := { msg := some ⟨0, [], 0, 0⟩ } })) (fun d => d.mgt.arbMgmt = 1) = true := by decide +kernel

/-- Obligations.SleepStatesComplete. -/
theorem test_s1_idle : idle upDev = true ∧ bit (rd upDev 0x9000C) 12 = true ∧ after (exec (.s1IdleTimer 10000000) (st upDev)) (fun d => d.pwr.sleep = .s1Entering) = true := by decide +kernel
def s2Dev (sl : Sleep) : Dev := { upDev with
  rf := { regs := [(0x90008, 2)] }, hl := { links := [(0, { st := lsP1 }), (1, { st := lsP2 })] }, smt := { links := [(0, 4)] }, pwr := { upDev.pwr with sleep := sl } }
theorem test_s2_idle : after (exec (.s2IdleTimer 10000000) (st (s2Dev .s0))) (fun d => d.pwr.sleep = .entering) = true ∧ after (exec (.s2IdleTimer 9999999) (st (s2Dev .s0))) (fun d => d.pwr.sleep = .s0) = true := by
  decide +kernel
theorem test_sleep_entry : mainUp (s2Dev .entering) = true ∧ (s2Dev .entering).pwr.sleep = .entering ∧ (linkAt (s2Dev .entering) 0).st = lsP1 ∧ 0 < 8 * linkGroups (s2Dev .entering) ∧
    after (exec (.sleepEntryDone .part 10) (st (s2Dev .s1Entering))) (fun d => d.pwr.sleep = .s1) = true := by decide +kernel
theorem test_sleep_exit : mainUp (s2Dev .leaving) = true ∧ (s2Dev .leaving).pwr.unwinding = false ∧ (linkAt (s2Dev .leaving) 1).st = lsP2 ∧
    after (exec (.sleepExitDone .part 10) (st (s2Dev .s1Leaving))) (fun d => d.pwr.sleep = .s0 ∧ d.pwr.activeAt = 10) = true := by decide +kernel
theorem test_sleep_request : reachable upDev .bar0 0x90008 = true ∧ after (exec (.pwrSleepS2 .bar0 10) (st upDev)) (fun d => d.rf.regs = [(0x90008, 2)]) = true ∧
    after (exec (.pwrSleepS3 .bar0 10) (st upDev)) (fun d => d.kpr.shutdown ∧ d.kpr.s3) = true := by decide +kernel
theorem test_pad_release : reachable upDev .bar0 0x90018 = true ∧ inS2 upDev = false ∧ after (exec (.pwrPadRelease .bar0) (st upDev)) (fun d => d.pwr.gpioLatched = false) = true := by decide +kernel

/-- Obligations.ParkingComplete: link group 0 with its links in P1; an idle Ethernet port; PCIe port 1. -/
def parkDev (run : List ParkRun) : Dev := { upDev with
  hl := { links := (List.range 8).map fun i => (i, { st := lsP1 }), groupIdle := [(0, 0)] }, pwr := { upDev.pwr with parking := run } }
theorem test_lg_park : after (exec (.lgParkTimer 0 50000000) (st (parkDev []))) (fun d => d.pwr.parking = [⟨.lg 0, false, 50000000, false, false⟩]) = true := by decide +kernel
theorem test_port_parks : after (exec (.ethParkTimer 2 50000000) (st upDev)) (fun d => d.pwr.parking = [⟨.eth 2, false, 50000000, false, false⟩]) = true ∧
    after (exec (.pcxParkTimer 1 50000000) (st upDev)) (fun d => d.pwr.parking = [⟨.pcx 1, false, 50000000, false, false⟩]) = true := by decide +kernel
theorem test_park_entered : after (exec (.sleepEntryDone (.lg 0) 10) (st (parkDev [⟨.lg 0, false, 5, false, false⟩]))) (fun d => d.pwr.lgParked = [0] ∧ (linkAt d 7).st = lsP2) = true ∧
    after (exec (.sleepEntryDone (.eth 2) 10) (st (parkDev [⟨.eth 2, false, 5, false, false⟩]))) (fun d => d.pwr.ethParked = [2] ∧ d.pwr.parking = []) = true ∧
    after (exec (.sleepExitDone (.pcx 1) 10) (st (parkDev [⟨.pcx 1, true, 5, false, false⟩]))) (fun d => d.pwr.parking = []) = true := by decide +kernel

/-- Obligations.ClocksAndKeeperLinkComplete. -/
theorem test_clk_loss : listArmed { armDev with clo := { armDev.clo with armed := true } } = true ∧ after (exec (.clkLoss true 9) (st armDev)) (fun d =>
    d.kpr.state = 3 ∧ d.kpr.flush = some (3, 9) ∧ d.sil.inboxMain = [⟨.clkLoss, [1]⟩]) = true := by decide +kernel
theorem test_xtal_lost : after (exec (.xtalLost 9) (st upDev)) (fun d => d.thm.xtalLost ∧ d.sil.inbox = [(⟨.xtalLost, []⟩, false)]) = true := by decide +kernel
theorem test_rc_trim : after (exec (.rcTrim (-5) true 9) (st upDev)) (fun d => d.thm.trimTemp = -5 ∧ d.thm.xtalOk) = true := by decide +kernel
theorem test_klink_resync : after (exec (.klinkResync false 3 9) (st upDev)) (fun d => d.pwr.klinkUp = false ∧ d.pwr.klinkResync = 1 ∧ d.pwr.klinkCrc = 3) = true ∧
    after (exec (.klinkResync true 0 9) (st { armDev with kpr := { armDev.kpr with pf := true }, pwr := { armDev.pwr with klinkUp := false } })) (fun d =>
      d.pwr.klinkUp ∧ d.kpr.flush = some (0, 9)) = true ∧
    after (exec (.klinkResync true 0 9) (st { upDev with kpr := { upDev.kpr with state := 1 }, pwr := { upDev.pwr with klinkUp := false, voutHeld := some 650 } })) (fun d =>
      d.pwr.klinkUp ∧ d.pwr.voutHeld = none ∧ d.io.out = [.pmbus 0x43 0x21 650]) = true := by decide +kernel
theorem test_klink_pf : after (exec (.klinkPfTimeout 1000009) (st { armDev with kpr := { armDev.kpr with pf := true }, pwr := { armDev.pwr with klinkUp := false, klinkDownAt := some 9 } })) (fun d =>
      d.kpr.state = 0 ∧ d.kpr.restart = some 1 ∧ d.pwr.aon = false) = true ∧
    after (exec (.klinkPfTimeout 1000003) (st { armDev with thm := { tripAt := some 3 }, pwr := { armDev.pwr with klinkUp := false } })) (fun d =>
      d.kpr.state = 5 ∧ d.thm.restartFrom = some 1000003) = true := by decide +kernel

/-! ### Power loss, the bank, stops -/

def railDev : Dev := { armDev with kpr := { armDev.kpr with ken := [0, 1, 2], kpg := [0, 1, 2] }, clo := { armDev.clo with ceil := 0 } }
def failing (mv : Nat) (d : Dev) : Dev := { d with kpr := { d.kpr with vinMv := mv, filterAt := some 100 } }

/-- Obligations.PowerFailFlushes. -/
theorem test_vin_drop : pfThresh railDev = 9000 ∧ after (exec (.vinDrop 8999 7) (st railDev)) (fun d => d.kpr.filterAt = some 7) = true ∧
    after (exec (.vinDrop 9000 7) (st railDev)) (fun d => d.kpr.filterAt = none) = true ∧
    after (exec (.vinDrop 0 7) (st { railDev with kpr := { railDev.kpr with state := 1, fet := true } })) (fun d => d.kpr.state = 0 ∧ d.kpr.ken = []) = true := by decide +kernel
theorem test_vin_glitch : after (exec (.vinGlitch 9000 101) (st (failing 8999 railDev))) (fun d => d.kpr.glitch = 1 ∧ d.kpr.filterAt = none) = true := by decide +kernel
theorem test_power_fail : after (exec (.powerFail 20100) (st (failing 8999 railDev))) (fun d => d.kpr.pf ∧ d.kpr.state = 3 ∧ d.kpr.flush = some (0, 20100) ∧
      d.sil.inbox = [(⟨.powerFail, [8999, 0]⟩, false)]) = true ∧
    after (exec (.powerFail 20100) (st (failing 8999 { railDev with clo := { phase := 7, ready := true } }))) (fun d => d.kpr.state = 4 ∧ d.kpr.restart = some 1 ∧ d.kpr.ken = [0, 1]) = true := by
  decide +kernel
theorem test_flush_done : after (exec (.flushDone none 20000) (st { railDev with kpr := { railDev.kpr with state := 3, flush := some (4, 0) } })) (fun d => d.kpr.state = 4 ∧ d.kpr.restart = some 6 ∧
    d.kpr.lastDuration = 2 ∧ d.jnl.rescue.finalSeal) = true := by decide +kernel
theorem test_vin_return : vinBack railDev 12000 = true ∧ after (exec (.vinReturn 12000 200000000) (st { railDev with kpr := { railDev.kpr with state := 0, restart := some 1, pf := true }, rf := { lock := true } }))
    (fun d => d.kpr.state = 1 ∧ d.kpr.pwrcyc = 2 ∧ d.rf.lock = false) = true ∧
    after (exec (.vinReturn 12000 200000000) (st { railDev with kpr := { railDev.kpr with state := 5 } })) (fun d => d.kpr.fet) = true := by decide +kernel
theorem test_watchdog : after (exec (.keeperWdogExpiry 70000000000) (st railDev)) (fun d => d.kpr.flush = some (3, 70000000000)) = true ∧
    after (exec (.heartbeat 9) (st railDev)) (fun d => d.kpr.lastBeat = 9) = true := by decide +kernel

/-- Obligations.ShutdownAndCheckpointComplete. -/
theorem test_warm : reachable railDev .bar0 0x100008 = true ∧ after (exec (.kprCtrlWarm .bar0 9) (st railDev)) (fun d => d.kpr.flush = some (4, 9)) = true ∧
    (let d := { railDev with id := { ownerMgt := true }, kpr := { railDev.kpr with state := 5, s3 := true } }; reachable d .mgmt 0x100008 = true ∧
      after (exec (.kprCtrlWarm .mgmt 9) (st d)) (fun d => d.kpr.state = 1 ∧ d.kpr.restart = some 2 ∧ d.kpr.ken = [0]) = true) := by decide +kernel
theorem test_shutdown : after (exec (.kprCtrlShutdown .bar0 9) (st railDev)) (fun d => d.kpr.shutdown) = true ∧
    after (exec (.cleanShutdownDone 9) (st { railDev with kpr := { railDev.kpr with shutdown := true } })) (fun d => d.kpr.state = 4 ∧ d.kpr.restart = none ∧
      (d.jnl.ckpt0.map (·.image)) = some railDev.maps ∧ d.jnl.rescue.unarmed) = true := by decide +kernel
def tailDev : Dev := { railDev with jnl := { seq := 4, tail := [(3, .key 0 0)], tailAt := some 5 } }
theorem test_jnl_page : after (exec (.jnlPageTimer ⟨[], 100005⟩) (st tailDev)) (fun d => d.jnl.prog = [(3, .key 0 0)] ∧ d.jnl.tail = []) = true := by decide +kernel
/-- Six pairs of journal rows hold 3 GiB in each copy. -/
def areaDev : Dev := { tailDev with maps := { rows := (List.range 12).map fun i => (i, { zRow with kind := 2, slc := true, pos := [] }) } }
theorem test_jnl_area : journalMib areaDev = 3072 ∧ after (exec (.jnlPageTimer ⟨[], 100005⟩) (st areaDev)) (fun d => d.jnl.tail = [] ∧ d.jnl.seq = 4 ∧ d.jnl.pages = [3]) = true := by decide +kernel
theorem test_checkpoint : ckptDue 9 tailDev = true ∧ after (exec (.checkpointTimer 9) (st tailDev)) (fun d => (d.jnl.writing.map fun w => (w.set, w.begin)) = some (0, 4) ∧ d.jnl.seq = 5) = true ∧
    after (exec (.checkpointDone ⟨[], 9⟩) (st { tailDev with jnl := { tailDev.jnl with writing := some ⟨1, 3, 2, 0⟩ } })) (fun d => (d.jnl.ckpt1.map (·.num)) = some 3 ∧ d.jnl.ckpt0 = none ∧ d.jnl.writing = none) = true := by
  decide +kernel

/-- Obligations.HoldupBankComplete. -/
theorem test_ceiling : after (exec (.ceilingRecompute 9) (st railDev)) (fun d => d.clo.ceilDue = 100009 ∧ d.clo.ceil = 0 ∧ d.clo.fallback) = true := by decide +kernel
def shortClo : Clo := { shortSince := some 0, ackPos := 1, buf := [(0, { plot := 5, lba := 0, pay := 0, spilled := false })] }
theorem test_holdup_short : after (exec (.holdupShortTimer 100000001) (st { railDev with clo := shortClo })) (fun d => d.clo.shortSince = some 1000000001 ∧ d.sil.inboxMain.length = 1) = true := by
  decide +kernel
def bankDev (st : Nat) : Dev := { railDev with hld := { calSt := st, vhold := 36000, first := true }, kpr := { railDev.kpr with vinOkSince := some 0 } }
theorem test_cal_start : calBlock 1000000000 (bankDev 0) = 0 ∧ calBlock 999999999 (bankDev 0) = 2 ∧ reachable (bankDev 0) .bar0 0x101004 = true ∧
    after (exec (.hldCtrlCal .bar0 1000000000) (st (bankDev 0))) (fun d => d.hld.calSt = 2 ∧ d.hld.soft) = true ∧
    after (exec (.hldCtrlCal .bar0 0) (st (bankDev 0))) (fun d => d.hld.result = 2 ∧ d.hld.reason = 2) = true ∧
    after (exec (.hldCalSchedule 1000000000) (st (bankDev 0))) (fun d => d.hld.calSt = 2 ∧ d.hld.soft = false) = true ∧
    after (exec (.hldCalSchedule 0) (st (bankDev 0))) (fun d => d.hld.calSt = 1) = true := by decide +kernel
theorem test_cal_done : after (exec (.hldCalDone (60000000, 10000000) (99990, 99990) 5) (st (bankDev 2))) (fun d => d.hld.valid ∧ d.hld.cap = 100) = true ∧
    after (exec (.hldCalDone (60000000, 10000000) (100000, 100000) 5) (st (bankDev 2))) (fun d => d.hld.result = 3 ∧ d.hld.reason = 6) = true ∧
    after (exec (.hldCalDone (60500000, 10000000) (99990, 99990) 5) (st (bankDev 2))) (fun d => d.hld.result = 3 ∧ d.hld.reason = 6) = true ∧
    after (exec (.hldCalAbort true 5) (st (bankDev 2))) (fun d => d.hld.calSt = 0 ∧ d.hld.reason = 5) = true := by decide +kernel
theorem test_bleed : after (exec (.hldCtrlBleedSet .bar0 5) (st (bankDev 0))) (fun d => d.hld.bleeding ∧ d.hld.discharging ∧ d.clo.ceil = 0) = true ∧
    after (exec (.hldCtrlBleedClear .bar0 5) (st { bankDev 0 with hld := { bleed := true, bleeding := true } })) (fun d => d.hld.bleed = false ∧ d.hld.bleeding = false) = true ∧
    after (exec (.bleedDone 4999 5) (st { bankDev 0 with hld := { bleed := true, bleeding := true, discharging := true } })) (fun d => d.hld.safe ∧ d.hld.vhold = 4999) = true ∧
    after (exec (.leakageCheck 5) (st (bankDev 0))) (fun d => d.hld.leakDue = 5 + patrolDays (bankDev 0) * dayNs) = true := by decide +kernel
theorem test_adc : after (exec (.adcSample 3 262145 5) (st railDev)) (fun d => (d.hld.chans.map (·.code)) = [0, 0, 0, 1]) = true ∧
    after (exec (.adcSample 1 131072 5) (st { railDev with hld := { chans := [{}, { coarse := true }] } })) (fun d => d.hld.vhold = 21000) = true ∧
    (match exec (.adcSample 0 131072 5) (st { railDev with hld := { chans := [{ coarse := true }] } }) with | .fault .absoluteMaximum => true | _ => false) = true := by decide +kernel

/-! ### The power sequence and the start-up -/

/-- The power die at work, the main die off, in a state of the sequence. -/
def seqDev (state : Nat) (ken kpg : List Nat) : Dev := { kpr := { running := true, state := state, vinMv := 12000, vinOkSince := some 0, ken := ken, kpg := kpg, restart := some 0, pwrcyc := 3 } }

/-- Obligations.PowerSequenceComplete. -/
theorem test_cold_reset : after (exec (.coldReset 9000 false 5) (st {})) (fun d => d.kpr.running ∧ d.kpr.restart = some 0 ∧ d.kpr.pwrcyc = 1) = true ∧
    after (exec (.coldReset 8999 false 5) (st {})) (fun d => !d.kpr.running) = true ∧
    (match exec (.coldReset 16001 true 5) (st {}) with | .fault .absoluteMaximum => true | _ => false) = true := by decide +kernel
theorem test_vin_above : after (exec (.vinAboveRange 16000 5) (st (seqDev 1 [0] []))) (fun d => d.kpr.state = 0 ∧ d.kpr.ken = []) = true ∧
    after (exec (.vinAboveRange 14001 5) (st (seqDev 2 [0] []))) (fun d => d.kpr.state = 2 ∧ d.kpr.vinMv = 14001) = true ∧
    (match exec (.vinAboveRange 16001 5) (st (seqDev 2 [0] [])) with | .fault .absoluteMaximum => true | _ => false) = true := by decide +kernel
theorem test_sequence : after (exec (.vinStable 12000 2000000) (st (seqDev 0 [] []))) (fun d => d.kpr.state = 1) = true ∧ after (exec (.vinStable 12000 1999999) (st (seqDev 0 [] []))) (fun d => d.kpr.state = 0) = true ∧
    after (exec (.inrushDone 5) (st (seqDev 1 [] []))) (fun d => d.kpr.ken = [0] ∧ d.io.out = [.pmbus 0x43 0x21 750]) = true ∧
    after (exec (.railPowerGood 6 5) (st (seqDev 1 [0, 1, 2, 3, 4, 5, 6] [0, 1, 2, 3, 4, 5]))) (fun d => d.kpr.ken = List.range 8) = true ∧
    after (exec (.railPowerGood 7 5) (st (seqDev 1 (List.range 8) (List.range 7)))) (fun d => d.kpr.ken = List.range 8 ∧ d.kpr.kpg = List.range 8) = true ∧
    after (exec (.rootPllLock 5) (st (seqDev 1 (List.range 8) (List.range 8)))) (fun d => d.kpr.state = 2 ∧ d.clo.phase = 1 ∧ d.pwr.pllLock) = true ∧
    after (exec (.rootPllLock 5) (st { upDev with pwr := { aon := true } })) (fun d => d.pwr.pllLock) = true := by decide +kernel
theorem test_sequence_fails : after (exec (.railPgTimeout 700 3000000) (st (seqDev 1 [0, 1] [0]))) (fun d => d.kpr.state = 1 ∧ d.kpr.restartAt = some 1003000000 ∧ d.kpr.ken = [] ∧
      d.sil.inbox = [(⟨.railFault, [2, 700]⟩, false)]) = true ∧
    after (exec (.railPgTimeout 700 3000000) (st { seqDev 1 [0, 1] [0] with kpr := { (seqDev 1 [0, 1] [0]).kpr with seqFails := 2 } })) (fun d => d.kpr.state = 0 ∧ d.kpr.restartAt = none) = true ∧
    after (exec (.railSequenceRestart 12000 9) (st { seqDev 1 [] [] with kpr := { (seqDev 1 [] []).kpr with restartAt := some 9 } })) (fun d => d.kpr.ken = [0] ∧ d.kpr.restartAt = none) = true := by
  decide +kernel

/-- Obligations.RailsGoDown. -/
theorem test_rail_fault : after (exec (.railFault 1 0 9) (st railDev)) (fun d => d.kpr.state = 5 ∧ d.kpr.ken = [] ∧ d.sil.inbox = [(⟨.railFault, [2, 0]⟩, false)]) = true := by decide +kernel
theorem test_power_down : after (exec (.railPowerDownStep 9) (st (seqDev 4 [0, 1] [0, 1]))) (fun d => d.kpr.ken = [0] ∧ d.kpr.state = 4) = true ∧
    after (exec (.railPowerDownStep 9) (st (seqDev 4 [] []))) (fun d => d.kpr.state = 1 ∧ d.kpr.ken = [0]) = true ∧
    after (exec (.railPowerDownStep 9) (st { seqDev 4 [] [] with kpr := { (seqDev 4 [] []).kpr with restart := some 1, pf := true } })) (fun d => d.kpr.state = 0 ∧ !d.kpr.pf) = true := by decide +kernel
theorem test_supplies_lost : after (exec (.allSuppliesLost 9) (st { upDev with sil := { rseq := 7 } })) (fun d => !d.kpr.running ∧ d.kpr.pwrcyc = 1 ∧ d.sil.rseq = 7) = true := by decide +kernel

/-- Obligations.StartPhasesComplete: the hypotheses of each phase. -/
def phaseDev (n : Nat) : Dev := { upDev with clo := { phase := n } }
theorem test_phases : after (exec (.sramFillDone (-1) 9) (st (phaseDev 1))) (fun d => d.clo.phase = 2) = true ∧ after (exec (.sramFillDone 0 9) (st (phaseDev 1))) (fun d => d.clo.phase = 3) = true ∧
    after (exec (.warmupDone 0 9) (st (phaseDev 2))) (fun d => d.clo.phase = 3) = true ∧ after (exec (.warmupTimeout (-1) 180000000000) (st (phaseDev 2))) (fun d => d.clo.phase = 15) = true ∧
    after (exec (.hbmFillDone 9) (st (phaseDev 3))) (fun d => d.clo.phase = 4 ∧ d.ecc.hbmStat = 3) = true := by decide +kernel
def anImage (svn : Nat) : BootImage := { svn := svn, slot := 2, good := true, version := 1, gpio := 0 }
theorem test_boot : imagePasses (phaseDev 4) (anImage 0) = true ∧ (let d := { phaseDev 4 with sec := { svnFuse := 1 } }; imagePasses d (anImage 0) = false ∧
    after (exec (.bootVerifyDone (some (anImage 0)) none [] 9) (st d)) (fun d => d.clo.phase = 15 ∧ d.sil.inboxMain.length = 2) = true) := by decide +kernel
def sysRow : Row := { st := .isSealed, durable := true, kind := 2, role := 1, k := 2, mc := 1, life := 0, slc := true, profile := 0, plot := 0, bset := none, valid := 0, claimed := 0, sealHour := 0,
                       colo := 0, stream := 0, pos := [(3, 1), (67, 1)], assigned := [], since := [], filled := 0 }
def foundDev : Dev := { phaseDev 5 with alm := { dies := [(3, { included := true }), (67, { included := true })] },
                                        jnl := { formatted := true, ckpt0 := some ⟨1, 3, 0, { rows := [(0, sysRow)] }, true⟩ } }
/-- Dies whose links are down are left as they were. -/
theorem discovered_no_links (d : Dev) (h : d.hl.links = []) : discovered [] [] d = d :=
  (forAll_keeps (P := fun x => x = d) (f := discoverDie []) _ d rfl fun a _ x hx => by subst hx; simp [discoverDie, linkAt, h, tgetD, lsActive])
theorem test_discovery : atPhase (phaseDev 5) 5 = true ∧ headersFound [] (discovered [] [] (phaseDev 5)) = false := by
  rw [discovered_no_links _ rfl]; decide +kernel
theorem test_discovery_found : headersFound [3] (discovered [] [] foundDev) = true ∧ headersFound [3, 67] (discovered [] [] foundDev) = false := by
  rw [discovered_no_links _ rfl]; decide +kernel
theorem test_ignored : after (exec (.kprCtrlShutdown .mgmt 9) (st { upDev with kpr := { upDev.kpr with state := 3 } })) (fun d => d.kpr.ignored = 1 ∧ !d.kpr.shutdown) = true := by decide +kernel
def ckptDev : Dev := { phaseDev 6 with jnl := { ckpt0 := some ⟨1, 3, 0, {}, true⟩, ckpt1 := some ⟨2, 9, 0, { plots := [(5, aPlot)] }, true⟩ } }
theorem test_ckpt_load : after (exec (.checkpointLoadDone true true 9) (st ckptDev)) (fun d => d.clo.phase = 7 ∧ d.jnl.replayFrom = 9 ∧ d.maps.plots = [(5, aPlot)]) = true ∧
    after (exec (.checkpointLoadDone true false 9) (st ckptDev)) (fun d => d.jnl.replayFrom = 3 ∧ d.clo.ckptOld ∧ d.sil.inboxMain = [⟨.ckptFallback, [1]⟩]) = true ∧
    after (exec (.checkpointLoadDone false false 9) (st ckptDev)) (fun d => d.clo.phase = 15) = true := by decide +kernel
def replayDev : Dev := { phaseDev 7 with sec := { store := [(5, 1)] }, jnl := { replayFrom := 3, prog := [(2, .key 0 0), (3, .plot 5 (some aPlot) 0)], rescue := { tail := [(4, .key 0 0), (6, .key 0 0)] } } }
theorem test_replay : after (exec (.journalReplayDone none 0 [] 9) (st replayDev)) (fun d => d.clo.phase = 8 ∧ d.maps.plots = [(5, aPlot)] ∧ d.jnl.recRecords = 2 ∧ d.jnl.seq = 5) = true ∧
    after (exec (.journalReplayDone (some 4) 0 [] 9) (st replayDev)) (fun d => d.jnl.recRecords = 1 ∧ d.jnl.recTorn = 2) = true := by decide +kernel
theorem test_rescue : after (exec (.rescueIntakeDone 9) (st (phaseDev 8))) (fun d => d.clo.phase = 9 ∧ d.clo.ready ∧ d.clo.ceilDue = 9) = true := by decide +kernel

/-! ### Thermal management and ageing -/

/-- Obligations.ThermalReadingsComplete: a crossing, out of range, an orderly stop, a trip. -/
def hotDev : Dev := { railDev with qm := { cmds := [(6, { desc := 1, stage := .transfer }), (7, { desc := 1, stage := .reading })] } }
theorem test_thm_sample : sensorPresent hotDev 20 = true ∧ stale hotDev 20 = false ∧ warnLimit hotDev 20 = 950 ∧
    after (exec (.thmSample 20 950 9) (st hotDev)) (fun d => tget d.thm.temps 20 = some 950 ∧ d.thm.raised = [20] ∧ d.sil.inboxMain = [⟨.thermWarn, [20, 950]⟩]) = true ∧
    after (exec (.thmSample 20 949 9) (st hotDev)) (fun d => d.thm.raised = []) = true ∧
    after (exec (.thmSample 20 1501 9) (st hotDev)) (fun d => d.thm.failed = [20] ∧ d.thm.temps = []) = true := by decide +kernel
theorem test_thm_stop : after (exec (.thmSample 20 1050 9) (st hotDev)) (fun d => d.thm.stopping ∧ ((tget d.qm.cmds 6).map (·.status)) = some .thermalStop ∧
      ((tget d.qm.cmds 7).map (·.stage)) = some .reading) = true := by decide +kernel
theorem test_thm_trip : after (exec (.thmSample 20 1150 9) (st hotDev)) (fun d => d.thm.trips = 1 ∧ d.kpr.flush = some (1, 9)) = true := by decide +kernel
theorem test_hbm_sensor : after (exec (.hbmSensorRead 999 9) (st hotDev)) (fun d => tget d.thm.temps 48 = some 999 ∧ !d.thm.stopping) = true ∧
    after (exec (.hbmSensorRead 1000 9) (st hotDev)) (fun d => d.thm.stopping) = true := by decide +kernel
theorem test_pth : after (exec (.pthSample 3 1100 9) (st hotDev)) (fun d => tget d.thm.pth 3 = some 1100 ∧ d.sil.inbox = [(⟨.thermWarn, [0x103, 1100]⟩, false)]) = true ∧
    after (exec (.pthSample 3 (-601) 9) (st hotDev)) (fun d => d.thm.pthFailed = [3]) = true := by decide +kernel
theorem test_sensor_timeout : after (exec (.sensorTimeout 48 9) (st hotDev)) (fun d => d.thm.failed = [48]) = true ∧
    after (exec (.sensorTimeout 0x103 9) (st hotDev)) (fun d => d.thm.pthFailed = [3]) = true := by decide +kernel

/-- Obligations.CeilingsStopsAndAgeingComplete. -/
theorem test_throttle : after (exec (.throttleStep 9) (st { railDev with thm := { ceil := 3, throttleFrom := some 9 } })) (fun d => d.thm.ceil = 2 ∧ d.thm.throttleFrom = some 100000009) = true ∧
    after (exec (.throttleStep 9) (st { railDev with thm := { ceil := 3, throttleFrom := some 9, fellAt := some 0 } })) (fun d => d.thm.ceil = 3) = true := by decide +kernel
theorem test_rise : after (exec (.thermalCeilingRise 5000000000) (st { railDev with thm := { ceil := 3 } })) (fun d => d.thm.ceil = 4) = true ∧
    after (exec (.thermalCeilingRise 5000000000) (st { railDev with thm := { ceil := 7 } })) (fun d => d.thm.ceil = 7) = true := by decide +kernel
theorem test_stop_done : after (exec (.orderlyStopDone 9) (st { railDev with thm := { stopping := true } })) (fun d => d.kpr.state = 4 ∧ d.thm.restartFrom = some 9 ∧ d.jnl.rescue.finalSeal) = true := by
  decide +kernel
def offDev (stops : List Nat) : Dev := { seqDev 5 [] [] with thm := { restartFrom := some 0, stops := stops } }
theorem test_thermal_restart : restartWait (offDev []) ≤ 60 ∧ restartMax (offDev []) = 3 ∧ after (exec (.thermalRestart 60000000000) (st (offDev [1, 2]))) (fun d => d.kpr.state = 1 ∧ d.kpr.restart = some 3) = true ∧
    after (exec (.thermalRestart 60000000000) (st (offDev [1, 2, 3]))) (fun d => d.thm.lockout ∧ d.kpr.state = 5 ∧ d.sil.inbox = [(⟨.thermLockout, [3]⟩, false)]) = true := by decide +kernel
theorem test_power_sample : after (exec (.powerSample [100000] 5 300001 50 9) (st railDev)) (fun d => d.thm.elec = 6 ∧ d.thm.pw = [(9, 100000)] ∧ d.thm.vinMw = 5) = true ∧
    after (exec (.powerSample [100000] 5 300000 50 9) (st railDev)) (fun d => d.thm.elec = 7) = true := by decide +kernel
theorem test_age_hour : mainUp (plDev 5 7) = true ∧ bandOf 199 = 0 ∧ bandOf 200 = 1 ∧ bandOf 1700 = 15 := by decide +kernel
theorem test_bank_reset : reachable railDev .bar0 0xA1024 = true ∧ after (exec (.ageBankReset .bar0) (st { railDev with age := { bank := [(3, 900)] } })) (fun d => d.age.bank = []) = true := by decide +kernel

/-! ### Security -/

/-- The base point of P-384 (the standard that R412 names), staged as the key-agreement and as the signing key. -/
def genKey : Nat := ecGx * 2 ^ 384 + ecGy
def keyRegs (base k : Nat) : Tbl Word := (List.range 24).map fun i => (base + 4 * i, BitVec.ofNat 32 (k / 2 ^ (32 * (23 - i))))
def secDev (s : Sec) : Dev := { upDev with rf := { regs := keyRegs 0x80100 genKey ++ keyRegs 0x80180 genKey }, sec := s }
def someKey : BitVec 768 := BitVec.ofNat 768 genKey
theorem test_key_on_curve : (stagedKa (secDev {})).toNat = genKey ∧ keyOnCurve (stagedKa (secDev {})) = true ∧ keyOnCurve (stagedSig upDev) = false := by decide +kernel

/-- Obligations.KeysAndLevelsComplete. -/
theorem test_rng : mainUp upDev = true ∧ 4 ≤ upDev.clo.phase ∧ upDev.sec.rngFailed = false ∧ after (exec .rngReady (st upDev)) (fun d => d.sec.rngReady) = true ∧
    after (exec (.rngHealthFail 9) (st (secDev { rngFailAt := [1, 2] }))) (fun d => d.sec.rngFailed ∧ d.sec.rngFails = 1) = true ∧
    after (exec (.rngHealthFail 1000000001) (st (secDev { rngFailAt := [1, 2] }))) (fun d => !d.sec.rngFailed) = true := by decide +kernel
theorem test_commit_key : reachable (secDev {}) .bar0 0x801E0 = true ∧ after (exec (.commitKa .bar0) (st (secDev {}))) (fun d => d.sec.ka = some someKey ∧ d.sec.ownResult = 1) = true ∧
    after (exec (.commitSig .bar0) (st (secDev { sl1 := true, sig := some 0 }))) (fun d => d.sec.sig = some 0 ∧ d.sec.ownResult = 3) = true ∧
    after (exec (.commitSig .bar0) (st upDev)) (fun d => d.sec.sig = none ∧ d.sec.ownResult = 2) = true := by decide +kernel
theorem test_raise : after (exec (.raise1 .bar0 0x10000) (st (secDev { sig := some 0 }))) (fun d => secLevel d = 1) = true ∧ after (exec (.raise1 .bar0 0x10000) (st (secDev {}))) (fun d => secLevel d = 0) = true ∧
    after (exec (.raise2 .bar0 0xA5020000) (st (secDev { sl1 := true }))) (fun d => secLevel d = 2) = true ∧
    after (exec (.raise2 .bar0 0xA4020000) (st (secDev { sl1 := true }))) (fun d => secLevel d = 1) = true := by decide +kernel
def lowDev : Dev := { upDev with sec := { lowering := true, erasePend := true, epoch := 1, store := [(1, 5)] }, kpr := { upDev.kpr with ken := [0, 1, 2] } }
theorem test_lowering_done : mainUp lowDev = true ∧ after (exec (.loweringDone 8 0 9) (st lowDev)) (fun d => !d.sec.erasePend ∧ d.kpr.state = 4 ∧ d.kpr.ken = [0, 1] ∧ d.sec.store = []) = true := by decide +kernel

/-- Obligations.SignedCommandsComplete: refusals and the premises of a command whose signature is looked at. -/
theorem test_signed_refused : reachable (secDev {}) .bar0 0x80280 = true ∧ after (exec (.secCmdLower .bar0 1 9) (st (secDev {}))) (fun d => d.sec.cmdResult = 3 ∧ d.sec.cmdReason = 1) = true ∧
    after (exec (.secCmdReplaceKa .bar0 2) (st (secDev { sig := some someKey }))) (fun d => d.sec.cmdResult = 3 ∧ d.sec.cmdReason = 2) = true ∧
    after (exec (.secCmdReplaceKa .bar0 2) (st { upDev with sec := { sl1 := true, sig := some someKey, nonce := some 1 } })) (fun d => d.sec.cmdResult = 3 ∧ d.sec.cmdReason = 5) = true := by decide +kernel
theorem find_signed : ∃ (s : State) (path : Path) (k : BitVec 768) (nn : BitVec 128), reachable s.dev path 0x80280 = true ∧ s.dev.sec.lowering = false ∧ s.dev.sec.sig = some k ∧ secLevel s.dev = 1 ∧ s.dev.sec.nonce = some nn ∧
    s.dev.sec.epoch < 32 ∧ s.dev.sec.svnFuse < s.dev.sec.svn :=
  ⟨st (secDev { sl1 := true, sig := some someKey, nonce := some 1, svn := 2 }), .bar0, someKey, 1, by decide +kernel, rfl, rfl, rfl, rfl, by decide, by decide⟩

/-- Obligations.ServiceCipherUnitComplete: the unit taken, a digest of nothing (SHA-384 of the empty message, FIPS 180-4's example), lengths and ranges that are refused. -/
def scuDev (u : Scu) : Dev := { upDev with scu := u }
theorem test_scu_take : reachable upDev .bar0 0x81000 = true ∧ after (exec (.scuTake .bar0) (st upDev)) (fun d => d.scu.holder = 3) = true ∧
    after (exec (.scuRelease .bar0) (st (scuDev { holder := 3, len := 7, key := [(0, 1)] }))) (fun d => d.scu = { len := 7 }) = true := by decide +kernel
theorem test_scu_start : reachable upDev .bar0 0x81004 = true ∧ after (exec (.scuSha384 .bar0 0x16) (st (scuDev { holder := 3 }))) (fun d => d.scu.busy ∧ bytesAt d.scu.buf 0 4 = [0x38, 0xB0, 0x60, 0xA7]) = true ∧
    after (exec (.scuKeyWrap .bar0 0x14) (st (scuDev { holder := 3, len := 8 }))) (fun d => d.scu.err ∧ !d.scu.busy) = true ∧
    after (exec (.scuCmac .bar0 0x13) (st (scuDev { holder := 3, ofs := 8 }))) (fun d => d.scu.err) = true ∧
    after (exec (.scuCmac .bar0 0x13) (st (scuDev { holder := 4 }))) (fun d => d.scu = { holder := 4 }) = true := by decide +kernel
theorem test_scu_done : after (exec .scuOpDone (st (scuDev { holder := 3, busy := true, failed := true }))) (fun d => d.scu.tagBad ∧ d.scu.fin ∧ !d.scu.busy) = true := by decide +kernel

/-! ### Sillage -/

def silDev (s : Sil) : Dev := { upDev with sil := s }
def bootEv : Ev := ⟨.fwUpdate, [1]⟩
def silR (ty rseq : Nat) : SilRec := { rseq := rseq, ty := ty, sev := 0, src := 0, pcc := 0, hours := 0, secs := 0, ps := [] }

/-- Obligations.RecorderComplete. -/
theorem test_main_store : after (exec (.mainRecordStore true 9) (st (silDev { inboxMain := [bootEv] }))) (fun d => d.sil.store = [bootEv] ∧ d.sil.inboxMain = []) = true ∧
    after (exec (.mainRecordStore true 9) (st (silDev { inboxMain := [bootEv], store := List.replicate 64 bootEv }))) (fun d => d.sil.lostMain = 1 ∧ d.sil.lostType = 5 ∧ d.sil.store.length = 64) = true ∧
    after (exec (.mainRecordStore false 9) (st (silDev { inboxMain := [bootEv] }))) (fun d => d.sil.inbox = [(bootEv, true)] ∧ d.sil.store = []) = true := by decide +kernel
theorem test_sil_record : after (exec (.silRecord 7200000000009) (st (silDev { inbox := [(bootEv, true)] }))) (fun d => (d.sil.prog.map fun r => (r.ty, r.src, r.pcc, r.hours, r.ps)) = some (5, 1, 1, 2, [1]) ∧ d.sil.tokens = 2047) = true ∧
    after (exec (.silRecord 9) (st (silDev { inbox := [(bootEv, true)], slots := [(0, silR 1 0)] }))) (fun d => d.sil.erasing ∧ d.sil.queue.length = 1) = true ∧
    after (exec (.silRecord 9) (st (silDev { inbox := [(bootEv, true)], prog := some (silR 1 0), queue := List.replicate 32 ⟨silR 1 0, false⟩ }))) (fun d => silWaiting d.sil.queue = 32 ∧ d.sil.queue.length = 33) = true := by decide +kernel
theorem test_sil_program : after (exec (.silProgramDone 9) (st (silDev { prog := some (silR 5 0), head := 4095, rseq := 4294967295 }))) (fun d => d.sil.head = 0 ∧ d.sil.rseq = 0 ∧ d.sil.slots = [(4095, silR 5 4294967295)]) = true ∧
    after (exec (.silSectorEraseDone 9) (st (silDev { erasing := true, head := 64, slots := [(63, silR 5 0), (64, silR 5 1), (127, silR 5 2), (128, silR 5 3)] }))) (fun d => d.sil.slots.map (·.1) = [63, 128] ∧ d.sil.wrapped) = true := by decide +kernel
theorem test_sil_ticks : after (exec (.silTokenTick 2000000000) (st (silDev { tokens := 2047 }))) (fun d => d.sil.tokens = 2048 ∧ d.sil.tokAt = 2000000000) = true ∧
    after (exec (.silHourStore 3600000000000) (st upDev)) (fun d => d.sil.hourStored = 1) = true ∧ after (exec (.silHourStore 3599999999999) (st upDev)) (fun d => d.sil.hourStored = 0) = true := by decide +kernel

/-- Obligations.ReadingAndClearingComplete. -/
theorem test_sil_freeze : reachable upDev .mgmt 0x10300C = true ∧ after (exec (.silFreeze .mgmt 1 9) (st upDev)) (fun d => d.sil.mgmt.frozen ∧ d.sil.mgmt.since = some 9 ∧ !d.sil.bar0.frozen) = true ∧
    after (exec (.silFreezeTimeout .mgmt 10000000009) (st (silDev { mgmt := { frozen := true, since := some 9 } }))) (fun d => !d.sil.mgmt.frozen) = true ∧
    after (exec (.silFreezeTimeout .mgmt 10000000008) (st (silDev { mgmt := { frozen := true, since := some 9 } }))) (fun d => d.sil.mgmt.frozen) = true := by decide +kernel
theorem test_sil_window : reachable upDev .mgmt 0x103100 = true ∧ after (exec (.silWindowRead .mgmt 0) (st (silDev { slots := [(0, silR 5 77)] }))) (fun d => d.io.out = [.regRead 0x103100 77] ∧ d.sil.mgmt.window.length = 16) = true ∧
    after (exec (.silWindowRead .mgmt 15) (st (silDev { mgmt := { cursor := 4095, window := silWords {} 0 } }))) (fun d => d.io.out = [.regRead 0x10313C 0xFFFFFFFF] ∧ d.sil.mgmt.cursor = 0) = true := by decide +kernel
theorem test_sil_clear_go : reachable upDev .mgmt 0x10301C = true ∧ after (exec (.silClearGo .mgmt 9) (st upDev)) (fun d => d.sil.clearResult = 3 ∧ d.sil.clearReason = 1) = true ∧
    after (exec (.silClearGo .mgmt 9) (st { silDev { bar0 := { frozen := true } } with sec := { sig := some 0 } })) (fun d => d.sil.clearReason = 2) = true ∧
    after (exec (.silClearGo .mgmt 9) (st { silDev { clearing := true } with sec := { sig := some 0 } })) (fun d => d.sil.clearReason = 3) = true ∧
    after (exec (.silClearGo .mgmt 9) (st { upDev with sec := { sig := some 0 } })) (fun d => d.sil.clearResult = 2 ∧ d.sil.inbox = [(⟨.secCmd, [0x10, 2, 0]⟩, false)]) = true := by decide +kernel
theorem test_sil_clear_done : after (exec (.silClearDone 9) (st (silDev { clearing := true, slots := [(0, silR 5 0)], rseq := 1, head := 1, tokens := 0 }))) (fun d => d.sil.slots = [] ∧ d.sil.clrCnt = 1 ∧
      (d.sil.prog.map fun r => (r.ty, r.ps)) = some (1, [1, 0, 1])) = true := by decide +kernel

/-! ### The management endpoint and the test access ports -/

def body (d : Dev) : List Nat := (d.mgt.msg.map (·.body)).getD []

/-- Obligations.ManagementMessagesComplete. -/
theorem test_mctp_control : after (exec (.setEndpointId true 0 8 9) (st upDev)) (fun d => d.mgt.eid = some 8 ∧ body d = [0, 0, 8, 0]) = true ∧
    after (exec (.setEndpointId true 0 255 9) (st upDev)) (fun d => d.mgt.eid = none ∧ body d = [2]) = true ∧ after (exec (.setEndpointId false 0 8 9) (st upDev)) (fun d => d.mgt.eid = none ∧ d.mgt.pec = 1) = true ∧
    after (exec (.getEndpointId true 9) (st upDev)) (fun d => body d = [0, 0, 0, 0]) = true ∧ after (exec (.getMessageTypeSupport true 9) (st upDev)) (fun d => body d = [0, 2, 1, 0x7F]) = true ∧
    after (exec (.getMctpVersionSupport true 2 9) (st upDev)) (fun d => body d = [0x80]) = true ∧ after (exec (.getMctpVersionSupport true 1 9) (st upDev)) (fun d => (body d).take 2 = [0, 1]) = true ∧
    after (exec (.getVendorDefinedMessageSupport true 0 9) (st upDev)) (fun d => (body d).take 3 = [0, 0xFF, 1]) = true := by decide +kernel
theorem test_pldm : after (exec (.pldmBase true 1 7 9) (st upDev)) (fun d => d.mgt.tid = 7) = true ∧ after (exec (.pldmBase true 4 0 9) (st upDev)) (fun d => body d = [0, 0x25, 0, 0, 0, 0, 0, 0, 0]) = true ∧
    after (exec (.pldmSensorRead true 0x40 9) (st upDev)) (fun d => body d = [0, 0, 1, 4, 0, 0, 0]) = true ∧ after (exec (.pldmSensorRead true 0x63 9) (st upDev)) (fun d => body d = [0x80]) = true ∧
    after (exec (.pldmSensorRead true 3 9) (st { upDev with thm := { pth := [(0, 1100)] } })) (fun d => (body d).take 3 = [0, 0, 8]) = true := by decide +kernel
def goodImage : BootImage := { slot := 1, svn := 1, version := 5, gpio := 0, good := true }
theorem test_firmware_update : mainUp upDev = true ∧ after (exec (.pldmFirmwareUpdate true goodImage false 9) (st upDev)) (fun d => tget d.sec.slots 1 = some goodImage ∧ d.sil.inboxMain = [⟨.fwUpdate, [1, 5, 0]⟩]) = true ∧
    after (exec (.pldmFirmwareUpdate true goodImage false 9) (st { upDev with sec := { svnFuse := 2 } })) (fun d => d.sil.inboxMain = [⟨.fwUpdate, [1, 5, 1]⟩]) = true ∧
    after (exec (.pldmFirmwareUpdate true goodImage true 9) (st upDev)) (fun d => d.sil.inboxMain = [⟨.fwUpdate, [1, 5, 2]⟩]) = true ∧
    after (exec (.pldmFirmwareUpdate true goodImage true 9) (st { upDev with clo := {} })) (fun d => body d = [0x8A] ∧ d.sil.inboxMain = []) = true := by decide +kernel
theorem test_mctp_timeout : after (exec (.mctpTimeout 100000000) (st { upDev with mgt := { msg := some { kind := 0, body := [], since := 0, losses := 1 } } })) (fun d => d.mgt.msg = none) = true := by decide +kernel

/-- Obligations.RegisterAccessMessagesComplete: byte 0 the operation, 1 the count, 4-7 the offset, then data (R514). -/
def reqBytes (l : List Nat) : List Byte := l.map (BitVec.ofNat 8 ·)
theorem test_register_access : after (exec (.registerAccessRequest true (reqBytes [3, 1, 0, 0, 0, 0, 0, 0]) 9) (st upDev)) (fun d => body d = [3]) = true ∧
    accessBad (reqBytes [1, 1, 0, 0, 0x40, 0, 0, 0]) = false ∧ after (exec (.registerAccessRequest true (reqBytes [1, 1, 0, 0, 0x40, 0, 0, 0]) 9) (st upDev)) (fun d => body d = [1]) = true ∧
    after (exec (.registerAccessRequest true (reqBytes [1, 1, 0, 0, 0, 0, 0, 0]) 9) (st { upDev with pwr := { aon := true, klinkUp := false } })) (fun d => body d = [2]) = true ∧
    after (exec (.registerAccessRequest true (reqBytes [1, 1, 0, 0, 4, 0, 0x10, 0]) 9) (st upDev)) (fun d => body d = [0, 0x28, 0x23, 0x14, 0]) = true := by decide +kernel
theorem test_register_access_two : accessAllowed upDev false (accessOffsets 0x100004 2) = true ∧ accessCut upDev (accessOffsets 0x100004 2) = false ∧
    after (exec (.registerAccessRequest true (reqBytes [1, 2, 0, 0, 4, 0, 0x10, 0]) 9) (st upDev)) (fun d => (body d).length = 9) = true := by decide +kernel
theorem test_register_access_write : accessBad (reqBytes [2, 1, 0, 0, 4, 0, 0x10, 0, 0xE0, 0x2E, 0x0A, 0xFF]) = false ∧ Tbl.wf upDev.rf.regs = true ∧
    after (exec (.registerAccessRequest true (reqBytes [2, 1, 0, 0, 4, 0, 0x10, 0, 0xE0, 0x2E, 0x0A, 0xFF]) 9) (st upDev)) (fun d => body d = [0] ∧ rd d 0x100004 = 0x0A2EE0) = true ∧
    after (exec (.registerAccessRequest true (reqBytes [2, 1, 0, 0, 4, 0, 0x10, 0, 0xE0, 0x2E, 0x0A, 0xFF]) 9) (st { upDev with rf := { lock := true } })) (fun d => rd d 0x100004 = 0x142328) = true := by decide +kernel

/-- Obligations.TestAccessPortsComplete. -/
theorem test_jtag : after (exec (.jtagInstruction true .debug) (st upDev)) (fun d => d.mgt.tapMain = .debug) = true ∧
    after (exec (.jtagInstruction false .debug) (st { upDev with sec := { sl1 := true } })) (fun d => d.mgt.tapPower = .bypass) = true ∧
    after (exec (.jtagInstruction true .extest) (st { upDev with id := { upDev.id with bscan := true }, clo := { phase := 1 } })) (fun d => d.mgt.tapMain = .extest) = true ∧
    after (exec (.jtagInstruction true .extest) (st { upDev with clo := { phase := 1 } })) (fun d => d.mgt.tapMain = .bypass) = true ∧
    after (exec (.jtagInstruction false .idcode) (st upDev)) (fun d => d.io.out.length = 1) = true := by decide +kernel

/-! ### Memory errors -/

def eccDev (e : Ecc) : Dev := { upDev with ecc := e }
def someErr : MemErr := { mem := 0, cls := 2, unit := 5, addr := 64, syn := 3 }

/-- Obligations.ErrorRecordsComplete. -/
theorem test_correctable : after (exec (.memCorrectable someErr 9) (st upDev)) (fun d => d.ecc.queue = [errRec 1 someErr upDev] ∧ d.ecc.sramCe = 1 ∧ d.sil.inboxMain = [⟨.memCe, [0, 1]⟩]) = true ∧
    after (exec (.memCorrectable someErr 9) (st (eccDev { queue := [errRec 1 someErr upDev], ceAt := [(0, 0)] }))) (fun d => d.ecc.queue.map (fun r => r.w2.toNat / 65536) = [2] ∧ d.sil.inboxMain = []) = true ∧
    after (exec (.memCorrectable someErr 9) (st (eccDev { queue := List.replicate 16 {} }))) (fun d => d.ecc.ovf ∧ d.ecc.ovfCnt = 1 ∧ d.ecc.queue.length = 16) = true ∧
    after (exec (.narrowWriteRefused someErr 9) (st upDev)) (fun d => d.ecc.narrow = 1 ∧ d.ecc.queue.map (fun r => r.w0.toNat % 256) = [3]) = true := by decide +kernel
theorem test_error_handled : after (exec .errorRecordHandled (st (eccDev { queue := [{}, {}] }))) (fun d => d.ecc.queue.length = 1) = true := by decide +kernel
theorem test_fabric : after (exec (.fabricParityFail false someErr .line 9) (st upDev)) (fun d => d.ecc.fabric = 1 ∧ !d.ecc.ue) = true ∧
    after (exec (.fabricParityFail true { someErr with cls := 1 } .line 9) (st upDev)) (fun d => d.ecc.ue ∧ d.ecc.queue.map (fun r => r.w0.toNat % 1024) = [0x205]) = true := by decide +kernel
theorem test_ecc_inject : reachable upDev .bar0 0x61040 = true ∧ after (exec (.eccInject .bar0 0x506) (st upDev)) (fun d => d.ecc.injected = [(2, 1, 5, 0)]) = true ∧
    after (exec (.eccInject .bar0 0x506) (st { upDev with sec := { sl1 := true } })) (fun d => d.ecc.injected = [] ∧ rd d 0x61040 = 0) = true := by decide +kernel

/-- Obligations.UncorrectableErrorsComplete: R401's example, a class 7 error that finds the queue full, among them. -/
theorem test_uncorrectable : after (exec (.memUncorrectable { someErr with cls := 1 } false .line 9) (st upDev)) (fun d => d.ecc.sramUe = 1 ∧ d.sil.inboxMain.length = 1) = true ∧
    after (exec (.memUncorrectable { someErr with cls := 0, mem := 1 } true .line 9) (st upDev)) (fun d => d.ecc.hbmAddr = 1 ∧ d.ecc.queue.map (fun r => r.w0.toNat % 256) = [4]) = true ∧
    after (exec (.memUncorrectable { someErr with cls := 4 } false (.buffer 0 8192) 9) (st { upDev with bpm := { pools := [{ base := 0, size := 4096, total := 4, lost := 0, free := [0, 8192], fallback := 0 }] } }))
      (fun d => d.bpm.pools.map (fun p => (p.free, p.lost)) = [([0], 1)]) = true ∧
    after (exec (.memUncorrectable { someErr with cls := 6 } false .line 9) (st upDev)) (fun d => !d.clo.armed ∧ d.clo.ceil = 0) = true := by decide +kernel
theorem test_uncorrectable_stop : listArmed railDev = true ∧ railDev.kpr.flush = none ∧ after (exec (.memUncorrectable { someErr with cls := 7 } false .line 9) (st { railDev with ecc := { queue := List.replicate 16 {} } }))
      (fun d => d.kpr.flush = some (2, 9) ∧ d.ecc.ovfCnt = 1 ∧ (d.sil.inboxMain.map fun e => e.ps.drop 4) = [[1]]) = true ∧
    after (exec (.memUncorrectable { someErr with cls := 5 } false (.journal 3 true) 9) (st railDev)) (fun d => d.kpr.flush = some (2, 9)) = true := by decide +kernel

/-! ### Registers -/

/-- Obligations.RegisterAccessComplete. -/
theorem test_setup_lock : reachable upDev .bar0 0x40 = true ∧ after (exec (.glbSetupLock .bar0 1) (st { upDev with rf := { regs := [(0x30000, 5), (0x30118, 6)], stage := [(0x1000, 1)] } })) (fun d =>
      d.rf.lock ∧ d.rf.stage = [] ∧ d.rf.copy = [(0x30000, 5)]) = true := by decide +kernel
theorem test_register_write : reachable upDev .bar0 0x58004 = true ∧ after (exec (.registerWrite .bar0 0x58004 ⟨0xFFFFFFFF, .word⟩) (st upDev)) (fun d => rd d 0x58004 = 0x1FFFF) = true ∧
    after (exec (.registerWrite .bar0 0x58004 ⟨0xFFFFFFFF, .word⟩) (st { upDev with rf := { lock := true } })) (fun d => rd d 0x58004 = 0x100C8) = true ∧
    after (exec (.registerWrite .otherPf 0x58004 ⟨0xFFFFFFFF, .word⟩) (st upDev)) (fun d => rd d 0x58004 = 0x100C8) = true := by decide +kernel
theorem test_function_writes : fnOn upDev 0 = some 0 ∧ after (exec (.registerWrite (.bar2 0) 0 ⟨1, .narrow⟩) (st upDev)) (fun d => d.qm.dbReject = 1) = true ∧ after (exec (.registerWrite (.cfg 0) 0x410 ⟨1, .word⟩) (st { upDev with pcx := { links := [(0, { pend := true })] } })) (fun d => (tgetD d.pcx.links 0 {}).pend = false) = true ∧
    vfEnabled upDev 0 0 = true ∧ after (exec (.registerWrite (.bar4 0) 0x18 ⟨7, .word⟩) (st upDev)) (fun d => (msixAt d 0 1).data = 7) = true ∧
    (pcxEntry upDev 0).isSome = true ∧ after (exec (.registerWrite (.sriov 0) 0 ⟨4, .word⟩) (st upDev)) (fun d => (tgetD d.pcx.links 0 {}).numVfs = 4) = true := by decide +kernel
theorem test_reg64_write : reachable upDev .bar0 0x1004 = true ∧ after (exec (.reg64HighWrite .bar0 0x1004 2) (st { upDev with rf := { stage := [(0x1000, 0x5000)] } })) (fun d =>
      rd d 0x1004 = 2 ∧ rd d 0x1000 = 0x5000 ∧ d.rf.stage = []) = true ∧ after (exec (.reg64HighWrite .bar0 0x1004 2) (st { upDev with rf := { lock := true } })) (fun d => rd d 0x1004 = 0) = true := by decide +kernel
theorem test_reg64_read : canRead upDev .bar0 0xC0010 = true ∧ canRead upDev .mgmt 0x58000 = false ∧ after (exec (.reg64LowRead .mgmt 0x58000) (st upDev)) (fun d => d.io.out = [.regRead 0x58000 0]) = true ∧
    (quadAt upDev 0xC0010).map (·.1) = some 0xC0010 ∧ pathWord upDev .bar0 0xC0010 = none ∧
    after (exec (.reg64LowRead .bar0 0xC0010) (st { upDev with clo := { upDev.clo with ceil := 2 ^ 33 + 5 } })) (fun d => d.io.out = [.regRead 0xC0010 5] ∧ d.rf.latch.map (·.2) = [2]) = true ∧
    after (exec (.reg64LowRead .bar0 0xC0014) (st { upDev with rf := { latch := [(latchKey .bar0 0xC0010, 2)] } })) (fun d => d.io.out = [.regRead 0xC0014 2] ∧ d.rf.latch = []) = true := by decide +kernel

/-! ### The whole part -/

/-- Obligations.EveryCommandRunsOrTheSupplyFaults: both sides of 16 V. -/
def faults (o : Host.Outcome State Fault Refusal) : Bool := match o with
  | .fault .absoluteMaximum => true
  | _ => false
theorem test_supply : faults (exec (.vinAboveRange 16001 9) (st upDev)) = true ∧ faults (exec (.vinAboveRange 16000 9) (st upDev)) = false ∧ faults (exec (.coldReset 16001 true 9) (st {})) = true ∧
    faults (exec (.coldReset 16001 true 9) (st upDev)) = false ∧ adcMv true 262143 = 41999 ∧ faults (exec (.adcSample 0 262143 9) (st { upDev with hld := { chans := [{ coarse := true }] } })) = true := by decide +kernel
theorem supply_beyond : SupplyBeyond (.vinAboveRange 16001 9) upDev := .inr (.inl ⟨16001, 9, rfl, rfl, by decide⟩)
theorem supply_within : ¬SupplyBeyond (.nop 1) upDev := by simp [SupplyBeyond]

/-- Obligations.ResetState, InvHoldsAtReset, EveryStepKeepsInv. -/
theorem reset_inv : StateInv State.reset := ⟨rfl, rfl, rfl, by decide, by decide, by decide, by decide, by decide, rfl, by simp [State.reset]⟩
theorem test_step_from_reset : step State.reset = .next State.reset := rfl

/-- Obligations.FreeRowsIsTheLargest: three dies in three link groups with 3, 2 and 1 free beds give 1 row of 3, 2 of 2. -/
theorem test_free_rows : freeRowsOf 3 [1, 3, 2] = 1 ∧ freeRowsOf 2 [1, 3, 2] = 3 ∧ freeRowsOf 1 [1, 3, 2] = 6 ∧ freeRowsOf 4 [1, 3, 2] = 0 := by decide +kernel

/-- Obligations.OutstandingTagsAreUnique: a second NOP under an outstanding tag, and one under another. -/
def tagDev : Dev := { fetchDev with qm := { fetchDev.qm with cmds := [(7, { desc := desc 0 5 0 0 0 0 0 0 0 0 })] } }
theorem test_tag : canFetch tagDev 0 = true ∧
    after (exec (.descriptorFetch 0 (desc 0 5 0 0 0 0 0 0 0 0) 10) (st tagDev)) (fun d => (tget d.qm.cmds tagDev.qm.nextCmd).map (fun c => (c.stage, c.status, c.field)) = some (.done, .invalidField, 2)) = true ∧
    after (exec (.descriptorFetch 0 (desc 0 6 0 0 0 0 0 0 0 0) 10) (st tagDev)) (fun d => (tget d.qm.cmds tagDev.qm.nextCmd).map (·.stage) = some .fetched) = true := by decide +kernel

/-- Obligations.LockOperationsKeepGrantsApart. -/
def lk (id : Nat) (excl entered held : Bool) : Lock := { cmd := id, tenant := 1, plot := 1, first := 0, last := 9, excl := excl, entered := entered, held := held }
theorem locks_apart : LocksApart [lk 1 false true true, lk 2 true true false] := by simp [LocksApart, lk, lockConflict]
theorem test_locks : ((lockArrive (lk 3 false false false) { upDev with qm := { locks := [lk 1 false true true] } }).qm.locks.map (·.held)) = [true, true] ∧
    ((lockArrive (lk 3 true false false) { upDev with qm := { locks := [lk 1 false true true] } }).qm.locks.map (·.held)) = [true, false] ∧
    (lockGrant 2 (lockRelease 1 { upDev with qm := { locks := [lk 1 false true true, lk 2 true true false] } })).qm.locks = [lk 2 true true true] := by decide +kernel

/-- Obligations.LeanColumnsRebuildOne, DurableColumnsRebuildTwo: R268's example, D0 = 0x5A, D1 = 0x3C, both lost. -/
theorem test_rebuild_column : parityP [bytesOf 0x5A, bytesOf 0x3C] = bytesOf 0x66 ∧ parityQ [bytesOf 0x5A, bytesOf 0x3C] = bytesOf 0x22 ∧
    rebuildData 2 (tdel (tdel (durableColumn [bytesOf 0x5A, bytesOf 0x3C]) 0) 1) 0 = some (bytesOf 0x5A) ∧
    rebuildData 2 (tdel (tdel (durableColumn [bytesOf 0x5A, bytesOf 0x3C]) 0) 1) 1 = some (bytesOf 0x3C) ∧
    rebuildRole 2 (tdel (tdel (durableColumn [bytesOf 0x5A, bytesOf 0x3C]) 0) 2) 0 = some (bytesOf 0x5A) ∧
    rebuildData 2 (tdel (tdel (leanColumn [bytesOf 0x5A, bytesOf 0x3C]) 0) 1) 0 = none := by decide +kernel

/-- Obligations.SetupLockHoldsFields, FusesOnlyBlow, WideReadsLatch share the states of the register and security tests. -/
theorem test_lock_holds : after (exec (.registerWrite .bar0 0x1014 ⟨1, .word⟩) (st { upDev with rf := { lock := true } })) (fun d => d.rf.lock ∧ rd d 0x1014 = 0) = true := by decide +kernel

/-! ### Worked examples and register values that the spec prints -/

/-- The ceiling of the 30 mF board, and with VHOLD at 30 V (after R295). -/
theorem test_ceiling_example : ceilFrom 300 150000 14000 0 30000 140 38000 = 6222243750 ∧ ceilFrom 300 150000 14000 0 30000 140 30000 = 3162243750 := by decide +kernel

/-- MED_PROF_* for the reference TLC and QLC profiles (spec/07_media_management.md). -/
def profDev (p : Nat) : Dev := { upDev with rf := { regs := [(0x40000, BitVec.ofNat 32 p)] }, alm := { dies := [(0, { profile := p, included := true })] } }
theorem test_med_prof_tlc : ([0x40004, 0x40008, 0x4000C, 0x40010, 0x40014, 0x40018, 0x4001C].map fun o => plainWord (profDev 1) o) =
    [0x18001047, 0x118022A8, 0x005A0037, 0x13880708, 0x0B406428, 0x0014643C, 0x22380BB8] := by decide +kernel
theorem test_med_prof_qlc : ([0x40004, 0x40008, 0x4000C, 0x40010, 0x40014, 0x40018, 0x4001C].map fun o => plainWord (profDev 2) o) =
    [0x30001049, 0x23002154, 0x00BE0078, 0x2EE010CC, 0x0C80964E, 0x000A1E50, 0x111C03E8] := by decide +kernel

/-- PCX_LINK_ID, PCX_VF_MAP and PCX_FLR_LOG of the card on port 1, link 2, mode 2 (spec/05_pcie_ports.md). -/
def cardDev : Dev := { upDev with id := { upDev.id with bif1 := 2 }, pcx := { links := [(6, { pend := true, flrCount := 1, flrLast := 514 })] } }
theorem test_pcx_card : linkKey cardDev (1024 + 514) = some 6 ∧ ([0x408, 0x40C, 0x410].map fun o => cfgWord cardDev (1024 + 514) o) = [0x25, 0x00800101, 0x02020101] := by decide +kernel

/-- SVC 82 µs is counted in bucket 25 (spec/06_placement_and_almanac.md). -/
theorem test_bucket_example : bucket 82 = 25 := by decide +kernel

end Sys2Proof.Tests
end

/-!
What every step keeps (Obligations.InvHoldsAtReset, Obligations.EveryStepKeepsInv). The invariant reads nine fields of the part; `kept` gathers them. Most operations
leave all nine: one equation `f_kept` per operation, in the order of the model's files, which simp uses in the proof of the operations that call it. The others change some
of the nine within the invariant's bounds: one lemma `f_ok` per operation. A command's lemma, of either kind, speaks of the state that its outcome answers.
-/

namespace Sys2Proof.Machine

/-! ### What the invariant reads -/

/-- The nine fields that the invariant reads. -/
structure Kept where
  regs : Tbl Word
  stage : Tbl Word
  latch : Tbl Word
  epoch : Nat
  pwrcyc : Nat
  tokens : Nat
  head : Nat
  rseq : Nat
  slots : Tbl SilRec

/-- What the invariant reads of a part. -/
def kept (d : Dev) : Kept :=
  ⟨d.rf.regs, d.rf.stage, d.rf.latch, d.sec.epoch, d.kpr.pwrcyc, d.sil.tokens, d.sil.head, d.sil.rseq, d.sil.slots⟩

/-- The invariant, as bounds on what it reads; `stateInv_iff` ties it to the architect's StateInv. -/
structure Kept.Ok (k : Kept) : Prop where
  regs : Tbl.wf k.regs = true
  stage : Tbl.wf k.stage = true
  latch : Tbl.wf k.latch = true
  epoch : k.epoch ≤ 32
  pwrcyc : k.pwrcyc < 2 ^ 24
  tokens : k.tokens ≤ 2048
  head : k.head < 4096
  rseq : k.rseq < 2 ^ 32
  slots : Tbl.wf k.slots = true
  inRing : ∀ e ∈ k.slots, e.1 < 4096

theorem stateInv_iff (s : State) : StateInv s ↔ (kept s.dev).Ok :=
  ⟨fun ⟨regs, stage, latch, epoch, pwrcyc, tokens, head, rseq, slots, inRing⟩ => ⟨regs, stage, latch, epoch, pwrcyc, tokens, head, rseq, slots, inRing⟩,
    fun h => ⟨h.regs, h.stage, h.latch, h.epoch, h.pwrcyc, h.tokens, h.head, h.rseq, h.slots, h.inRing⟩⟩

/-! #### Of an update, a choice and a repetition

The first two equations take an update of the record apart and put what it left together again. They are proved by `(rfl)` so that simp rewrites with them: as definitional
steps they would have the kernel compare whole parts. -/

section
variable {α : Type} (d : Dev)

@[simp] theorem kept_mk (id rf qm bpm maps alm med jnl clo kpr hld smt pcx hl ecc sec scu pwr thm age sil mgt io) :
    kept ⟨id, rf, qm, bpm, maps, alm, med, jnl, clo, kpr, hld, smt, pcx, hl, ecc, sec, scu, pwr, thm, age, sil, mgt, io⟩ =
      ⟨rf.regs, rf.stage, rf.latch, sec.epoch, kpr.pwrcyc, sil.tokens, sil.head, sil.rseq, sil.slots⟩ := (rfl)

@[simp] theorem kept_eta : Kept.mk d.rf.regs d.rf.stage d.rf.latch d.sec.epoch d.kpr.pwrcyc d.sil.tokens d.sil.head d.sil.rseq d.sil.slots = kept d := (rfl)

@[simp] theorem raise_sil (ty ps) : (raise ty ps d).sil = { d.sil with inboxMain := d.sil.inboxMain ++ [⟨ty, ps⟩] } := rfl
@[simp] theorem raiseP_sil (ty ps) : (raiseP ty ps d).sil = { d.sil with inbox := d.sil.inbox ++ [(⟨ty, ps⟩, false)] } := rfl

@[simp] theorem kept_ite (c : Prop) [Decidable c] (d e : Dev) : kept (if c then d else e) = if c then kept d else kept e := apply_ite kept c d e

@[simp] theorem kept_onlyIf (c : Bool) (f : Dev → Dev) : kept (onlyIf c f d) = if c then kept (f d) else kept d := by
  unfold onlyIf
  split <;> rfl

@[simp] theorem kept_withSome (o : Option α) (f : α → Dev → Dev) : kept (withSome o f d) = o.elim (kept d) fun a => kept (f a d) := by
  cases o <;> rfl

theorem option_elim_eq {β : Type} {o : Option α} {b : β} {f : α → β} (h : ∀ a, f a = b) : o.elim b f = b := by
  cases o with
  | none => rfl
  | some a => exact h a

@[simp] theorem option_elim_self {β : Type} (o : Option α) (b : β) : (o.elim b fun _ => b) = b := option_elim_eq fun _ => rfl

@[simp] theorem kept_foldl {f : Dev → α → Dev} (hf : ∀ d a, kept (f d a) = kept d) (l : List α) (d : Dev) : kept (l.foldl f d) = kept d := by
  induction l generalizing d with
  | nil => rfl
  | cons a l ih => rw [List.foldl_cons, ih, hf]

@[simp] theorem kept_forAll {f : α → Dev → Dev} (hf : ∀ a d, kept (f a d) = kept d) (l : List α) (d : Dev) : kept (forAll l f d) = kept d :=
  kept_foldl (fun d a => hf a d) l d

/-- The intro forms, for an effect whose own case split simp does not see. -/
theorem kept_withSome_of {k : Kept} {o : Option α} {f : α → Dev → Dev} {d : Dev} (hd : kept d = k) (hf : ∀ a, o = some a → kept (f a d) = k) :
    kept (withSome o f d) = k := withSome_keeps (P := (kept · = k)) hd hf
theorem kept_onlyIf_of {k : Kept} {c : Bool} {f : Dev → Dev} {d : Dev} (hd : kept d = k) (hf : kept (f d) = k) : kept (onlyIf c f d) = k :=
  onlyIf_keeps (P := (kept · = k)) hd fun _ => hf

@[simp] theorem touchPath_kept (p : Path) : kept (touchPath p d) = kept d := touchPath_field kept (fun _ _ => rfl) p d

end

/-! ### Operations that leave what the invariant reads

An operation's own branches are split and its callees' equations close each; a value that is passed on is named and its equation shown first where the body is long. -/

section
variable (d : Dev)

/-! #### Ops -/

@[simp] theorem tick_kept (t) : kept (tick t d) = kept d := by simp [tick]
@[simp] theorem send_kept (o) : kept (send o d) = kept d := by simp [send]
@[simp] theorem raise_kept (ty ps) : kept (raise ty ps d) = kept d := by simp [raise]
@[simp] theorem raiseP_kept (ty ps) : kept (raiseP ty ps d) = kept d := by simp [raiseP]
@[simp] theorem draw_kept (n) : kept (draw n d) = kept d := by simp [draw]
@[simp] theorem record_kept (r) : kept (record r d) = kept d := by simp [record]
@[simp] theorem onMaps_kept (f) : kept (onMaps f d) = kept d := by simp [onMaps]
@[simp] theorem picked_kept : kept (picked d) = kept d := by simp [picked]
@[simp] theorem mapLookup_kept (ls) : kept (mapLookup ls d) = kept d := by simp [mapLookup]
@[simp] theorem loadXts_kept (plot) : kept (loadXts plot d) = kept d := by simp [loadXts]
@[simp] theorem loadGcm_kept (port i) : kept (loadGcm port i d) = kept d := by simp [loadGcm]
@[simp] theorem onCmd_kept (id f) : kept (onCmd id f d) = kept d := by simp [onCmd]
@[simp] theorem finish_kept (id st result field) : kept (finish id st result field d) = kept d := by simp [finish]
@[simp] theorem finishOk_kept (id result) : kept (finishOk id result d) = kept d := by simp [finishOk]
@[simp] theorem finishErr_kept (id st) : kept (finishErr id st d) = kept d := by simp [finishErr]
@[simp] theorem finishField_kept (id field) : kept (finishField id field d) = kept d := by simp [finishField]
@[simp] theorem blame_kept (id reason ns) : kept (blame id reason ns d) = kept d := by simp [blame]
@[simp] theorem returnBuffer_kept (pool ptr) : kept (returnBuffer pool ptr d) = kept d := by
  unfold returnBuffer
  (repeat' split) <;> simp

@[simp] theorem freeBuffers_kept (p) : kept (freeBuffers p d) = kept d := by simp [freeBuffers]
@[simp] theorem onPwr_kept (f) : kept (onPwr f d) = kept d := by simp [onPwr]
@[simp] theorem wakeEntering_kept (commit out t) : kept (wakeEntering commit out t d) = kept d := by simp [wakeEntering]
@[simp] theorem wakeForCommand_kept (t) : kept (wakeForCommand t d) = kept d := by
  unfold wakeForCommand
  split <;> simp

@[simp] theorem wakeS2_kept (t) : kept (wakeS2 t d) = kept d := by simp [wakeS2]
@[simp] theorem touchPort_kept (u t) : kept (touchPort u t d) = kept d := by simp [touchPort]
@[simp] theorem setLocks_kept (l) : kept (setLocks l d) = kept d := by simp [setLocks]
@[simp] theorem lockGrant_kept (id) : kept (lockGrant id d) = kept d := by simp [lockGrant]
@[simp] theorem lockArrive_kept (e) : kept (lockArrive e d) = kept d := by simp [lockArrive]
@[simp] theorem lockRelease_kept (id) : kept (lockRelease id d) = kept d := by simp [lockRelease]
@[simp] theorem onSq_kept (i f) : kept (onSq i f d) = kept d := by simp [onSq]
@[simp] theorem onCq_kept (i f) : kept (onCq i f d) = kept d := by simp [onCq]
@[simp] theorem cancel_kept (id) : kept (cancel id d) = kept d := by simp [cancel]
@[simp] theorem endDeletion_kept (sq) : kept (endDeletion sq d) = kept d := by
  unfold endDeletion
  (repeat' split) <;> simp

/-! #### Trellis -/

@[simp] theorem putBed_kept (die bed f) : kept (putBed die bed f d) = kept d := by simp [putBed]
@[simp] theorem noteBed_kept (die bed f) : kept (noteBed die bed f d) = kept d := by simp [noteBed]
@[simp] theorem putZone_kept (plot z v) : kept (putZone plot z v d) = kept d := by simp [putZone]
@[simp] theorem bsetFull_kept (plot) : kept (bsetFull plot d) = kept d := by simp [bsetFull]
@[simp] theorem takeSet_kept (dies old) : kept (takeSet dies old d).2 = kept d := by
  unfold takeSet
  split <;> rfl

@[simp] theorem placeBed_kept (row pos die life system) : kept (placeBed row pos die life system d) = kept d := by
  unfold placeBed
  split <;> simp

@[simp] theorem rowBuilt_kept (row) : kept (rowBuilt row d) = kept d := by
  unfold rowBuilt
  split <;> simp

@[simp] theorem makeRow_kept (w dies bset) : kept (makeRow w dies bset d).2 = kept d := by simp [makeRow]
theorem buildRow_kept {w : Want} {e : Nat × Dev} (h : buildRow w d = some e) : kept e.2 = kept d := by
  unfold buildRow at h
  dsimp only at h
  split at h
  · cases h
  generalize (w.durable && _ && _ : Bool) = bound at h
  cases bound with
  | true =>
    simp only [if_true] at h
    split at h <;> cases h <;> simp
  | false =>
    obtain ⟨dies, -, rfl⟩ := Option.map_eq_some_iff.1 h
    simp

/-! #### Place -/

@[simp] theorem onStripe_kept (row s f) : kept (onStripe row s f d) = kept d := by simp [onStripe]
@[simp] theorem onRow_kept (row f) : kept (onRow row f d) = kept d := by simp [onRow]
@[simp] theorem queueOp_kept (o) : kept (queueOp o d) = kept d := by simp [queueOp]
@[simp] theorem dropWork_kept (w) : kept (dropWork w d) = kept d := by simp [dropWork]
@[simp] theorem queueWork_kept (w kind level row s pos q) : kept (queueWork w kind level row s pos q d) = kept d := by
  unfold queueWork
  split <;> simp

@[simp] theorem abandonPatrol_kept (row) : kept (abandonPatrol row d) = kept d := by simp [abandonPatrol]
@[simp] theorem queueErase_kept (die bed level) : kept (queueErase die bed level d) = kept d := by simp [queueErase]
@[simp] theorem queueProgram_kept (row s pos) : kept (queueProgram row s pos d) = kept d := by
  unfold queueProgram
  split <;> simp

@[simp] theorem queueXpl_kept (row pos cause hard) : kept (queueXpl row pos cause hard d) = kept d := by
  unfold queueXpl
  (repeat' split) <;> simp

@[simp] theorem readCheck_kept (die bed) : kept (readCheck die bed d) = kept d := by simp [readCheck]
@[simp] theorem ewCheck_kept (die bed) : kept (ewCheck die bed d) = kept d := by simp [ewCheck]
@[simp] theorem oldWhenEmpty_kept (row) : kept (oldWhenEmpty row d) = kept d := by
  unfold oldWhenEmpty
  split <;> simp

@[simp] theorem sealRow_kept (row r) : kept (sealRow row r d) = kept d := by simp [sealRow]
@[simp] theorem trySeal_kept (row) : kept (trySeal row d) = kept d := by
  unfold trySeal
  split <;> simp

@[simp] theorem giveStripe_kept (row slot rank s r) : kept (giveStripe row slot rank s r d) = kept d := by simp [giveStripe]
@[simp] theorem stripeFor_kept (row slot rank r) : kept (stripeFor row slot rank r d).2 = kept d := by
  unfold stripeFor
  split <;> simp

@[simp] theorem programsFor_kept (row s b r) : kept (programsFor row s b r d) = kept d := by simp [programsFor]
@[simp] theorem placeBlock_kept (row slot o pos pay) : kept (placeBlock row slot o pos pay d) = kept d := by
  unfold placeBlock
  split <;> simp

@[simp] theorem heatBed_kept (heat r) : kept (heatBed heat r d) = kept d := by simp [heatBed]
@[simp] theorem fillStripe_kept (row slot plot first o) : kept (fillStripe row slot plot first o d) = kept d := by
  unfold fillStripe
  split <;> simp

@[simp] theorem fillNext_kept (row slot lba) : kept (fillNext row slot lba d) = kept d := by
  unfold fillNext
  split <;> simp

@[simp] theorem fillShare_kept (row slot plot first o) : kept (fillShare row slot plot first o d) = kept d := by simp [fillShare]
@[simp] theorem putFlash_kept (die bed s q c v) : kept (putFlash die bed s q c v d) = kept d := by simp [putFlash]
@[simp] theorem clearFlash_kept (die bed) : kept (clearFlash die bed d) = kept d := by simp [clearFlash]
@[simp] theorem layColumn_kept (row s q c ds) : kept (layColumn row s q c ds d) = kept d := by
  unfold layColumn
  split <;> simp

@[simp] theorem pageDone_kept (row s pos die bed) : kept (pageDone row s pos die bed d) = kept d := by
  unfold pageDone
  split
  · rfl
  · extract_lets +onlyGivenNames p st j e
    have he : kept e = kept d := kept_forAll (fun x d => by split <;> simp) _ _
    simp [he]

@[simp] theorem loseValid_kept (row n) : kept (loseValid row n d) = kept d := by simp [loseValid]

/-! #### Budget -/

@[simp] theorem layRescue_kept (row all) (after : Nat → Row → Dev → Dev) (hf : ∀ s r d, kept (after s r d) = kept d) : kept (layRescue row all after d) = kept d := by
  unfold layRescue
  split
  · rfl
  · simp only [kept_mk, kept_eta, onRow_kept]
    refine kept_forAll (fun i d => ?_) _ _
    split
    · rfl
    · simp [hf]

@[simp] theorem spill_kept (key st) : kept (spill key st d) = kept d := by
  simp only [spill]
  split <;> simp

@[simp] theorem spilled_kept (key row) : kept (spilled key row d) = kept d := by simp [spilled]
@[simp] theorem dropSpills_kept (row slot) : kept (dropSpills row slot d) = kept d := by simp [dropSpills]
@[simp] theorem rescueDrain_kept : kept (rescueDrain d) = kept d := by simp [rescueDrain]

/-! #### HlCore -/

@[simp] theorem onLink_kept (l f) : kept (onLink l f d) = kept d := by simp [onLink]
@[simp] theorem onSeq_kept (l f) : kept (onSeq l f d) = kept d := by simp [onSeq]
@[simp] theorem lineTo_kept (l bs) : kept (lineTo l bs d) = kept d := by simp [lineTo]
@[simp] theorem onReads_kept (l f) : kept (onReads l f d) = kept d := by simp [onReads]
@[simp] theorem fastRetrain_kept (l t) : kept (fastRetrain l t d) = kept d := by simp [fastRetrain]
@[simp] theorem fullTraining_kept (l t) : kept (fullTraining l t d) = kept d := by simp [fullTraining]
@[simp] theorem groupEntering_kept (g t) : kept (groupEntering g t d).2 = kept d := by
  simp only [groupEntering]
  (repeat' split) <;> simp

@[simp] theorem wakeLink_kept (l t) : kept (wakeLink l t d) = kept d := by simp [wakeLink]
@[simp] theorem frameTo_kept (l f) : kept (frameTo l f d) = kept d := by simp [frameTo]
@[simp] theorem hlSendOne_kept (l) : kept (hlSendOne l d) = kept d := by
  simp only [hlSendOne]
  (repeat' split) <;> simp

@[simp] theorem hlPump_kept (l) : kept (hlPump l d) = kept d := by simp [hlPump]
@[simp] theorem hlEnqueue_kept (l f) : kept (hlEnqueue l f d) = kept d := by simp [hlEnqueue]
@[simp] theorem hlResend_kept (l fs) : kept (hlResend l fs d) = kept d := by simp [hlResend]
@[simp] theorem hlReplay_kept (l t) : kept (hlReplay l t d) = kept d := by simp [hlReplay]
@[simp] theorem hlAckTo_kept (l ack t) : kept (hlAckTo l ack t d) = kept d := by simp [hlAckTo]
@[simp] theorem hlCredit_kept (l credit) : kept (hlCredit l credit d) = kept d := by simp [hlCredit]
@[simp] theorem hlCommand_kept (l target opc op bytes) : kept (hlCommand l target opc op bytes d).2 = kept d := by simp [hlCommand]
@[simp] theorem hlData_kept (l target otag data) : kept (hlData l target otag data d) = kept d := by simp [hlData]
@[simp] theorem hlPlain_kept (l target opc) : kept (hlPlain l target opc d) = kept d := by simp [hlPlain]
@[simp] theorem hlReset_kept (l target) : kept (hlReset l target d) = kept d := by simp [hlReset]
@[simp] theorem hlAckOut_kept (l code) : kept (hlAckOut l code d) = kept d := by simp [hlAckOut]

/-! #### SmtCore -/

@[simp] theorem onConn_kept (i f) : kept (onConn i f d) = kept d := by simp [onConn]
@[simp] theorem smtEmit_kept (k bytes) : kept (smtEmit k bytes d) = kept d := by simp [smtEmit]
@[simp] theorem rekeyDue_kept (i space old new k) : kept (rekeyDue i space old new k d) = kept d := by simp [rekeyDue]
@[simp] theorem stagingDone_kept (cmd) : kept (stagingDone cmd d) = kept d := by
  unfold stagingDone
  split <;> simp

@[simp] theorem smtSendOne_kept (i) : kept (smtSendOne i d) = kept d := by
  unfold smtSendOne
  (repeat' split) <;> simp

@[simp] theorem smtPump_kept (i) : kept (smtPump i d) = kept d := by
  unfold smtPump
  split <;> simp

@[simp] theorem askBuffer_kept (n u) : kept (askBuffer n u d) = kept d := by simp [askBuffer]
@[simp] theorem smtEnqueue_kept (i q) : kept (smtEnqueue i q d) = kept d := by
  unfold smtEnqueue
  split <;> rfl

@[simp] theorem smtWrite_kept (i addr rkey fence l completes cmd) : kept (smtWrite i addr rkey fence l completes cmd d) = kept d := by
  unfold smtWrite
  split <;> simp

@[simp] theorem smtSendFenced_kept (i addr rkey len bytes completes) : kept (smtSendFenced i addr rkey len bytes completes d) = kept d := by simp [smtSendFenced]
@[simp] theorem smtControl_kept (i ty flags pay) : kept (smtControl i ty flags pay d) = kept d := by
  unfold smtControl
  (repeat' split) <;> simp

@[simp] theorem smtAck_kept (i) : kept (smtAck i d) = kept d := by
  unfold smtAck
  split <;> simp

@[simp] theorem smtCredCheck_kept (i) : kept (smtCredCheck i d) = kept d := by
  unfold smtCredCheck
  split <;> simp

@[simp] theorem failUse_kept (u) : kept (failUse u d) = kept d := by
  simp only [failUse]
  (repeat' split) <;> simp

@[simp] theorem smtReqOne_kept (i) : kept (smtReqOne i d) = kept d := by
  unfold smtReqOne
  (repeat' split) <;> simp

@[simp] theorem smtReqPump_kept (i) : kept (smtReqPump i d) = kept d := by
  unfold smtReqPump
  split <;> simp

@[simp] theorem smtRead_kept (i u addr len rkey) : kept (smtRead i u addr len rkey d) = kept d := by
  unfold smtRead
  split <;> simp

@[simp] theorem smtPumpAll_kept : kept (smtPumpAll d) = kept d := by simp [smtPumpAll]
@[simp] theorem smtFetch_kept (sq r i) : kept (smtFetch sq r i d) = kept d := by simp [smtFetch]
@[simp] theorem restartTimers_kept (port t) : kept (restartTimers port t d) = kept d := by simp [restartTimers]

/-! #### Rings -/

@[simp] theorem rejectDb_kept : kept (rejectDb d) = kept d := by simp [rejectDb]
@[simp] theorem setTail_kept (i v) : kept (setTail i v d) = kept d := by simp [setTail]
@[simp] theorem sqBell_kept (who i v) : kept (sqBell who i v d) = kept d := by
  unfold sqBell
  split <;> simp

@[simp] theorem cqBell_kept (who i v) : kept (cqBell who i v d) = kept d := by
  unfold cqBell
  split <;> simp

@[simp] theorem countRead_kept (fn cq acc) : kept (countRead fn cq acc d) = kept d := by
  simp only [countRead]
  (repeat' split) <;> simp

@[simp] theorem adminSetup_kept (count) : kept (adminSetup count d) = kept d := by simp [adminSetup]
@[simp] theorem mbxStore_kept (off l) : kept (mbxStore off l d) = kept d := by simp [mbxStore]
@[simp] theorem dispatchLoads_kept (desc) : kept (dispatchLoads desc d) = kept d := by simp [dispatchLoads]
@[simp] theorem arrive_kept (sq r desc t) : kept (arrive sq r desc t d) = kept d := by simp [arrive]
@[simp] theorem reserve_kept (cq) : kept (reserve cq d) = kept d := by simp [reserve]
@[simp] theorem fetch_kept (sq desc t) : kept (fetch sq desc t d) = kept d := by
  unfold fetch
  (repeat' split) <;> simp

@[simp] theorem raiseMsix_kept (f vec) : kept (raiseMsix f vec d) = kept d := by
  unfold raiseMsix
  split <;> simp

@[simp] theorem raiseIrq_kept (cq) : kept (raiseIrq cq d) = kept d := by
  unfold raiseIrq
  (repeat' split) <;> simp

@[simp] theorem coalesce_kept (cq t) : kept (coalesce cq t d) = kept d := by
  unfold coalesce
  split <;> simp

@[simp] theorem satisfyWaits_kept (cq count) : kept (satisfyWaits cq count d) = kept d := by simp [satisfyWaits]
@[simp] theorem counted_kept (cq t) : kept (counted cq t d) = kept d := by
  unfold counted
  split <;> simp

@[simp] theorem slotWritten_kept (cq) : kept (slotWritten cq d) = kept d := by simp [slotWritten]
@[simp] theorem writeCompletion_kept (cq r bytes t) : kept (writeCompletion cq r bytes t d) = kept d := by
  unfold writeCompletion
  split <;> simp

@[simp] theorem countStats_kept (c tenant svc cb) : kept (countStats c tenant svc cb d) = kept d := by
  unfold countStats
  split <;> rfl

@[simp] theorem dropCmd_kept (id) : kept (dropCmd id d) = kept d := by simp [dropCmd]
@[simp] theorem touchFn_kept (b t) : kept (touchFn b t d) = kept d := by
  unfold touchFn
  split <;> rfl

@[simp] theorem post_kept (id c t) : kept (post id c t d) = kept d := by
  unfold post
  (repeat' split) <;> simp

@[simp] theorem ringMake_kept (id c) : kept (ringMake id c d) = kept d := by simp [ringMake]
@[simp] theorem dropFetches_kept (sq) : kept (dropFetches sq d) = kept d := by simp [dropFetches]

/-! #### Tenants -/

@[simp] theorem askBlk_kept (id c n) : kept (askBlk id c n d) = kept d := by
  unfold askBlk
  split <;> simp

@[simp] theorem takeBlock_kept (id n) : kept (takeBlock id n d) = kept d := by
  unfold takeBlock
  (repeat' split) <;> simp

@[simp] theorem freeBlock_kept (id) : kept (freeBlock id d) = kept d := by simp [freeBlock]
@[simp] theorem waitBlock_kept (id n) : kept (waitBlock id n d) = kept d := by simp [waitBlock]
@[simp] theorem withBlk_kept (id c n blk) (f : List Byte → Dev → Dev) (hf : ∀ l d, kept (f l d) = kept d) : kept (withBlk id c n blk f d) = kept d := by
  unfold withBlk; split
  · simp
  · simp
  · split
    · simp [hf]
    · simp [hf]
  · simp

@[simp] theorem adminCmd_kept (id opc) (f : Cmd → Dev → Dev) (hf : ∀ c d, kept (f c d) = kept d) : kept (adminCmd id opc f d) = kept d := by
  simp [adminCmd, hf]

@[simp] theorem tenantMake_kept (id l) : kept (tenantMake id l d) = kept d := by
  simp only [tenantMake]
  split <;> simp

@[simp] theorem tenantRegrant_kept (id t l) : kept (tenantRegrant id t l d) = kept d := by
  simp only [tenantRegrant]
  (repeat' split) <;> simp

@[simp] theorem installSeed_kept (plot l) : kept (installSeed plot l d) = kept d := by
  unfold installSeed
  split <;> simp

@[simp] theorem plotMake_kept (id c l) : kept (plotMake id c l d) = kept d := by
  simp only [plotMake]
  (repeat' split) <;> simp

@[simp] theorem regionMake_kept (id c l) : kept (regionMake id c l d) = kept d := by
  simp only [regionMake]
  (repeat' split) <;> simp

@[simp] theorem onPlot_kept (id c m) (f : Plot → Dev → Dev) (hf : ∀ c d, kept (f c d) = kept d) : kept (onPlot id c m f d) = kept d := by
  unfold onPlot; split
  · simp
  · split <;> simp [hf]

@[simp] theorem condemn_kept (row) : kept (condemn row d) = kept d := by simp [condemn]
@[simp] theorem condemnPlot_kept (plot) : kept (condemnPlot plot d) = kept d := by simp [condemnPlot]
@[simp] theorem erasePlot_kept (plot) : kept (erasePlot plot d) = kept d := by simp [erasePlot]
@[simp] theorem withAccord_kept (t a) : kept (withAccord t a d) = kept d := by simp [withAccord]
@[simp] theorem setAccord_kept (id t x a) : kept (setAccord id t x a d) = kept d := by simp [setAccord]
@[simp] theorem accordAdmit_kept (id t x a) : kept (accordAdmit id t x a d) = kept d := by simp [accordAdmit]

/-! #### Transfer -/

@[simp] theorem fetchList_kept (id c) : kept (fetchList id c d) = kept d := by
  unfold fetchList
  (repeat' split) <;> simp

@[simp] theorem askList_kept (c n) : kept (askList c n d) = kept d := by
  unfold askList
  split <;> simp

@[simp] theorem askData_kept (id c segs) : kept (askData id c segs d) = kept d := by
  unfold askData
  split <;> simp

@[simp] theorem hostWrite_kept (c cmd addr key bytes) : kept (hostWrite d c cmd addr key bytes) = kept d := by
  unfold hostWrite
  (repeat' split) <;> simp

/-! #### Almanac -/

@[simp] theorem onOp_kept (i f) : kept (onOp i f d) = kept d := by simp [onOp]
@[simp] theorem dropOp_kept (i) : kept (dropOp i d) = kept d := by simp [dropOp]
@[simp] theorem onDie_kept (die f) : kept (onDie die f d) = kept d := by simp [onDie]
@[simp] theorem holdBack_kept (i o) : kept (holdBack i o d) = kept d := by simp [holdBack]
@[simp] theorem blockDie_kept (o) : kept (blockDie o d) = kept d := by simp [blockDie]
@[simp] theorem countSense_kept (die bed n) : kept (countSense die bed n d) = kept d := by simp [countSense]
@[simp] theorem takeSlot_kept (o) : kept (takeSlot o d) = kept d := by simp [takeSlot]
@[simp] theorem startOp_kept (i o) : kept (startOp i o d) = kept d := by simp [startOp]
@[simp] theorem pauseCommand_kept (opc i o) : kept (pauseCommand opc i o d) = kept d := by
  simp only [pauseCommand]
  split <;> simp

@[simp] theorem almPump_kept (die) : kept (almPump die d) = kept d := by
  simp only [almPump]
  (repeat' split) <;> simp

@[simp] theorem pumpSets_kept (die) : kept (pumpSets die d) = kept d := by simp [pumpSets]
@[simp] theorem pumpLink_kept (l) : kept (pumpLink l d) = kept d := by simp [pumpLink]
@[simp] theorem pumpAll_kept : kept (pumpAll d) = kept d := by simp [pumpAll]

/-! #### ReadPath -/

@[simp] theorem zoneLost_kept (key) : kept (zoneLost key d) = kept d := by
  simp only [zoneLost]
  (repeat' split) <;> simp

@[simp] theorem markLost_kept (row s blocks) : kept (markLost row s blocks d) = kept d := by
  simp only [markLost]
  (repeat' split) <;> simp

@[simp] theorem holdOld_kept (key place) : kept (holdOld key place d) = kept d := by simp [holdOld]
@[simp] theorem holdPos_kept (row pos old) : kept (holdPos row pos old d) = kept d := by simp [holdPos]
@[simp] theorem unhold_kept (key) : kept (unhold key d) = kept d := by simp [unhold]
@[simp] theorem onJob_kept (i f) : kept (onJob i f d) = kept d := by simp [onJob]
@[simp] theorem endJob_kept (i) : kept (endJob i d) = kept d := by simp [endJob]
@[simp] theorem deliver_kept (j g) : kept (deliver j g d) = kept d := by simp [deliver]
@[simp] theorem queueRead_kept (i retry) : kept (queueRead i retry d) = kept d := by
  simp only [queueRead]
  (repeat' split) <;> simp

@[simp] theorem newJob_kept (j) : kept (newJob j d).2 = kept d := by simp [newJob]
@[simp] theorem pumpJob_kept (i) : kept (pumpJob i d) = kept d := by
  unfold pumpJob
  (repeat' split) <;> simp

@[simp] theorem pumpRow_kept (row) : kept (pumpRow row d) = kept d := by
  unfold pumpRow
  split <;> simp

@[simp] theorem fenceCluster_kept (c) : kept (fenceCluster c d) = kept d := by simp [fenceCluster]
@[simp] theorem softGrant_kept : kept (softGrant d) = kept d := by
  simp only [softGrant]
  (repeat' split) <;> simp

theorem softSteps_kept {i : Nat} {j : Job} {e : Dev} (h : softSteps i j d = some e) : kept e = kept d := by
  simp only [softSteps] at h
  split at h
  · cases h
  split at h
  · cases h; simp
  split at h
  · cases h; simp
  · cases h

@[simp] theorem startAround_kept (i out) : kept (startAround i out d) = kept d := by
  unfold startAround
  (repeat' split) <;> simp

@[simp] theorem countRca_kept (i) : kept (countRca i d) = kept d := by
  unfold countRca
  split <;> simp

@[simp] theorem fireRca_kept (o) : kept (fireRca o d) = kept d := by
  unfold fireRca
  (repeat' split) <;> simp

@[simp] theorem rcaCheck_kept (cmd) : kept (rcaCheck cmd d) = kept d := by
  simp only [rcaCheck]
  refine kept_forAll (fun e d => ?_) _ _
  split <;> simp

@[simp] theorem countBound_kept (c) : kept (countBound c d) = kept d := by simp [countBound]
@[simp] theorem egress_kept (id c) : kept (egress id c d) = kept d := by
  unfold egress
  extract_lets stop got ok bytes tag e f ht lost st res
  have he : kept e = kept d := by simp [e]
  simp [f, he]

@[simp] theorem goOut_kept (id c) : kept (goOut id c d) = kept d := by
  unfold goOut
  split <;> simp

@[simp] theorem whenRead_kept (id) : kept (whenRead id d) = kept d := by
  unfold whenRead
  split <;> simp

@[simp] theorem jobHas_kept (i p) : kept (jobHas i p d) = kept d := by
  unfold jobHas
  split <;> simp

@[simp] theorem jobLost_kept (i) : kept (jobLost i d) = kept d := by
  unfold jobLost
  (repeat' split) <;> simp

@[simp] theorem tryRebuild_kept (i) : kept (tryRebuild i d) = kept d := by
  simp only [tryRebuild]
  split
  · rfl
  split
  · rfl
  split
  · simp
  split
  · rfl
  split
  · next h =>
    obtain ⟨x, -, hx⟩ := Option.bind_eq_some_iff.1 h
    exact softSteps_kept d hx
  · simp

@[simp] theorem jobDead_kept (i) : kept (jobDead i d) = kept d := by
  unfold jobDead
  (repeat' split) <;> simp

@[simp] theorem nextMeans_kept (i j) : kept (nextMeans i j d) = kept d := by
  unfold nextMeans
  extract_lets +onlyGivenNames wait
  split
  · simp
  split
  · next h => exact softSteps_kept d h
  · simp

@[simp] theorem startBlock_kept (id idx plot lba s) : kept (startBlock id idx plot lba s d) = kept d := by
  have hput : ∀ g, kept (onCmd id (fun c => { c with got := c.got.set idx g }) d) = kept d := by simp
  unfold startBlock
  cases s with
  | buffer p => simp only [kept_ite, hput, ite_self]
  | media row s b =>
    dsimp only
    split
    · exact hput _
    · simp
  | _ => exact hput _

@[simp] theorem startBlocks_kept (id plot first l) : kept (startBlocks id plot first l d) = kept d := by simp [startBlocks]

/-! #### Buffers -/

@[simp] theorem grantBuffer_kept (w pool ptr) : kept (grantBuffer w pool ptr d) = kept d := by simp [grantBuffer]
@[simp] theorem useGrant_kept (u) : kept (useGrant u d) = kept d := by
  unfold useGrant
  (repeat' split) <;> simp

/-! #### Zones -/

@[simp] theorem unclaim_kept (row slot) : kept (unclaim row slot d) = kept d := by
  unfold unclaim
  split <;> rfl

@[simp] theorem claim_kept (row slot) : kept (claim row slot d) = kept d := by
  unfold claim
  split <;> rfl

theorem takeShare_kept {w : Want} {e : Nat × Nat × Dev} (h : takeShare w d = some e) : kept e.2.2 = kept d := by
  unfold takeShare at h
  split at h
  · obtain ⟨s, -, rfl⟩ := Option.map_eq_some_iff.1 h
    simp
  split at h
  · split at h
    · cases h
    · obtain ⟨x, hx, rfl⟩ := Option.map_eq_some_iff.1 h
      simp [buildRow_kept d hx]
  · cases h

@[simp] theorem releaseShare_kept (plot p z v) : kept (releaseShare plot p z v d) = kept d := by
  unfold releaseShare
  (repeat' split) <;> simp

@[simp] theorem makeRoom_kept (t) : kept (makeRoom t d) = kept d := by simp [makeRoom]
theorem admitTo_kept {plot : Nat} {p : Plot} {z : Nat} {st : ZState} {desc : BitVec 512} {e : Dev} (h : admitTo plot p z st desc d = .yes e) : kept e = kept d := by
  simp only [admitTo] at h
  split at h
  · cases h
  split at h
  · cases h; simp
  split at h
  · cases h
  split at h
  · cases h
  split at h
  · cases h
  · next hs => cases h; simpa using takeShare_kept _ hs

@[simp] theorem onZone_kept (id c) (f : Plot → Dev → Dev) (hf : ∀ c d, kept (f c d) = kept d) : kept (onZone id c f d) = kept d := by
  unfold onZone; split
  · simp
  · split <;> simp [hf]

/-- What is left of ZOPEN once the zone is admitted or refused. -/
theorem admitted_kept {a : Admit} (no : Status → Nat → Dev → Dev) (yes : Dev → Dev) (hno : ∀ st r, kept (no st r d) = kept d)
    (hyes : ∀ e, a = .yes e → kept (yes e) = kept d) : kept (match a with | .no st r => no st r d | .yes e => yes e) = kept d := by
  cases a with
  | no st r => exact hno st r
  | yes e => exact hyes e rfl
@[simp] theorem zopen_kept (id c p) : kept (zopen id c p d) = kept d := by
  have hgo : kept (match admitTo (dPlot c.desc) p (dZone c.desc) .eOpen c.desc d with | .no st r => finish id st r 0xFF d | .yes d => finishOk id 0 d) = kept d := by
    split
    · simp
    · next h => simpa using admitTo_kept d h
  simp only [zopen]
  split
  any_goals simp
  all_goals exact hgo

@[simp] theorem zclose_kept (id c p) : kept (zclose id c p d) = kept d := by
  simp only [zclose]
  split <;> simp

@[simp] theorem zfinish_kept (id c p) : kept (zfinish id c p d) = kept d := by
  simp only [zfinish]
  (repeat' split) <;> simp

@[simp] theorem dropCopy_kept (plot z) : kept (dropCopy plot z d) = kept d := by
  simp only [dropCopy]
  refine kept_forAll (fun e d => ?_) _ _
  split <;> simp

@[simp] theorem dropBuffered_kept (plot lo hi) : kept (dropBuffered plot lo hi d) = kept d := by simp [dropBuffered]
@[simp] theorem zreset_kept (id c p) : kept (zreset id c p d) = kept d := by simp [zreset]
@[simp] theorem startRead_kept (id c p) : kept (startRead id c p d) = kept d := by
  simp only [startRead]
  (repeat' split) <;> simp

@[simp] theorem afterLock_kept (id) : kept (afterLock id d) = kept d := by
  unfold afterLock
  (repeat' split) <;> simp

@[simp] theorem lockRange_kept (id tenant plot first last excl) : kept (lockRange id tenant plot first last excl d) = kept d := by simp [lockRange]
@[simp] theorem withSegs_kept (id c sg) (f : List SgEntry → Dev → Dev) (hf : ∀ c d, kept (f c d) = kept d) : kept (withSegs id c sg f d) = kept d := by
  unfold withSegs; split <;> simp [hf]

@[simp] theorem readCmd_kept (id opc sg) : kept (readCmd id opc sg d) = kept d := by
  unfold readCmd
  rw [kept_withSome]
  refine option_elim_eq fun c => ?_
  rw [kept_onlyIf, withSegs_kept _ _ _ _ _ fun l d => ?_, ite_self]
  split <;> simp

@[simp] theorem writeCmd_kept (id opc sg) : kept (writeCmd id opc sg d) = kept d := by
  unfold writeCmd
  rw [kept_withSome]
  refine option_elim_eq fun c => ?_
  rw [kept_onlyIf, withSegs_kept _ _ _ _ _ fun l d => ?_, ite_self]
  split
  · simp
  simp only [kept_ite, finishErr_kept]
  split
  · rfl
  rw [ite_eq_left_iff]
  intro
  split <;> simp

/-! #### Commit -/

@[simp] theorem intoBuffer_kept (plot lba pays) : kept (intoBuffer plot lba pays d) = kept d := by simp [intoBuffer]
@[simp] theorem committed_kept (id pos n result) : kept (committed id pos n result d) = kept d := by simp [committed]
@[simp] theorem zoneWrite_kept (id plot p z c pays result) : kept (zoneWrite id plot p z c pays result d) = kept d := by
  simp only [zoneWrite]
  split <;> simp

@[simp] theorem commitZone_kept (id c data tags plot p z) : kept (commitZone id c data tags plot p z d) = kept d := by
  unfold commitZone
  extract_lets v n o off fail go
  have hfail : ∀ st r e, kept (fail st r e) = kept e := by simp [fail]
  have hgo : ∀ e, kept (go e) = kept e := by simp [go]
  split
  · exact hfail _ _ d
  · exact hfail _ _ d
  · exact hfail _ _ d
  simp only [kept_ite, hfail, hgo]
  split
  · rfl
  split
  · rfl
  split
  · rfl
  split
  · exact hfail _ _ d
  · next h => rw [hgo, admitTo_kept d h]

theorem newRegionRow_kept {plot : Nat} {p : Plot} {desc : BitVec 512} {e : Dev} (h : newRegionRow plot p desc d = some e) : kept e = kept d := by
  obtain ⟨x, hx, rfl⟩ := Option.map_eq_some_iff.1 h
  simp [buildRow_kept d hx]

@[simp] theorem regionBlock_kept (plot p lba pos life pay) : kept (regionBlock plot p lba pos life pay d) = kept d := by
  unfold regionBlock
  (repeat' split) <;> simp

@[simp] theorem commitRegion_kept (id c data tags plot p) : kept (commitRegion id c data tags plot p d) = kept d := by
  simp only [commitRegion]
  split
  · simp
  · next e h =>
    have he : kept e = kept d := by
      split at h
      · exact newRegionRow_kept d h
      · cases h; rfl
    simp [he]

@[simp] theorem writeCommit_kept (id data tags c) : kept (writeCommit id data tags c d) = kept d := by
  simp only [writeCommit]
  (repeat' split) <;> simp

@[simp] theorem writeAcknowledge_kept : kept (writeAcknowledge d) = kept d := by
  unfold writeAcknowledge
  split <;> simp

/-! #### Herarn -/

@[simp] theorem countSync_kept (l n) : kept (countSync l n d) = kept d := by simp [countSync]
@[simp] theorem countCrc_kept (l) : kept (countCrc l d) = kept d := by simp [countCrc]
@[simp] theorem hlNak_kept (l t) : kept (hlNak l t d) = kept d := by simp [hlNak]
@[simp] theorem hlAccept_kept (l t fs pay fin) : kept (hlAccept l t fs pay fin d) = kept d := by simp [hlAccept]
theorem takeFrame_kept {l : Nat} {p : HlFrame → Bool} {e : HlFrame × Dev} (h : takeFrame l p d = some e) : kept e.2 = kept d := by
  unfold takeFrame at h
  split at h
  · split at h
    · cases h; simp
    · cases h
  · cases h

@[simp] theorem onActive_kept (l) (f : Dev → Dev) (hf : ∀ d, kept (f d) = kept d) : kept (onActive l f d) = kept d := by
  simp [onActive, hf]

@[simp] theorem dropFresh_kept (die bed) : kept (dropFresh die bed d) = kept d := by simp [dropFresh]
@[simp] theorem endXpl_kept (key) : kept (endXpl key d) = kept d := by
  simp only [endXpl]
  split <;> simp

@[simp] theorem dropXpl_kept (key) : kept (dropXpl key d) = kept d := by
  unfold dropXpl
  split <;> simp

@[simp] theorem restartXpl_kept (key) : kept (restartXpl key d) = kept d := by simp [restartXpl]
@[simp] theorem restartRebuild_kept (key) : kept (restartRebuild key d) = kept d := by simp [restartRebuild]
@[simp] theorem freshLost_kept (p) : kept (freshLost p d) = kept d := by simp [freshLost]
@[simp] theorem queueRebuild_kept (row pos) : kept (queueRebuild row pos d) = kept d := by simp [queueRebuild]
@[simp] theorem queueRebuilds_kept (p) : kept (queueRebuilds p d) = kept d := by simp [queueRebuilds]
@[simp] theorem endOps_kept (p) : kept (endOps p d) = kept d := by simp [endOps]
@[simp] theorem declareFailed_kept (k i p) (f : Dev → Dev) (hf : ∀ d, kept (f d) = kept d) : kept (declareFailed k i p f d) = kept d := by
  simp [declareFailed, hf]

@[simp] theorem failDie_kept (die) : kept (failDie die d) = kept d := by simp [failDie]
@[simp] theorem failWith_kept (dies) : kept (failWith dies d) = kept d := by simp [failWith]
@[simp] theorem failGroup_kept (g t) : kept (failGroup g t d) = kept d := by simp [failGroup]
@[simp] theorem failLink_kept (l t) : kept (failLink l t d) = kept d := by simp [failLink]
@[simp] theorem retrainCheck_kept (l t) : kept (retrainCheck l t d) = kept d := by simp [retrainCheck]
@[simp] theorem wornCheck_kept (die) : kept (wornCheck die d) = kept d := by
  unfold wornCheck
  split <;> simp

@[simp] theorem retireBed_kept (die bed cause) : kept (retireBed die bed cause d) = kept d := by simp [retireBed]
@[simp] theorem wordLineSkipped_kept (die bed w) : kept (wordLineSkipped die bed w d) = kept d := by simp [wordLineSkipped]
@[simp] theorem programFailed_kept (i o) : kept (programFailed i o d) = kept d := by simp [programFailed]
@[simp] theorem sysFailed_kept (role e) : kept (sysFailed role e d) = kept d := by
  simp only [sysFailed]
  split <;> simp

@[simp] theorem replaceBed_kept (row pos) : kept (replaceBed row pos d) = kept d := by
  unfold replaceBed
  (repeat' split) <;> simp

@[simp] theorem eraseDone_kept (o) : kept (eraseDone o d) = kept d := by simp [eraseDone]
@[simp] theorem eraseFailed_kept (o) : kept (eraseFailed o d) = kept d := by simp [eraseFailed]
@[simp] theorem unanswered_kept (i) : kept (unanswered i d) = kept d := by
  unfold unanswered
  split <;> simp

@[simp] theorem jobArrived_kept (i) : kept (jobArrived i d) = kept d := by
  unfold jobArrived
  (repeat' split) <;> simp

@[simp] theorem useTime_kept (o us) : kept (useTime o us d) = kept d := by simp [useTime]
@[simp] theorem writeGuard_kept (o b i) : kept (writeGuard o b i d) = kept d := by
  unfold writeGuard
  split <;> simp

@[simp] theorem writeGuards_kept (o) : kept (writeGuards o d) = kept d := by
  simp only [writeGuards]
  split
  · rfl
  split
  · refine kept_forAll (fun e d => ?_) _ _
    split <;> simp
  · rfl

@[simp] theorem opAnswered_kept (i o ok busy) : kept (opAnswered i o ok busy d) = kept d := by
  unfold opAnswered
  (repeat' split) <;> simp

@[simp] theorem dieTrouble_kept (l target t) : kept (dieTrouble l target t d) = kept d := by simp [dieTrouble]
@[simp] theorem retryRebuilds_kept : kept (retryRebuilds d) = kept d := by simp [retryRebuilds]
@[simp] theorem dieBack_kept (die) : kept (dieBack die d) = kept d := by simp [dieBack]
@[simp] theorem linkReturns_kept (l) : kept (linkReturns l d) = kept d := by
  simp only [linkReturns]
  split
  · rfl
  · rw [retryRebuilds_kept, kept_forAll (fun i d => by split <;> simp)]
    simp

@[simp] theorem geometryDone_kept (l geo) : kept (geometryDone l geo d) = kept d := by simp [geometryDone]
@[simp] theorem hlAnswer_kept (l otag o pay t) : kept (hlAnswer l otag o pay t d) = kept d := by
  unfold hlAnswer
  extract_lets st die e
  have he : kept e = kept d := by simp [e]
  (repeat' split) <;> simp [he]

@[simp] theorem noteTemp_kept (l pay) : kept (noteTemp l pay d) = kept d := by simp [noteTemp]
@[simp] theorem groupP1_kept (g t) : kept (groupP1 g t d) = kept d := by simp [groupP1]
@[simp] theorem parkAcked_kept (l t) : kept (parkAcked l t d) = kept d := by simp [parkAcked]
@[simp] theorem lctlAct_kept (l t code ack) : kept (lctlAct l t code ack d) = kept d := by simp [lctlAct]
@[simp] theorem breakFrame_kept (l t nak) : kept (breakFrame l t nak d) = kept d := by
  unfold breakFrame
  split <;> simp

@[simp] theorem feIn_kept (l t fin) : kept (feIn l t fin d) = kept d := by
  unfold feIn
  split <;> simp

@[simp] theorem fsIn_kept (l fs) : kept (fsIn l fs d) = kept d := by simp [fsIn]
@[simp] theorem lctlIn_kept (l t blk) : kept (lctlIn l t blk d) = kept d := by simp [lctlIn]
@[simp] theorem dataIn_kept (l x) : kept (dataIn l x d) = kept d := by
  unfold dataIn
  split <;> simp

@[simp] theorem ctlIn_kept (l t x) : kept (ctlIn l t x d) = kept d := by simp [ctlIn]
@[simp] theorem hlBlock_kept (l t b) : kept (hlBlock l t b d) = kept d := by
  unfold hlBlock
  (repeat' split) <;> simp

@[simp] theorem loseLock_kept (l t) : kept (loseLock l t d) = kept d := by simp [loseLock]
@[simp] theorem hlBlocks_kept (l t blocks) : kept (hlBlocks l t blocks d) = kept d := by
  simp only [hlBlocks]
  split <;> simp

@[simp] theorem lctlArrives_kept (l code t blocks) : kept (lctlArrives l code t blocks d) = kept d := by simp [lctlArrives]
@[simp] theorem blameExit_kept (l t) : kept (blameExit l t d) = kept d := by simp [blameExit]
@[simp] theorem lctrl_kept (p l b ok) (f : Dev → Dev) (hf : ∀ d, kept (f d) = kept d) : kept (lctrl p l b ok f d) = kept d := by
  simp [lctrl, hf]

@[simp] theorem lctrlRetrain_kept (link t) : kept (lctrlRetrain link t d) = kept d := by simp [lctrlRetrain]
@[simp] theorem lctrlFull_kept (link t) : kept (lctrlFull link t d) = kept d := by simp [lctrlFull]

/-! #### Decoder -/

@[simp] theorem noteBits_kept (g bits) : kept (noteBits g bits d) = kept d := by simp [noteBits]
@[simp] theorem earlyWarn_kept (j r bits) : kept (earlyWarn j r bits d) = kept d := by simp [earlyWarn]
@[simp] theorem guardFailed_kept (i j r) : kept (guardFailed i j r d) = kept d := by simp [guardFailed]
@[simp] theorem recovered_kept (j) : kept (recovered j d) = kept d := by simp [recovered]
@[simp] theorem decodedJob_kept (i j r guard) : kept (decodedJob i j r guard d) = kept d := by
  unfold decodedJob
  split <;> simp

@[simp] theorem failedJob_kept (i j r) : kept (failedJob i j r d) = kept d := by simp [failedJob]
@[simp] theorem clusterFault_kept (c t) : kept (clusterFault c t d) = kept d := by simp [clusterFault]
@[simp] theorem decodeDone_kept (i j r res t) : kept (decodeDone i j r res t d) = kept d := by
  simp only [decodeDone]
  split <;> simp

/-! #### Moves -/

@[simp] theorem queueReads_kept (w row pages) : kept (queueReads w row pages d) = kept d := by simp [queueReads]
@[simp] theorem queueStripe_kept (w row s n) : kept (queueStripe w row s n d) = kept d := by simp [queueStripe]
@[simp] theorem queueFresh_kept (w row pos die bed pages) : kept (queueFresh w row pos die bed pages d) = kept d := by simp [queueFresh]
@[simp] theorem siblingSenses_kept (row bad) : kept (siblingSenses row bad d) = kept d := by
  unfold siblingSenses
  split <;> simp

@[simp] theorem layStripe_kept (row slot rank blocks) : kept (layStripe row slot rank blocks d) = kept d := by
  unfold layStripe
  split <;> simp

@[simp] theorem tailBlocks_kept (row slot from_ pays) : kept (tailBlocks row slot from_ pays d) = kept d := by simp [tailBlocks]
@[simp] theorem layZone_kept (c p bad) : kept (layZone c p bad d) = kept d := by
  unfold layZone
  split <;> simp

@[simp] theorem endZone_kept (c p tail) : kept (endZone c p tail d) = kept d := by
  unfold endZone
  split <;> simp

@[simp] theorem dropStripes_kept (row slot) : kept (dropStripes row slot d) = kept d := by simp [dropStripes]
@[simp] theorem switchZone_kept (c p bad) : kept (switchZone c p bad d) = kept d := by simp [switchZone]
@[simp] theorem layRegion_kept (c bad) : kept (layRegion c bad d) = kept d := by
  unfold layRegion
  split <;> simp

@[simp] theorem switchRegion_kept (c bad) : kept (switchRegion c bad d).2 = kept d := by
  unfold switchRegion
  split <;> simp

@[simp] theorem oldBed_kept (row die bed cause next) : kept (oldBed row die bed cause next d) = kept d := by simp [oldBed]
theorem freshBed_kept {row : Nat} {r : Row} {pos : Nat} {e : Nat × Nat × Dev} (h : freshBed row r pos d = some e) : kept e.2.2 = kept d := by
  unfold freshBed at h
  split at h
  · cases h; simp
  split at h
  · cases h
  split at h
  · cases h
  · cases h; simp

@[simp] theorem copyPages_kept (row pos die bed bad) : kept (copyPages row pos die bed bad d) = kept d := by
  simp only [copyPages]
  split
  · rfl
  refine kept_forAll (fun s d => kept_forAll (fun e d => ?_) _ _) _ _
  split <;> simp

@[simp] theorem installBed_kept (row pos die bed) : kept (installBed row pos die bed d) = kept d := by
  simp only [installBed]
  split <;> simp

/-! #### Media -/

@[simp] theorem stockErases_kept : kept (stockErases d) = kept d := by
  unfold stockErases
  split
  · rfl
  refine kept_forAll (fun e d => ?_) _ _
  split
  · split <;> simp
  · rfl

@[simp] theorem wornBeds_kept : kept (wornBeds d) = kept d := by simp [wornBeds]
@[simp] theorem onXpl_kept (key f) : kept (onXpl key f d) = kept d := by simp [onXpl]
@[simp] theorem onRebuild_kept (key f) : kept (onRebuild key f d) = kept d := by simp [onRebuild]
@[simp] theorem startXpls_kept : kept (startXpls d) = kept d := by
  simp only [startXpls]
  refine kept_forAll (fun e d => ?_) _ _
  split
  · simp
  split
  · rfl
  split
  · simp
  · next h => simpa using freshBed_kept d h

@[simp] theorem writeXpls_kept : kept (writeXpls d) = kept d := by
  unfold writeXpls
  refine kept_forAll (fun e d => ?_) _ _
  split <;> simp

@[simp] theorem startRebuilds_kept : kept (startRebuilds d) = kept d := by
  simp only [startRebuilds]
  refine kept_forAll (fun e d => ?_) _ _
  split
  · simp
  split
  · rfl
  split
  · next h => simpa using freshBed_kept d h
  · simp

@[simp] theorem writeRebuilds_kept : kept (writeRebuilds d) = kept d := by
  unfold writeRebuilds
  refine kept_forAll (fun e d => ?_) _ _
  split <;> simp

@[simp] theorem weedMargins_kept : kept (weedMargins d) = kept d := by simp [weedMargins]
theorem moveShare_kept {w : Want} {src : Nat} {e : Nat × Nat × Dev} (h : moveShare w src d = some e) : kept e.2.2 = kept d := by
  unfold moveShare at h
  split at h
  · obtain ⟨s, -, rfl⟩ := Option.map_eq_some_iff.1 h
    simp
  · obtain ⟨x, hx, rfl⟩ := Option.map_eq_some_iff.1 h
    simp [buildRow_kept d hx]

@[simp] theorem eraseDest_kept (row) : kept (eraseDest row d) = kept d := by
  unfold eraseDest
  (repeat' split) <;> simp

theorem beginCopy_kept {plot : Nat} {p : Plot} {zone : Nat} {z : Zone} {src : Nat} {r : Row} {kind : Nat} {e : Dev}
    (h : beginCopy plot p zone z src r kind d = some e) : kept e = kept d := by
  obtain ⟨x, hx, rfl⟩ := Option.map_eq_some_iff.1 h
  simp [moveShare_kept d hx]

theorem regionDest_kept {plot : Nat} {p : Plot} {r : Row} {e : Nat × Dev} (h : regionDest plot p r d = some e) : kept e.2 = kept d := by
  simp only [regionDest] at h
  split at h
  · cases h; simp
  · obtain ⟨x, hx, rfl⟩ := Option.map_eq_some_iff.1 h
    simp [buildRow_kept d hx]

@[simp] theorem regionNext_kept (key c) : kept (regionNext key c d) = kept d := by simp [regionNext]
theorem beginRegion_kept {plot : Nat} {p : Plot} {src : Nat} {r : Row} {kind : Nat} {e : Dev}
    (h : beginRegion plot p src r kind d = some e) : kept e = kept d := by
  obtain ⟨x, hx, rfl⟩ := Option.map_eq_some_iff.1 h
  simp [regionDest_kept d hx]

@[simp] theorem dropXpls_kept (row) : kept (dropXpls row d) = kept d := by simp [dropXpls]
theorem beginCopies_kept {α : Type} (f : α → Dev → Option Dev) (hf : ∀ x d e, f x d = some e → kept e = kept d) (l : List α) (o : Option Dev)
    {e : Dev} (h : l.foldl (fun o x => o.bind (f x)) o = some e) : ∃ d, o = some d ∧ kept e = kept d := by
  induction l generalizing o with
  | nil => exact ⟨e, h, rfl⟩
  | cons x l ih =>
    obtain ⟨d', hd, hk⟩ := ih _ h
    obtain ⟨d, hd0, hx⟩ := Option.bind_eq_some_iff.1 hd
    exact ⟨d, hd0, hk.trans (hf x d d' hx)⟩
@[simp] theorem beginPass_kept (row r) : kept (beginPass row r d) = kept d := by
  simp only [beginPass]
  split
  · rfl
  split
  · rfl
  · next e h =>
    have he : kept e = kept d := by
      split at h
      · exact beginRegion_kept d h
      · obtain ⟨d', hd, hk⟩ := beginCopies_kept (fun x d => beginCopy _ _ _ _ _ _ _ d) (fun x d e hx => beginCopy_kept d hx) _ _ h
        cases hd; exact hk
    simp [he]

@[simp] theorem startWeeding_kept : kept (startWeeding d) = kept d := by
  simp only [startWeeding]
  (repeat' split) <;> simp

@[simp] theorem graftDone_kept (plot) : kept (graftDone plot d) = kept d := by
  unfold graftDone
  split <;> simp

@[simp] theorem switchOver_kept (plot) : kept (switchOver plot d) = kept d := by
  unfold switchOver
  split <;> simp

@[simp] theorem graftWait_kept (plot g w) : kept (graftWait plot g w d) = kept d := by simp [graftWait]
@[simp] theorem startGrafts_kept : kept (startGrafts d) = kept d := by
  simp only [startGrafts]
  refine kept_forAll (fun e d => ?_) _ _
  split
  · rfl
  split
  · rfl
  split
  · simp
  split
  · rfl
  split
  · rfl
  split
  · next e h =>
    have he : kept e = kept d := by
      split at h
      · simpa using beginRegion_kept _ h
      · simpa using beginCopy_kept _ h
    simp [he]
  · simp

@[simp] theorem writeCopy_kept (key c) : kept (writeCopy key c d) = kept d := by
  unfold writeCopy
  split <;> simp

@[simp] theorem writeCopies_kept : kept (writeCopies d) = kept d := by simp [writeCopies]
@[simp] theorem startBackground_kept : kept (startBackground d) = kept d := by simp [startBackground]
@[simp] theorem passDone_kept (row r) : kept (passDone row r d) = kept d := by simp [passDone]
@[simp] theorem endPass_kept : kept (endPass d) = kept d := by
  unfold endPass
  (repeat' split) <;> simp

@[simp] theorem doCopy_kept (key c bad) : kept (doCopy key c bad d) = kept d := by
  unfold doCopy
  split <;> simp

@[simp] theorem weedSwitch_kept (bad) : kept (weedSwitch bad d) = kept d := by
  unfold weedSwitch
  (repeat' split) <;> simp

@[simp] theorem graftSwitch_kept (key c bad) : kept (graftSwitch key c bad d) = kept d := by simp [graftSwitch]
@[simp] theorem transplantSwitch_kept (row pos x r bad) : kept (transplantSwitch row pos x r bad d) = kept d := by simp [transplantSwitch]
@[simp] theorem resumePrograms_kept (row pos) : kept (resumePrograms row pos d) = kept d := by
  unfold resumePrograms
  split <;> simp

@[simp] theorem rebuildReplace_kept (row pos b r bad) : kept (rebuildReplace row pos b r bad d) = kept d := by simp [rebuildReplace]
@[simp] theorem freeBed_kept (o) : kept (freeBed o d) = kept d := by simp [freeBed]
@[simp] theorem freeOld_kept (row) : kept (freeOld row d) = kept d := by simp [freeOld]
@[simp] theorem dropRebuild_kept (key) : kept (dropRebuild key d) = kept d := by
  unfold dropRebuild
  split <;> simp

@[simp] theorem freeRow_kept (row r) : kept (freeRow row r d) = kept d := by simp [freeRow]
@[simp] theorem rowReadsDrained_kept (row) : kept (rowReadsDrained row d) = kept d := by
  unfold rowReadsDrained; split <;> simp

/-! #### Patrol -/

@[simp] theorem patrolPeriod_kept (t) : kept (patrolPeriod t d) = kept d := by simp [patrolPeriod]
@[simp] theorem patrolTake_kept (row) : kept (patrolTake row d) = kept d := by simp [patrolTake]
@[simp] theorem startPatrol_kept (t) : kept (startPatrol t d) = kept d := by
  unfold startPatrol
  extract_lets e
  have he : kept e = kept d := patrolPeriod_kept d t
  split
  · exact he
  split
  · exact he
  · next row h =>
    have hf : kept (patrolTake row e) = kept d := by simp [he]
    rw [kept_ite, hf]
    split
    · rfl
    split
    · exact hf
    · simp [he]

@[simp] theorem located_kept (row r s q c pos) : kept (located row r s q c pos d) = kept d := by simp [located]
@[simp] theorem patrolColumn_kept (row r s q c bad sp sq) : kept (patrolColumn row r s q c bad sp sq d) = kept d := by
  simp only [patrolColumn]
  split
  · simp
  refine kept_forAll (fun pos d => ?_) _ _
  split
  · simp
  split <;> simp

@[simp] theorem patrolEnd_kept (row r) : kept (patrolEnd row r d) = kept d := by simp [patrolEnd]
@[simp] theorem patrolStripe_kept (row s r bits bad sp sq) : kept (patrolStripe row s r bits bad sp sq d) = kept d := by simp [patrolStripe]
@[simp] theorem almanacSlot_kept (t) : kept (almanacSlot t d) = kept d := by simp [almanacSlot]
@[simp] theorem effHoursTick_kept : kept (effHoursTick d) = kept d := by
  unfold effHoursTick
  exact kept_forAll (fun e d => by split <;> simp) _ _

@[simp] theorem retentionCheck_kept : kept (retentionCheck d) = kept d := by simp [retentionCheck]
@[simp] theorem levellingTick_kept : kept (levellingTick d) = kept d := by simp [levellingTick]
@[simp] theorem eolTick_kept : kept (eolTick d) = kept d := by
  simp only [eolTick]
  split <;> simp

@[simp] theorem medWake_kept (before t) : kept (medWake before t d) = kept d := by simp [medWake]

/-! #### SilCore -/

@[simp] theorem onSil_kept (f : Sil → Sil) (h : ∀ s, (f s).tokens = s.tokens ∧ (f s).head = s.head ∧ (f s).rseq = s.rseq ∧ (f s).slots = s.slots) :
    kept (onSil f d) = kept d := by
  obtain ⟨ht, hh, hr, hs⟩ := h d.sil
  simp only [onSil, kept, ht, hh, hr, hs]

@[simp] theorem silLose_kept (cause n ty) : kept (silLose cause n ty d) = kept d := by simp [silLose]
@[simp] theorem silShed_kept : kept (silShed d) = kept d := by simp [silShed]

/-! #### Stop -/

@[simp] theorem layRows_kept : ∀ (rows : List (Nat × Row)) (l : List (Option Nat × Payload)) (d : Dev), kept (layRows rows l d) = kept d
  | [], _, _ => by simp [layRows]
  | _ :: _, [], _ => by simp [layRows]
  | e :: rows, b :: l, d => by simp [layRows, layRows_kept rows]

@[simp] theorem layFlush_kept (keep) : kept (layFlush keep d) = kept d := by simp [layFlush]
@[simp] theorem leave_kept (r) : kept (leave r d) = kept d := by simp [leave]
@[simp] theorem programTail_kept : kept (programTail d) = kept d := by
  unfold programTail
  split <;> rfl

@[simp] theorem vout_kept (n mv) : kept (vout n mv d) = kept d := by simp [vout]
@[simp] theorem vddcSet_kept (mv) : kept (vddcSet mv d) = kept d := by simp [vddcSet]
@[simp] theorem onKpr_kept (f : Kpr → Kpr) (h : ∀ s, (f s).pwrcyc = s.pwrcyc) : kept (onKpr f d) = kept d := by
  simp only [onKpr, kept, h]

@[simp] theorem railsUp_kept (t) : kept (railsUp t d) = kept d := by simp [railsUp]
@[simp] theorem railsDown_kept (t) : kept (railsDown t d) = kept d := by
  simp only [railsDown]
  split <;> simp

@[simp] theorem tripWait_kept (cause t) : kept (tripWait cause t d) = kept d := by simp [tripWait]
@[simp] theorem calAbort_kept (reason t) : kept (calAbort reason t d) = kept d := by simp [calAbort]
@[simp] theorem lockVhold_kept (on) : kept (lockVhold on d) = kept d := by simp [lockVhold]
@[simp] theorem pfActions_kept : kept (pfActions d) = kept d := rfl
@[simp] theorem sequenceLost_kept : kept (sequenceLost d) = kept d := by simp [sequenceLost]
@[simp] theorem sensorsFresh_kept : kept (sensorsFresh d) = kept d := by simp [sensorsFresh]
@[simp] theorem strapEvents_kept : kept (strapEvents d) = kept d := by simp [strapEvents]
@[simp] theorem rootPllLock_kept (t) : kept (rootPllLock t d) = kept d := by simp [rootPllLock]
@[simp] theorem ignoreRequest_kept : kept (ignoreRequest d) = kept d := by simp [ignoreRequest]
@[simp] theorem kprCtrl_kept (p) (f : Dev → Dev) (hf : ∀ d, kept (f d) = kept d) : kept (kprCtrl p f d) = kept d := by
  simp [kprCtrl, hf]

@[simp] theorem beginCkpt_kept (t) : kept (beginCkpt t d) = kept d := by simp [beginCkpt]
@[simp] theorem eraseSys_kept : kept (eraseSys d) = kept d := by simp [eraseSys]
@[simp] theorem journalPair_kept : kept (journalPair d) = kept d := by
  simp only [journalPair]
  split <;> simp

@[simp] theorem growJournal_kept : ∀ (n : Nat) (d : Dev), kept (growJournal n d) = kept d
  | 0, _ => rfl
  | n + 1, d => by simp [growJournal, growJournal_kept n]

@[simp] theorem freeSysRow_kept (row r) : kept (freeSysRow row r d) = kept d := by simp [freeSysRow]
@[simp] theorem trimPairs_kept : ∀ (n : Nat) (d : Dev), kept (trimPairs n d) = kept d
  | 0, _ => rfl
  | n + 1, d => by unfold trimPairs; split <;> simp [trimPairs_kept n]

@[simp] theorem settleArea_kept : kept (settleArea d) = kept d := by simp [settleArea]
@[simp] theorem endCkpt_kept : kept (endCkpt d) = kept d := by
  simp only [endCkpt]
  (repeat' split) <;> simp

/-! #### Holdup -/

@[simp] theorem armList_kept : kept (armList d) = kept d := by simp [armList]
@[simp] theorem bleedOn_kept : kept (bleedOn d) = kept d := by simp [bleedOn]
@[simp] theorem setCeiling_kept (t) : kept (setCeiling t d) = kept d := by simp [setCeiling]
@[simp] theorem startCal_kept (soft) : kept (startCal soft d) = kept d := by simp [startCal]
@[simp] theorem calOver_kept : kept (calOver d) = kept d := by simp [calOver]
@[simp] theorem noteCap_kept (uf) : kept (noteCap uf d) = kept d := by simp [noteCap]
@[simp] theorem hldCalDone_kept (cap esr t) : kept (hldCalDone cap esr t d) = kept d := by simp [hldCalDone]
@[simp] theorem adcSample_kept (chan code) : kept (adcSample chan code d) = kept d := by simp [adcSample]

/-! #### Startup -/

@[simp] theorem toPhase_kept (n) : kept (toPhase n d) = kept d := by simp [toPhase]
@[simp] theorem bootVerifyDone_kept (a b pools t) : kept (bootVerifyDone a b pools t d) = kept d := by
  unfold bootVerifyDone
  extract_lets +onlyGivenNames order
  split <;> simp

@[simp] theorem noteWear_kept (die valid) : kept (noteWear die valid d) = kept d := by simp [noteWear]
@[simp] theorem discoverDie_kept (noWear die) : kept (discoverDie noWear die d) = kept d := by
  simp only [discoverDie]
  (repeat' split) <;> simp

@[simp] theorem settleDie_kept (die) : kept (settleDie die d) = kept d := by
  simp only [settleDie]
  split <;> simp

@[simp] theorem wornAgain_kept (die) : kept (wornAgain die d) = kept d := by simp [wornAgain]
@[simp] theorem ckptRow_kept : kept (ckptRow d) = kept d := by
  simp only [ckptRow]
  split <;> simp

@[simp] theorem growCkpt_kept : ∀ (n : Nat) (d : Dev), kept (growCkpt n d) = kept d
  | 0, _ => rfl
  | n + 1, d => by simp [growCkpt, growCkpt_kept n]

@[simp] theorem rescueForm_kept (w : Want) (n : Nat) : ∀ (fuel : Nat) (gs : List (List Nat)) (d : Dev), kept (rescueForm w n fuel gs d) = kept d
  | 0, _, _ => rfl
  | fuel + 1, gs, d => by unfold rescueForm; split <;> simp [rescueForm_kept w n fuel]

@[simp] theorem makeRescue_kept : kept (makeRescue d) = kept d := by simp [makeRescue]
@[simp] theorem goReady_kept (t) : kept (goReady t d) = kept d := by simp [goReady]
@[simp] theorem format_kept (t) : kept (format t d) = kept d := by simp [format]
@[simp] theorem discovered_kept (noWear clusters) : kept (discovered noWear clusters d) = kept d := by simp [discovered]
@[simp] theorem checkpointLoadDone_kept (ok0 ok1) : kept (checkpointLoadDone ok0 ok1 d) = kept d := by
  simp only [checkpointLoadDone]
  split <;> simp

/-! #### Recovery -/

@[simp] theorem reconcileKeys_kept : kept (reconcileKeys d) = kept d := by simp [reconcileKeys]
@[simp] theorem journalReplayDone_kept (gap repaired unknown) : kept (journalReplayDone gap repaired unknown d) = kept d := by simp [journalReplayDone]
@[simp] theorem ownStripes_kept (row r) : kept (ownStripes row r d) = kept d := by simp [ownStripes]
@[simp] theorem loseBlocks_kept (row slot os) : kept (loseBlocks row slot os d) = kept d := by
  unfold loseBlocks
  refine kept_forAll (fun e d => ?_) _ _
  split <;> simp

@[simp] theorem shortZone_kept (key v miss) : kept (shortZone key v miss d) = kept d := by
  simp only [shortZone]
  (repeat' split) <;> simp

@[simp] theorem prefixZone_kept (key v miss) : kept (prefixZone key v miss d) = kept d := by
  simp only [prefixZone]
  (repeat' split) <;> simp

@[simp] theorem rescuedLost_kept : kept (rescuedLost d) = kept d := by
  unfold rescuedLost
  refine kept_forAll (fun e d => ?_) _ _
  split
  · rfl
  split
  · split <;> simp
  · simp

@[simp] theorem rescueAgain_kept : kept (rescueAgain d) = kept d := by simp [rescueAgain]
@[simp] theorem foundBlock_kept (row r slot rank s b) : kept (foundBlock row r slot rank s b d).2.2 = kept d := by
  simp only [foundBlock]
  (repeat' split) <;> simp

@[simp] theorem foundStripe_kept (row r slot rank s n) : kept (foundStripe row r slot rank s n d).2 = kept d := by
  have hfold : ∀ (l : List Nat) (a : Stripe × Dev), kept (l.foldl (fun (a : Stripe × Dev) b =>
      let y := foundBlock row r slot rank s b a.2
      (addBlock (theProfile r.profile) r.k b slot rank y.1 y.2.1 d.io.now a.1, y.2.2)) a).2 = kept a.2 := by
    intro l
    induction l with
    | nil => intro a; rfl
    | cons b l ih => intro a; rw [List.foldl_cons, ih]; exact foundBlock_kept _ _ _ _ _ _ _
  exact hfold _ _

@[simp] theorem resumeRow_kept (row r) : kept (resumeRow row r d) = kept d := by simp [resumeRow]
@[simp] theorem eraseBlank_kept (r) : kept (eraseBlank r d) = kept d := by simp [eraseBlank]
@[simp] theorem recount_kept (row) : kept (recount row d) = kept d := by simp [recount]
@[simp] theorem condemnDead_kept : kept (condemnDead d) = kept d := by simp [condemnDead]
@[simp] theorem restoreSets_kept : kept (restoreSets d) = kept d := by simp [restoreSets]
@[simp] theorem diesBack_kept : kept (diesBack d) = kept d := by simp [diesBack]
@[simp] theorem xplAgain_kept (row pos r) : kept (xplAgain row pos r d) = kept d := by simp [xplAgain]
@[simp] theorem membersGone_kept : kept (membersGone d) = kept d := by simp [membersGone]
@[simp] theorem rescueIntakeDone_kept (t) : kept (rescueIntakeDone t d) = kept d := by
  unfold rescueIntakeDone
  extract_lets +onlyGivenNames r short m1 s1 c1 d1 d2 miss reg s2 d3 d4 d5 k d6 a s3 d7 c2 d8 d9 d10 d11 d12
  have h3 : kept d3 = kept d := by simp [d3, d2, d1]
  have h4 : kept d4 = kept d := (kept_forAll (fun e d => by split <;> simp) _ _).trans h3
  have h6 : kept d6 = kept d := by simp [d6, k, d5, h4]
  have h11 : kept d11 = kept d := by simp [d11, d10, d9, d8, d7, h6]
  have h12 : kept d12 = kept d := (kept_forAll (fun i d => by split <;> simp) _ _).trans h11
  simp [h12]

/-! #### Integrity -/

@[simp] theorem onEcc_kept (f) : kept (onEcc f d) = kept d := by simp [onEcc]
@[simp] theorem pushErr_kept (r) : kept (pushErr r d).2 = kept d := by
  unfold pushErr
  (repeat' split) <;> simp

@[simp] theorem bufferHit_kept (pos) : kept (bufferHit pos d) = kept d := by
  simp only [bufferHit]
  (repeat' split) <;> simp

@[simp] theorem poolHit_kept (pool ptr) : kept (poolHit pool ptr d) = kept d := by simp [poolHit]
@[simp] theorem listHit_kept : kept (listHit d) = kept d := by simp [listHit]

/-! #### Security -/

@[simp] theorem onSec_kept (f : Sec → Sec) (h : ∀ s, (f s).epoch = s.epoch) : kept (onSec f d) = kept d := by
  simp only [onSec, kept, h]

@[simp] theorem tmxCheck_kept : kept (tmxCheck d) = kept d := by simp [tmxCheck]
@[simp] theorem levelRaised_kept : kept (levelRaised d) = kept d := by simp [levelRaised]
@[simp] theorem freshNonce_kept : kept (freshNonce d) = kept d := by simp [freshNonce]
@[simp] theorem commitKey_kept (b k) (put : Sec → Sec) (h : ∀ s, (put s).epoch = s.epoch) : kept (commitKey b k put d) = kept d := by
  simp [commitKey, h]

@[simp] theorem cmdEnd_kept (cmd result reason) : kept (cmdEnd cmd result reason d) = kept d := by simp [cmdEnd]
@[simp] theorem signedCmd_kept (c ok m key) (f : Dev → Dev) (hf : ∀ d, kept (f d) = kept d) : kept (signedCmd c ok m key f d) = kept d := by
  unfold signedCmd
  split
  · simp
  split
  · simp
  split
  · simp
  split
  · simp
  · simp [hf]

@[simp] theorem onSecCmd_kept (p v n) (f : Dev → Dev) (hf : ∀ d, kept (f d) = kept d) : kept (onSecCmd p v n f d) = kept d := by
  simp [onSecCmd, hf]

/-! #### Scu -/

@[simp] theorem onScu_kept (f) : kept (onScu f d) = kept d := by simp [onScu]
@[simp] theorem scuFree_kept : kept (scuFree d) = kept d := by simp [scuFree]
@[simp] theorem scuStart_kept (op) : kept (scuStart op d) = kept d := by simp [scuStart]
@[simp] theorem onScuStart_kept (path v n) : kept (onScuStart path v n d) = kept d := by simp [onScuStart]

/-! #### Power -/

@[simp] theorem takeLevel_kept (l) : kept (takeLevel l d) = kept d := by simp [takeLevel]
@[simp] theorem startMove_kept (l up) : kept (startMove l up d) = kept d := by simp [startMove]
@[simp] theorem moveTo_kept (l) : kept (moveTo l d) = kept d := by simp [moveTo]
@[simp] theorem steer_kept : kept (steer d) = kept d := by
  unfold steer
  split <;> simp

@[simp] theorem padRelease_kept : kept (padRelease d) = kept d := by simp [padRelease]
@[simp] theorem linksInto_kept (frm to_) : kept (linksInto frm to_ d) = kept d := by simp [linksInto]
@[simp] theorem enterS2_kept : kept (enterS2 d) = kept d := by simp [enterS2]
@[simp] theorem sleepEntered_kept (t) : kept (sleepEntered t d) = kept d := by
  unfold sleepEntered
  split <;> simp

@[simp] theorem blameAll_kept (p frm t) : kept (blameAll p frm t d) = kept d := by
  unfold blameAll
  refine kept_forAll (fun e d => ?_) _ _
  split <;> simp

@[simp] theorem sleepLeft_kept (t) : kept (sleepLeft t d) = kept d := by
  unfold sleepLeft
  split <;> simp

@[simp] theorem startPark_kept (u t) : kept (startPark u t d) = kept d := by simp [startPark]
@[simp] theorem parkEntered_kept (r t) : kept (parkEntered r t d) = kept d := by
  unfold parkEntered
  split <;> simp

@[simp] theorem requestS3_kept : kept (requestS3 d) = kept d := by simp [requestS3]

/-! #### Thermal -/

@[simp] theorem onThm_kept (f) : kept (onThm f d) = kept d := by simp [onThm]
@[simp] theorem failMain_kept (i) : kept (failMain i d) = kept d := by simp [failMain]
@[simp] theorem failPower_kept (n) : kept (failPower n d) = kept d := by simp [failPower]
@[simp] theorem noteReading_kept (i temp t) : kept (noteReading i temp t d) = kept d := by simp [noteReading]
@[simp] theorem warnCheck_kept (i main temp t) : kept (warnCheck i main temp t d) = kept d := by
  unfold warnCheck
  (repeat' split) <;> simp

@[simp] theorem rateCheck_kept (i) : kept (rateCheck i d) = kept d := by simp [rateCheck]
@[simp] theorem fallOne_kept (t) : kept (fallOne t d) = kept d := by simp [fallOne]
@[simp] theorem fallToward_kept (t) : kept (fallToward t d) = kept d := by simp [fallToward]
@[simp] theorem rateAction_kept (i t) : kept (rateAction i t d) = kept d := by simp [rateAction]
@[simp] theorem throttleCheck_kept (t) : kept (throttleCheck t d) = kept d := by simp [throttleCheck]
@[simp] theorem ceilingCheck_kept (t) : kept (ceilingCheck t d) = kept d := by simp [ceilingCheck]
@[simp] theorem orderlyStop_kept (i temp proj t) : kept (orderlyStop i temp proj t d) = kept d := by simp [orderlyStop]
@[simp] theorem hbmSample_kept (temp t) : kept (hbmSample temp t d) = kept d := by simp [hbmSample]
@[simp] theorem notePower_kept (rails vinMw t) : kept (notePower rails vinMw t d) = kept d := by simp [notePower]
@[simp] theorem elecCheck_kept (vddcMa t) : kept (elecCheck vddcMa t d) = kept d := by simp [elecCheck]
@[simp] theorem sprintCheck_kept (busy t) : kept (sprintCheck busy t d) = kept d := by
  unfold sprintCheck
  extract_lets slack e
  have he : kept e = kept d := by simp [e]
  split <;> simp [he]

@[simp] theorem onAge_kept (f) : kept (onAge f d) = kept d := by simp [onAge]

/-! #### Sillage -/

@[simp] theorem mainRecordStore_kept (busy) : kept (mainRecordStore busy d) = kept d := by
  unfold mainRecordStore
  extract_lets e f
  have he : kept e = kept d := by
    unfold e
    split
    · rfl
    · rw [onSil_kept]
      intro s
      split <;> simp
  split
  · exact he
  · split <;> simp [f, he]

@[simp] theorem onSilPath_kept (p f) : kept (onSilPath p f d) = kept d := by
  unfold onSilPath
  split <;> rfl

@[simp] theorem silWord_kept (p w) : kept (silWord p w d).2 = kept d := by simp [silWord]
@[simp] theorem silWindowRead_kept (p w) : kept (silWindowRead p w d) = kept d := by simp [silWindowRead]
@[simp] theorem silClearGo_kept : kept (silClearGo d) = kept d := by
  unfold silClearGo
  split <;> rfl

/-! #### Smt -/

@[simp] theorem onSmt_kept (f) : kept (onSmt f d) = kept d := by simp [onSmt]
@[simp] theorem rxFrame_kept (i t) (f : Dev → Dev) (hf : ∀ d, kept (f d) = kept d) : kept (rxFrame i t f d) = kept d := by
  simp [rxFrame, hf]

@[simp] theorem dropOther_kept : kept (dropOther d) = kept d := by simp [dropOther]
@[simp] theorem rxTagged_kept (i t vl) (f : Dev → Dev) (hf : ∀ d, kept (f d) = kept d) : kept (rxTagged i t vl f d) = kept d := by
  simp [rxTagged, hf]

@[simp] theorem quiet_kept (i k) : kept (quiet i k d) = kept d := by simp [quiet]
@[simp] theorem smtFail_kept (i k reason) : kept (smtFail i k reason d) = kept d := by simp [smtFail]
@[simp] theorem smtShut_kept (i k) : kept (smtShut i k d) = kept d := by simp [smtShut]
@[simp] theorem smtDestroy_kept (i k) : kept (smtDestroy i k d) = kept d := by simp [smtDestroy]
@[simp] theorem retransmit_kept (i p t) : kept (retransmit i p t d) = kept d := by
  unfold retransmit
  (repeat' split) <;> simp

@[simp] theorem installKey_kept (i id key t) : kept (installKey i id key t d) = kept d := by
  unfold installKey
  split <;> simp

@[simp] theorem dropPrev_kept (i t) : kept (dropPrev i t d) = kept d := by
  unfold dropPrev
  (repeat' split) <;> simp

@[simp] theorem drainCheck_kept (i t) : kept (drainCheck i t d) = kept d := by
  unfold drainCheck
  split <;> simp

@[simp] theorem useContext_kept (i) : kept (useContext i d) = kept d := by simp [useContext]
@[simp] theorem nakc_kept (i k got t) : kept (nakc i k got t d) = kept d := by simp [nakc]
@[simp] theorem noteCe_kept (i t) : kept (noteCe i t d) = kept d := by simp [noteCe]
@[simp] theorem bellEntry_kept (cid t e) : kept (bellEntry cid t e d) = kept d := by simp [bellEntry]
@[simp] theorem applyClose_kept (i t) : kept (applyClose i t d) = kept d := by
  unfold applyClose
  split <;> simp

@[simp] theorem applyHeld_kept (i cid t h) : kept (applyHeld i cid t h d) = kept d := by simp [applyHeld]
@[simp] theorem arriveBatch_kept (sq t : Nat) : ∀ (l : List (BitVec 512)) (d : Dev), kept (arriveBatch sq t l d) = kept d
  | [], _ => rfl
  | x :: r, d => by unfold arriveBatch; split <;> simp [arriveBatch_kept sq t r]

@[simp] theorem stageBytes_kept (id base l) : kept (stageBytes id base l d) = kept d := by simp [stageBytes]
@[simp] theorem readDone_kept (u l t) : kept (readDone u l t d) = kept d := by
  cases u with
  | tags id skip off => simp only [readDone]; split <;> simp
  | _ => simp [readDone]

@[simp] theorem readRefused_kept (cid u) : kept (readRefused cid u d) = kept d := by
  unfold readRefused
  split <;> simp

@[simp] theorem rresp_kept (i cid h pay t) : kept (rresp i cid h pay t d) = kept d := by
  simp only [rresp]
  (repeat' split) <;> simp

@[simp] theorem ackRx_kept (i pay t) : kept (ackRx i pay t d) = kept d := by
  unfold ackRx
  (repeat' split) <;> simp

@[simp] theorem countSeal_kept (i k space current step) : kept (countSeal i k space current step d).2 = kept d := by
  simp only [countSeal]
  (repeat' split) <;> simp

@[simp] theorem acceptData_kept (i k h pay t) : kept (acceptData i k h pay t d) = kept d := by
  unfold acceptData
  extract_lets off c e1 e2 e3 cum below now e4 e5
  have h5 : kept e5 = kept d := by simp [e5, e4, e3, e2, e1, c]
  split
  · simp
  split
  · simp
  split
  · rfl
  split
  · simp [h5]
  · exact h5

@[simp] theorem acceptControl_kept (i k h pay t) : kept (acceptControl i k h pay t d) = kept d := by simp [acceptControl]
@[simp] theorem authentic_kept (i k h p pay t) : kept (authentic i k h p pay t d) = kept d := by simp [authentic]
@[simp] theorem smtReceive_kept (p t) : kept (smtReceive p t d) = kept d := by
  simp only [smtReceive]
  (repeat' split) <;> simp

@[simp] theorem rxTyped_kept (ty p t) : kept (rxTyped ty p t d) = kept d := by simp [rxTyped]
@[simp] theorem onTimer_kept (i t) (f : Conn → Dev → Dev) (hf : ∀ k d, kept (f k d) = kept d) : kept (onTimer i t f d) = kept d := by
  simp [onTimer, hf]

@[simp] theorem writeBack_kept (c l) : kept (writeBack c l d) = kept d := by
  unfold writeBack
  split <;> simp

@[simp] theorem connMake_kept (id c ten i l) : kept (connMake id c ten i l d) = kept d := by simp [connMake]
@[simp] theorem connCreate_kept (id c l) : kept (connCreate id c l d) = kept d := by
  simp only [connCreate]
  (repeat' split) <;> simp

@[simp] theorem connDelete_kept (id c) : kept (connDelete id c d) = kept d := by
  simp only [connDelete]
  (repeat' split) <;> simp

@[simp] theorem connKeyWith_kept (id i l) : kept (connKeyWith id i l d) = kept d := by
  unfold connKeyWith
  (repeat' split) <;> simp

@[simp] theorem connKey_kept (id c blk) : kept (connKey id c blk d) = kept d := by
  unfold connKey
  (repeat' split) <;> simp

/-! #### Pcx -/

@[simp] theorem onPcx_kept (f) : kept (onPcx f d) = kept d := by simp [onPcx]
@[simp] theorem onPcxLink_kept (l f) : kept (onPcxLink l f d) = kept d := by simp [onPcxLink]
@[simp] theorem haltCmd_kept (id) : kept (haltCmd id d) = kept d := by
  simp only [haltCmd]
  (repeat' split) <;> simp

@[simp] theorem haltFns_kept (fns) : kept (haltFns fns d) = kept d := by simp [haltFns]
@[simp] theorem logReset_kept (l fn) : kept (logReset l fn d) = kept d := by simp [logReset]
@[simp] theorem resetOwnerCmd_kept (id) : kept (resetOwnerCmd id d) = kept d := by
  unfold resetOwnerCmd
  split <;> simp

@[simp] theorem resetOwnerRing_kept : kept (resetOwnerRing d) = kept d := by simp [resetOwnerRing]
@[simp] theorem resetFn_kept (l fn) : kept (resetFn l fn d) = kept d := by simp [resetFn]
@[simp] theorem vfDisable_kept (link) : kept (vfDisable link d) = kept d := by simp [vfDisable]
@[simp] theorem resetLink_kept (l) : kept (resetLink l d) = kept d := by
  unfold resetLink
  split <;> simp

@[simp] theorem dmaFailCmd_kept (fn id) : kept (dmaFailCmd fn id d) = kept d := by
  unfold dmaFailCmd
  split <;> simp

@[simp] theorem dmaFailRing_kept (fn sq) : kept (dmaFailRing fn sq d) = kept d := by
  unfold dmaFailRing
  split <;> simp

@[simp] theorem aerLog_kept (fn kind) : kept (aerLog fn kind d) = kept d := by simp [aerLog]

/-! #### PcxCfg -/

@[simp] theorem msixFlush_kept (fn vec) : kept (msixFlush fn vec d) = kept d := by simp [msixFlush]
@[simp] theorem bar4Write_kept (fn off v) : kept (bar4Write fn off v d) = kept d := by simp [bar4Write]
@[simp] theorem cfgStore_kept (fn r v) : kept (cfgStore fn r v d) = kept d := by simp [cfgStore]
@[simp] theorem setMaster_kept (fn on) : kept (setMaster fn on d) = kept d := by simp [setMaster]
@[simp] theorem setVfs_kept (link n) : kept (setVfs link n d) = kept d := by
  unfold setVfs
  split <;> simp

@[simp] theorem cfgEffect_kept (l fn off v) : kept (cfgEffect l fn off v d) = kept d := by
  unfold cfgEffect
  split <;> simp

@[simp] theorem cfgWrite_kept (fn off v) : kept (cfgWrite fn off v d) = kept d := by simp [cfgWrite]
@[simp] theorem sriovWrite_kept (link v) : kept (sriovWrite link v d) = kept d := by simp [sriovWrite]
@[simp] theorem bar2Read_kept (fn off) : kept (bar2Read fn off d).2 = kept d := by
  simp only [bar2Read]
  (repeat' split) <;> simp

@[simp] theorem bar2Write_kept (fn off whole v) : kept (bar2Write fn off whole v d) = kept d := by simp [bar2Write]

/-! #### Telemetry -/

@[simp] theorem writeSlot_kept (cq t slot) : kept (writeSlot cq t slot d) = kept d := by
  unfold writeSlot
  split
  · rfl
  · extract_lets bytes e
    split <;> simp [e]

@[simp] theorem writeRecord_kept (cq t slots) : kept (writeRecord cq t slots d) = kept d := by
  unfold writeRecord
  split <;> simp

@[simp] theorem clearPeriod_kept : kept (clearPeriod d) = kept d := by simp [clearPeriod]

/-! #### Mgt -/

@[simp] theorem onMgt_kept (f) : kept (onMgt f d) = kept d := by simp [onMgt]
@[simp] theorem reply_kept (kind body t) : kept (reply kind body t d) = kept d := by simp [reply]
@[simp] theorem onMessage_kept (p t) (f : Dev → Dev) (hf : ∀ d, kept (f d) = kept d) : kept (onMessage p t f d) = kept d := by
  simp [onMessage, hf]

@[simp] theorem pldmBase_kept (cmd arg t) : kept (pldmBase cmd arg t d) = kept d := by
  unfold pldmBase
  split <;> simp

@[simp] theorem firmwareUpdate_kept (img a t) : kept (firmwareUpdate img a t d) = kept d := by
  simp [firmwareUpdate]

@[simp] theorem lossRecord_kept (bus target losses) : kept (lossRecord bus target losses d) = kept d := by simp [lossRecord]
@[simp] theorem arbLoss_kept (bus target) : kept (arbLoss bus target d) = kept d := by
  unfold arbLoss
  split <;> simp

/-! #### RegAccess -/

@[simp] theorem ifBit_kept (v i) (f : Dev → Dev) (hf : ∀ d, kept (f d) = kept d) : kept (ifBit v i f d) = kept d := by
  simp [ifBit, hf]

end

/-! ### Commands that leave what the invariant reads -/

/-- What the invariant reads of the next state that an outcome answers, where it answers one, satisfies P. -/
def Answers (P : Kept → Prop) (o : Host.Outcome State Fault Refusal) : Prop := ∀ t, o = .next t → P (kept t.dev)

section
variable {P : Kept → Prop} {s : State}

@[simp] theorem answers_on (f : Dev → Dev) : Answers P (s.on f) ↔ P (kept (f s.dev)) :=
  ⟨fun h => h _ rfl, fun h t e => by cases e; exact h⟩

@[simp] theorem answers_onReg (p : Path) (f : Dev → Dev) : Answers P (s.onReg p f) ↔ P (kept (f s.dev)) := by
  rw [← touchPath_kept (f s.dev) p]
  exact ⟨fun h => h _ rfl, fun h t e => by cases e; exact h⟩

@[simp] theorem answers_fault (r : Fault) : Answers P (.fault r) ↔ True := iff_true_intro fun _ e => by cases e

@[simp] theorem answers_ite (c : Prop) [Decidable c] (o p : Host.Outcome State Fault Refusal) :
    Answers P (if c then o else p) ↔ if c then Answers P o else Answers P p := by
  split <;> rfl

theorem Answers.of_eq {k : Kept} {o : Host.Outcome State Fault Refusal} (h : Answers (· = k) o) (hk : P k) : Answers P o :=
  fun t e => (h t e).symm ▸ hk

/-- A row that a register write runs in place. -/
theorem runRow_keeps {f : State → Host.Outcome State Fault Refusal} {d : Dev} (hd : P (kept d)) (h : Answers P (f { dev := d, pending := [] })) :
    P (kept (runRow f d)) := by
  unfold runRow
  split
  · next t e => exact h t e
  · exact hd
  · exact hd

end

section
variable (s : State)

/-! #### Rings -/

theorem execSqTail_kept (fn sq v t) : Answers (· = kept s.dev) (execSqTail fn sq v t s) := by simp [execSqTail]
theorem execCqHead_kept (fn cq v t) : Answers (· = kept s.dev) (execCqHead fn cq v t s) := by simp [execCqHead]
theorem execCqCountRead_kept (fn cq acc) : Answers (· = kept s.dev) (execCqCountRead fn cq acc s) := by simp [execCqCountRead]
theorem execQmMbxDb_kept (path v t) : Answers (· = kept s.dev) (execQmMbxDb path v t s) := by simp [execQmMbxDb]
theorem execDescriptorFetch_kept (sq desc t) : Answers (· = kept s.dev) (execDescriptorFetch sq desc t s) := by simp [execDescriptorFetch]
theorem execCompletionPost_kept (id t) : Answers (· = kept s.dev) (execCompletionPost id t s) := by simp [execCompletionPost]
theorem execCoalesceTimerExpiry_kept (cq t) : Answers (· = kept s.dev) (execCoalesceTimerExpiry cq t s) := by simp [execCoalesceTimerExpiry]
theorem execNop_kept (id) : Answers (· = kept s.dev) (execNop id s) := by simp [execNop]
theorem execWait_kept (id t) : Answers (· = kept s.dev) (execWait id t s) := by
  simp only [execWait, answers_on]
  refine kept_withSome_of (tick_kept _ _) fun c _ => ?_
  simp only [kept_ite, finishField_kept, finishErr_kept, tick_kept]
  split
  · rfl
  split
  · rfl
  split <;> simp

theorem execWaitTimeout_kept (id t) : Answers (· = kept s.dev) (execWaitTimeout id t s) := by simp [execWaitTimeout]
theorem execAbort_kept (id) : Answers (· = kept s.dev) (execAbort id s) := by
  simp only [execAbort, answers_on]
  refine kept_withSome_of rfl fun c _ => ?_
  split
  · simp
  split
  · simp
  split <;> simp

theorem execRingCreate_kept (id) : Answers (· = kept s.dev) (execRingCreate id s) := by
  simp only [execRingCreate, answers_on]
  refine kept_withSome_of rfl fun c _ => kept_onlyIf_of rfl ?_
  split <;> simp

theorem execRingDelete_kept (id) : Answers (· = kept s.dev) (execRingDelete id s) := by
  simp only [execRingDelete, answers_on]
  refine kept_withSome_of rfl fun c _ => kept_onlyIf_of rfl ?_
  split
  · simp
  split
  · simp
  split
  · simp
  · rw [endDeletion_kept]
    split
    · split <;> simp
    · simp

/-! #### Tenants -/

theorem execTenantCreate_kept (id blk) : Answers (· = kept s.dev) (execTenantCreate id blk s) := by simp [execTenantCreate]
theorem execTenantGrant_kept (id blk) : Answers (· = kept s.dev) (execTenantGrant id blk s) := by simp [execTenantGrant]
theorem execTenantDelete_kept (id) : Answers (· = kept s.dev) (execTenantDelete id s) := by simp [execTenantDelete]
theorem execPlotCreate_kept (id blk) : Answers (· = kept s.dev) (execPlotCreate id blk s) := by simp [execPlotCreate]
theorem execRegionCreate_kept (id blk) : Answers (· = kept s.dev) (execRegionCreate id blk s) := by simp [execRegionCreate]
theorem execPlotDelete_kept (id) : Answers (· = kept s.dev) (execPlotDelete id s) := by simp [execPlotDelete]
theorem execPlotHints_kept (id) : Answers (· = kept s.dev) (execPlotHints id s) := by simp [execPlotHints]
theorem execAccordSet_kept (id) : Answers (· = kept s.dev) (execAccordSet id s) := by
  simp only [execAccordSet, answers_on]
  refine adminCmd_kept _ _ _ _ fun c d => ?_
  split
  · simp
  split
  · simp
  split <;> simp

theorem execGraftStart_kept (id) : Answers (· = kept s.dev) (execGraftStart id s) := by
  simp only [execGraftStart, answers_on]
  refine adminCmd_kept _ _ _ _ fun c d => onPlot_kept _ _ _ _ _ fun p d => ?_
  split
  · simp
  split
  · simp
  split
  · simp
  split
  · simp
  · simp

/-! #### Buffers -/

theorem execBufferGrant_kept : Answers (· = kept s.dev) (execBufferGrant s) := by simp [execBufferGrant]
theorem execBufferReturn_kept (pool ptr) : Answers (· = kept s.dev) (execBufferReturn pool ptr s) := by simp [execBufferReturn]

/-! #### Zones -/

theorem execRangeLockGrant_kept (id) : Answers (· = kept s.dev) (execRangeLockGrant id s) := by simp [execRangeLockGrant]
theorem execRead_kept (id sg) : Answers (· = kept s.dev) (execRead id sg s) := by simp [execRead]
theorem execCread_kept (id sg) : Answers (· = kept s.dev) (execCread id sg s) := by simp [execCread]
theorem execZmgmtOpen_kept (id) : Answers (· = kept s.dev) (execZmgmtOpen id s) := by simp [execZmgmtOpen]
theorem execZmgmtClose_kept (id) : Answers (· = kept s.dev) (execZmgmtClose id s) := by simp [execZmgmtClose]
theorem execZmgmtFinish_kept (id) : Answers (· = kept s.dev) (execZmgmtFinish id s) := by simp [execZmgmtFinish]
theorem execZmgmtReset_kept (id) : Answers (· = kept s.dev) (execZmgmtReset id s) := by simp [execZmgmtReset]
theorem execZmgmtQuery_kept (id) : Answers (· = kept s.dev) (execZmgmtQuery id s) := by simp [execZmgmtQuery]
theorem execZwrite_kept (id sg) : Answers (· = kept s.dev) (execZwrite id sg s) := by simp [execZwrite]
theorem execZappend_kept (id sg) : Answers (· = kept s.dev) (execZappend id sg s) := by simp [execZappend]
theorem execCwrite_kept (id sg) : Answers (· = kept s.dev) (execCwrite id sg s) := by
  simp only [execCwrite, answers_on]
  refine kept_withSome_of rfl fun c _ => kept_onlyIf_of rfl (withSegs_kept _ _ _ _ _ fun l d => ?_)
  split <;> simp

theorem execCopy_kept (id) : Answers (· = kept s.dev) (execCopy id s) := by
  simp only [execCopy, answers_on]
  refine kept_withSome_of rfl fun c _ => kept_onlyIf_of rfl ?_
  split
  · simp
  split
  · simp
  split
  · simp
  split <;> simp

/-! #### Commit -/

theorem execWriteCommit_kept (id data tags) : Answers (· = kept s.dev) (execWriteCommit id data tags s) := by simp [execWriteCommit]
theorem execWriteAcknowledge_kept (t) : Answers (· = kept s.dev) (execWriteAcknowledge t s) := by simp [execWriteAcknowledge]
theorem execStripeIdleSpill_kept (stripe t) : Answers (· = kept s.dev) (execStripeIdleSpill stripe t s) := by simp [execStripeIdleSpill]

/-! #### Herarn -/

theorem execHlRspFrame_kept (link t) : Answers (· = kept s.dev) (execHlRspFrame link t s) := by
  simp only [execHlRspFrame, answers_on]
  refine kept_withSome_of (tick_kept _ _) fun f hf => ?_
  have hd : kept f.2 = kept s.dev := (takeFrame_kept _ hf).trans (tick_kept _ _)
  split <;> simp [hd]

theorem execHlDinFrame_kept (link t) : Answers (· = kept s.dev) (execHlDinFrame link t s) := by
  simp only [execHlDinFrame, answers_on]
  refine kept_withSome_of (tick_kept _ _) fun f hf => ?_
  simp [takeFrame_kept _ hf]

theorem execHlAlert_kept (link t) : Answers (· = kept s.dev) (execHlAlert link t s) := by
  simp only [execHlAlert, answers_on]
  refine kept_withSome_of (tick_kept _ _) fun f hf => ?_
  simp [takeFrame_kept _ hf]

theorem execHlFrameReceive_kept (link fs pay fin t) : Answers (· = kept s.dev) (execHlFrameReceive link fs pay fin t s) := by simp [execHlFrameReceive]
theorem execHlLctlAck_kept (link blocks t) : Answers (· = kept s.dev) (execHlLctlAck link blocks t s) := by simp [execHlLctlAck]
theorem execHlLctlNak_kept (link blocks t) : Answers (· = kept s.dev) (execHlLctlNak link blocks t s) := by simp [execHlLctlNak]
theorem execHlParkAck_kept (link blocks t) : Answers (· = kept s.dev) (execHlParkAck link blocks t s) := by simp [execHlParkAck]
theorem execHlParkNak_kept (link blocks t) : Answers (· = kept s.dev) (execHlParkNak link blocks t s) := by simp [execHlParkNak]
theorem execHlP1IdleTimer_kept (link t) : Answers (· = kept s.dev) (execHlP1IdleTimer link t s) := by simp [execHlP1IdleTimer]
theorem execHlReplayTimer_kept (link t) : Answers (· = kept s.dev) (execHlReplayTimer link t s) := by simp [execHlReplayTimer]
theorem execHlLockLoss_kept (link t) : Answers (· = kept s.dev) (execHlLockLoss link t s) := by simp [execHlLockLoss]
theorem execHlRetrainDone_kept (link t) : Answers (· = kept s.dev) (execHlRetrainDone link t s) := by simp [execHlRetrainDone]
theorem execHlRetrainTimeout_kept (link t) : Answers (· = kept s.dev) (execHlRetrainTimeout link t s) := by simp [execHlRetrainTimeout]
theorem execHlTrainingDone_kept (link txPre brPre eye credit t) : Answers (· = kept s.dev) (execHlTrainingDone link txPre brPre eye credit t s) := by simp [execHlTrainingDone]
theorem execHlTrainingTimeout_kept (link t) : Answers (· = kept s.dev) (execHlTrainingTimeout link t s) := by simp [execHlTrainingTimeout]
theorem execHlBridgeWake_kept (link t) : Answers (· = kept s.dev) (execHlBridgeWake link t s) := by simp [execHlBridgeWake]
theorem execHlOpTimeout_kept (link otag t) : Answers (· = kept s.dev) (execHlOpTimeout link otag t s) := by
  simp only [execHlOpTimeout, answers_on]
  refine kept_withSome_of (tick_kept _ _) fun o _ => kept_onlyIf_of (tick_kept _ _) ?_
  rw [pumpLink_kept, dieTrouble_kept]
  split
  · simp
  split <;> simp

theorem execHlResetTimeout_kept (link otag t) : Answers (· = kept s.dev) (execHlResetTimeout link otag t s) := by simp [execHlResetTimeout]
theorem execHlRetryTimer_kept (link t) : Answers (· = kept s.dev) (execHlRetryTimer link t s) := by simp [execHlRetryTimer]
theorem execHlLctrlRetrain_kept (path link t) : Answers (· = kept s.dev) (execHlLctrlRetrain path link t s) := by simp [execHlLctrlRetrain]
theorem execHlLctrlFull_kept (path link t) : Answers (· = kept s.dev) (execHlLctrlFull path link t s) := by simp [execHlLctrlFull]
theorem execHlLctrlReturn_kept (path link t) : Answers (· = kept s.dev) (execHlLctrlReturn path link t s) := by simp [execHlLctrlReturn]
theorem execLinkGroupPllFail_kept (lg t) : Answers (· = kept s.dev) (execLinkGroupPllFail lg t s) := by simp [execLinkGroupPllFail]

/-! #### Decoder -/

theorem execLdpcDecodeDone_kept (job res t) : Answers (· = kept s.dev) (execLdpcDecodeDone job res t s) := by simp [execLdpcDecodeDone]
theorem execSoftBufferGrant_kept (cluster) : Answers (· = kept s.dev) (execSoftBufferGrant cluster s) := by simp [execSoftBufferGrant]
theorem execBlockedTimeExpiry_kept (die t) : Answers (· = kept s.dev) (execBlockedTimeExpiry die t s) := by simp [execBlockedTimeExpiry]
theorem execAlmanacPeriod_kept (t) : Answers (· = kept s.dev) (execAlmanacPeriod t s) := by simp [execAlmanacPeriod]

/-! #### Media -/

theorem execWeedSwitch_kept (bad t) : Answers (· = kept s.dev) (execWeedSwitch bad t s) := by simp [execWeedSwitch]
theorem execGraftZoneSwitch_kept (plot zone bad t) : Answers (· = kept s.dev) (execGraftZoneSwitch plot zone bad t s) := by simp [execGraftZoneSwitch]
theorem execTransplantSwitch_kept (row pos bad t) : Answers (· = kept s.dev) (execTransplantSwitch row pos bad t s) := by simp [execTransplantSwitch]
theorem execRebuildReplace_kept (row pos bad t) : Answers (· = kept s.dev) (execRebuildReplace row pos bad t s) := by simp [execRebuildReplace]
theorem execRowReadsDrained_kept (row t) : Answers (· = kept s.dev) (execRowReadsDrained row t s) := by simp [execRowReadsDrained]

/-! #### Patrol -/

theorem execPatrolStripe_kept (row stripe bits bad sp sq t) : Answers (· = kept s.dev) (execPatrolStripe row stripe bits bad sp sq t s) := by simp [execPatrolStripe]
theorem execAlmanacSlot_kept (t) : Answers (· = kept s.dev) (execAlmanacSlot t s) := by simp [execAlmanacSlot]
theorem execMedHourTick_kept (t) : Answers (· = kept s.dev) (execMedHourTick t s) := by simp [execMedHourTick]

/-! #### Stop -/

theorem execVinDrop_kept (mv t) : Answers (· = kept s.dev) (execVinDrop mv t s) := by
  simp only [execVinDrop, answers_on]
  refine kept_onlyIf_of (tick_kept _ _) ?_
  split
  · simp
  split <;> simp

theorem execVinGlitch_kept (mv t) : Answers (· = kept s.dev) (execVinGlitch mv t s) := by simp [execVinGlitch]
theorem execVinAboveRange_kept (mv t) : Answers (· = kept s.dev) (execVinAboveRange mv t s) := by
  simp only [execVinAboveRange]
  split
  · simp
  rw [answers_on]
  refine kept_onlyIf_of (tick_kept _ _) ?_
  split <;> simp

theorem execVinStable_kept (mv t) : Answers (· = kept s.dev) (execVinStable mv t s) := by simp [execVinStable]
theorem execInrushDone_kept (t) : Answers (· = kept s.dev) (execInrushDone t s) := by simp [execInrushDone]
theorem execRailPowerGood_kept (rail t) : Answers (· = kept s.dev) (execRailPowerGood rail t s) := by simp [execRailPowerGood]
theorem execRailPgTimeout_kept (vout t) : Answers (· = kept s.dev) (execRailPgTimeout vout t s) := by simp [execRailPgTimeout]
theorem execRailSequenceRestart_kept (mv t) : Answers (· = kept s.dev) (execRailSequenceRestart mv t s) := by simp [execRailSequenceRestart]
theorem execRailPowerDownStep_kept (t) : Answers (· = kept s.dev) (execRailPowerDownStep t s) := by
  simp only [execRailPowerDownStep, answers_on]
  refine kept_onlyIf_of (tick_kept _ _) ?_
  split <;> simp

theorem execRootPllLock_kept (t) : Answers (· = kept s.dev) (execRootPllLock t s) := by simp [execRootPllLock]
theorem execKprCtrlShutdown_kept (path t) : Answers (· = kept s.dev) (execKprCtrlShutdown path t s) := by simp [execKprCtrlShutdown]
theorem execHeartbeat_kept (t) : Answers (· = kept s.dev) (execHeartbeat t s) := by simp [execHeartbeat]

/-! #### Holdup -/

theorem execCeilingRecompute_kept (t) : Answers (· = kept s.dev) (execCeilingRecompute t s) := by simp [execCeilingRecompute]
theorem execHoldupShortTimer_kept (t) : Answers (· = kept s.dev) (execHoldupShortTimer t s) := by simp [execHoldupShortTimer]
theorem execHldCtrlCal_kept (path t) : Answers (· = kept s.dev) (execHldCtrlCal path t s) := by simp [execHldCtrlCal]
theorem execHldCalSchedule_kept (t) : Answers (· = kept s.dev) (execHldCalSchedule t s) := by
  simp only [execHldCalSchedule, answers_on]
  refine kept_onlyIf_of (tick_kept _ _) ?_
  split
  · simp
  split
  · simp
  · rw [kept_mk, kept_eta]
    split <;> simp

theorem execHldCalDone_kept (v step t) : Answers (· = kept s.dev) (execHldCalDone v step t s) := by simp [execHldCalDone]
theorem execHldCalAbort_kept (sinkFault t) : Answers (· = kept s.dev) (execHldCalAbort sinkFault t s) := by simp [execHldCalAbort]
theorem execHldCtrlBleedSet_kept (path t) : Answers (· = kept s.dev) (execHldCtrlBleedSet path t s) := by
  simp only [execHldCtrlBleedSet, answers_onReg]
  refine kept_onlyIf_of (tick_kept _ _) ?_
  simp only [bleedOn_kept, kept_ite, setCeiling_kept, lockVhold_kept, calAbort_kept, kept_mk, kept_eta, tick_kept, ite_self]

theorem execHldCtrlBleedClear_kept (path t) : Answers (· = kept s.dev) (execHldCtrlBleedClear path t s) := by simp [execHldCtrlBleedClear]
theorem execBleedDone_kept (mv t) : Answers (· = kept s.dev) (execBleedDone mv t s) := by simp [execBleedDone]
theorem execLeakageCheck_kept (t) : Answers (· = kept s.dev) (execLeakageCheck t s) := by simp [execLeakageCheck]
theorem execAdcSample_kept (chan code t) : Answers (· = kept s.dev) (execAdcSample chan code t s) := by simp [execAdcSample]

/-! #### Startup -/

theorem execJnlPageTimer_kept (e) : Answers (· = kept s.dev) (execJnlPageTimer e s) := by simp [execJnlPageTimer]
theorem execCheckpointTimer_kept (t) : Answers (· = kept s.dev) (execCheckpointTimer t s) := by simp [execCheckpointTimer]
theorem execCheckpointDone_kept (e) : Answers (· = kept s.dev) (execCheckpointDone e s) := by simp [execCheckpointDone]
theorem execSramFillDone_kept (temp t) : Answers (· = kept s.dev) (execSramFillDone temp t s) := by simp [execSramFillDone]
theorem execWarmupDone_kept (temp t) : Answers (· = kept s.dev) (execWarmupDone temp t s) := by simp [execWarmupDone]
theorem execWarmupTimeout_kept (temp t) : Answers (· = kept s.dev) (execWarmupTimeout temp t s) := by simp [execWarmupTimeout]
theorem execHbmFillDone_kept (t) : Answers (· = kept s.dev) (execHbmFillDone t s) := by simp [execHbmFillDone]
theorem execBootVerifyDone_kept (a b pools t) : Answers (· = kept s.dev) (execBootVerifyDone a b pools t s) := by simp [execBootVerifyDone]
theorem execDiscoveryDone_kept (dies clusters t) : Answers (· = kept s.dev) (execDiscoveryDone dies clusters t s) := by simp [execDiscoveryDone]
theorem execCheckpointLoadDone_kept (ok0 ok1 t) : Answers (· = kept s.dev) (execCheckpointLoadDone ok0 ok1 t s) := by simp [execCheckpointLoadDone]

/-! #### Recovery -/

theorem execJournalReplayDone_kept (gap repaired unknown t) : Answers (· = kept s.dev) (execJournalReplayDone gap repaired unknown t s) := by simp [execJournalReplayDone]
theorem execRescueIntakeDone_kept (t) : Answers (· = kept s.dev) (execRescueIntakeDone t s) := by simp [execRescueIntakeDone]

/-! #### Integrity -/

theorem execNarrowWriteRefused_kept (e t) : Answers (· = kept s.dev) (execNarrowWriteRefused e t s) := by simp [execNarrowWriteRefused]
theorem execErrorRecordHandled_kept : Answers (· = kept s.dev) (execErrorRecordHandled s) := by simp [execErrorRecordHandled]

/-! #### Security -/

theorem execRngReady_kept : Answers (· = kept s.dev) (execRngReady s) := by simp [execRngReady]
theorem execRngHealthFail_kept (t) : Answers (· = kept s.dev) (execRngHealthFail t s) := by simp [execRngHealthFail]
theorem execCommitKa_kept (path) : Answers (· = kept s.dev) (execCommitKa path s) := by simp [execCommitKa]
theorem execCommitSig_kept (path) : Answers (· = kept s.dev) (execCommitSig path s) := by simp [execCommitSig]
theorem execRaise1_kept (path v) : Answers (· = kept s.dev) (execRaise1 path v s) := by simp [execRaise1]
theorem execRaise2_kept (path v) : Answers (· = kept s.dev) (execRaise2 path v s) := by simp [execRaise2]
theorem execSecCmdReplaceKa_kept (path v) : Answers (· = kept s.dev) (execSecCmdReplaceKa path v s) := by
  simp only [execSecCmdReplaceKa, answers_onReg]
  exact onSecCmd_kept _ _ _ _ _ fun d => signedCmd_kept _ _ _ _ _ _ fun e => onSec_kept _ _ fun _ => rfl

theorem execSecCmdReplaceSig_kept (path v) : Answers (· = kept s.dev) (execSecCmdReplaceSig path v s) := by
  simp only [execSecCmdReplaceSig, answers_onReg]
  exact onSecCmd_kept _ _ _ _ _ fun d => signedCmd_kept _ _ _ _ _ _ fun e => onSec_kept _ _ fun _ => rfl

theorem execSecCmdAdvanceSvn_kept (path v) : Answers (· = kept s.dev) (execSecCmdAdvanceSvn path v s) := by
  simp only [execSecCmdAdvanceSvn, answers_onReg]
  exact onSecCmd_kept _ _ _ _ _ fun d => signedCmd_kept _ _ _ _ _ _ fun e => onSec_kept _ _ fun _ => rfl

/-! #### Scu -/

theorem execScuTake_kept (path) : Answers (· = kept s.dev) (execScuTake path s) := by simp [execScuTake]
theorem execScuRelease_kept (path) : Answers (· = kept s.dev) (execScuRelease path s) := by simp [execScuRelease]
theorem execScuGcmEncrypt_kept (path v) : Answers (· = kept s.dev) (execScuGcmEncrypt path v s) := by simp [execScuGcmEncrypt]
theorem execScuGcmDecrypt_kept (path v) : Answers (· = kept s.dev) (execScuGcmDecrypt path v s) := by simp [execScuGcmDecrypt]
theorem execScuCmac_kept (path v) : Answers (· = kept s.dev) (execScuCmac path v s) := by simp [execScuCmac]
theorem execScuKeyWrap_kept (path v) : Answers (· = kept s.dev) (execScuKeyWrap path v s) := by simp [execScuKeyWrap]
theorem execScuKeyUnwrap_kept (path v) : Answers (· = kept s.dev) (execScuKeyUnwrap path v s) := by simp [execScuKeyUnwrap]
theorem execScuSha384_kept (path v) : Answers (· = kept s.dev) (execScuSha384 path v s) := by simp [execScuSha384]
theorem execScuOpDone_kept : Answers (· = kept s.dev) (execScuOpDone s) := by simp [execScuOpDone]

/-! #### Power -/

theorem execPlCeilingChange_kept (t) : Answers (· = kept s.dev) (execPlCeilingChange t s) := by simp [execPlCeilingChange]
theorem execPlMoveDone_kept (t) : Answers (· = kept s.dev) (execPlMoveDone t s) := by simp [execPlMoveDone]
theorem execPl6ModeCheck_kept (margin t) : Answers (· = kept s.dev) (execPl6ModeCheck margin t s) := by simp [execPl6ModeCheck]
theorem execVddcAdapt_kept (margin t) : Answers (· = kept s.dev) (execVddcAdapt margin t s) := by
  simp only [execVddcAdapt, answers_on]
  refine kept_onlyIf_of (tick_kept _ _) ?_
  split <;> simp

theorem execPwrPadRelease_kept (path) : Answers (· = kept s.dev) (execPwrPadRelease path s) := by simp [execPwrPadRelease]
theorem execS1IdleTimer_kept (t) : Answers (· = kept s.dev) (execS1IdleTimer t s) := by simp [execS1IdleTimer]
theorem execS2IdleTimer_kept (t) : Answers (· = kept s.dev) (execS2IdleTimer t s) := by simp [execS2IdleTimer]
theorem execLgParkTimer_kept (lg t) : Answers (· = kept s.dev) (execLgParkTimer lg t s) := by simp [execLgParkTimer]
theorem execEthParkTimer_kept (port t) : Answers (· = kept s.dev) (execEthParkTimer port t s) := by simp [execEthParkTimer]
theorem execPcxParkTimer_kept (port t) : Answers (· = kept s.dev) (execPcxParkTimer port t s) := by simp [execPcxParkTimer]
theorem execSleepEntryDone_kept (unit t) : Answers (· = kept s.dev) (execSleepEntryDone unit t s) := by
  simp only [execSleepEntryDone, answers_on]
  (repeat' split) <;> simp

theorem execSleepExitDone_kept (unit t) : Answers (· = kept s.dev) (execSleepExitDone unit t s) := by
  simp only [execSleepExitDone, answers_on]
  (repeat' split) <;> simp

theorem execXtalLost_kept (t) : Answers (· = kept s.dev) (execXtalLost t s) := by simp [execXtalLost]
theorem execRcTrim_kept (temp xtal t) : Answers (· = kept s.dev) (execRcTrim temp xtal t s) := by simp [execRcTrim]

/-! #### Thermal -/

theorem execThrottleStep_kept (t) : Answers (· = kept s.dev) (execThrottleStep t s) := by simp [execThrottleStep]
theorem execThermalCeilingRise_kept (t) : Answers (· = kept s.dev) (execThermalCeilingRise t s) := by simp [execThermalCeilingRise]
theorem execHbmSensorRead_kept (temp t) : Answers (· = kept s.dev) (execHbmSensorRead temp t s) := by simp [execHbmSensorRead]
theorem execSensorTimeout_kept (sensor t) : Answers (· = kept s.dev) (execSensorTimeout sensor t s) := by simp [execSensorTimeout]
theorem execThermalRestart_kept (t) : Answers (· = kept s.dev) (execThermalRestart t s) := by simp [execThermalRestart]
theorem execPowerSample_kept (rails vinMw vddcMa busy t) : Answers (· = kept s.dev) (execPowerSample rails vinMw vddcMa busy t s) := by
  simp only [execPowerSample, answers_on]
  refine kept_onlyIf_of (tick_kept _ _) ?_
  split <;> simp

theorem execAgeHourTick_kept (freqs t) : Answers (· = kept s.dev) (execAgeHourTick freqs t s) := by simp [execAgeHourTick]
theorem execAgeBankReset_kept (path) : Answers (· = kept s.dev) (execAgeBankReset path s) := by simp [execAgeBankReset]

/-! #### Sillage -/

theorem execMainRecordStore_kept (busy t) : Answers (· = kept s.dev) (execMainRecordStore busy t s) := by simp [execMainRecordStore]
theorem execSilHourStore_kept (t) : Answers (· = kept s.dev) (execSilHourStore t s) := by simp [execSilHourStore]
theorem execSilWindowRead_kept (path word) : Answers (· = kept s.dev) (execSilWindowRead path word s) := by simp [execSilWindowRead]
theorem execSilClearGo_kept (path t) : Answers (· = kept s.dev) (execSilClearGo path t s) := by simp [execSilClearGo]

/-! #### Smt -/

theorem execEthLinkStateChange_kept (iface speed) : Answers (· = kept s.dev) (execEthLinkStateChange iface speed s) := by simp [execEthLinkStateChange]
theorem execSmtArpRequest_kept (iface eth spa tpa t) : Answers (· = kept s.dev) (execSmtArpRequest iface eth spa tpa t s) := by simp [execSmtArpRequest]
theorem execSmtNeighborSolicit_kept (iface eth src target t) : Answers (· = kept s.dev) (execSmtNeighborSolicit iface eth src target t s) := by simp [execSmtNeighborSolicit]
theorem execSmtIcmpEcho_kept (iface eth src dst body t) : Answers (· = kept s.dev) (execSmtIcmpEcho iface eth src dst body t s) := by simp [execSmtIcmpEcho]
theorem execSmtBell_kept (p t) : Answers (· = kept s.dev) (execSmtBell p t s) := by simp [execSmtBell]
theorem execSmtRresp_kept (p t) : Answers (· = kept s.dev) (execSmtRresp p t s) := by simp [execSmtRresp]
theorem execSmtAckRx_kept (p t) : Answers (· = kept s.dev) (execSmtAckRx p t s) := by simp [execSmtAckRx]
theorem execSmtCredRx_kept (p t) : Answers (· = kept s.dev) (execSmtCredRx p t s) := by simp [execSmtCredRx]
theorem execSmtKeepRx_kept (p t) : Answers (· = kept s.dev) (execSmtKeepRx p t s) := by simp [execSmtKeepRx]
theorem execSmtCloseRx_kept (p t) : Answers (· = kept s.dev) (execSmtCloseRx p t s) := by simp [execSmtCloseRx]
theorem execSmtFrameDrop_kept (iface p t) : Answers (· = kept s.dev) (execSmtFrameDrop iface p t s) := by
  simp only [execSmtFrameDrop, answers_on]
  (repeat' split) <;> simp

theorem execSmtRtoExpiry_kept (conn t) : Answers (· = kept s.dev) (execSmtRtoExpiry conn t s) := by simp [execSmtRtoExpiry]
theorem execSmtAckDelayTimer_kept (conn t) : Answers (· = kept s.dev) (execSmtAckDelayTimer conn t s) := by simp [execSmtAckDelayTimer]
theorem execSmtKeepIdle_kept (conn t) : Answers (· = kept s.dev) (execSmtKeepIdle conn t s) := by simp [execSmtKeepIdle]
theorem execSmtDeadTimer_kept (conn t) : Answers (· = kept s.dev) (execSmtDeadTimer conn t s) := by simp [execSmtDeadTimer]
theorem execSmtEcnHold_kept (conn t) : Answers (· = kept s.dev) (execSmtEcnHold conn t s) := by simp [execSmtEcnHold]
theorem execSmtKeyDrainTimer_kept (conn t) : Answers (· = kept s.dev) (execSmtKeyDrainTimer conn t s) := by simp [execSmtKeyDrainTimer]
theorem execSmtCloseTimer_kept (conn t) : Answers (· = kept s.dev) (execSmtCloseTimer conn t s) := by
  simp only [execSmtCloseTimer, answers_on]
  refine onTimer_kept _ _ _ _ fun k d => ?_
  split <;> simp

theorem execConnCreate_kept (id blk) : Answers (· = kept s.dev) (execConnCreate id blk s) := by simp [execConnCreate]
theorem execConnDelete_kept (id) : Answers (· = kept s.dev) (execConnDelete id s) := by simp [execConnDelete]
theorem execConnKey_kept (id blk) : Answers (· = kept s.dev) (execConnKey id blk s) := by simp [execConnKey]

/-! #### Pcx -/

theorem execPcxFlr_kept (fn) : Answers (· = kept s.dev) (execPcxFlr fn s) := by simp [execPcxFlr]
theorem execPcxOwnerFlr_kept : Answers (· = kept s.dev) (execPcxOwnerFlr s) := by simp [execPcxOwnerFlr]
theorem execPcxVfDisable_kept (link) : Answers (· = kept s.dev) (execPcxVfDisable link s) := by simp [execPcxVfDisable]
theorem execPcxPerst_kept (link) : Answers (· = kept s.dev) (execPcxPerst link s) := by simp [execPcxPerst]
theorem execPcxHotReset_kept (link) : Answers (· = kept s.dev) (execPcxHotReset link s) := by simp [execPcxHotReset]
theorem execPcxDlDown_kept (link) : Answers (· = kept s.dev) (execPcxDlDown link s) := by simp [execPcxDlDown]
theorem execPcxDmaError_kept (fn kind hit) : Answers (· = kept s.dev) (execPcxDmaError fn kind hit s) := by simp [execPcxDmaError]
theorem execPcxLinkTrained_kept (link rate width) : Answers (· = kept s.dev) (execPcxLinkTrained link rate width s) := by simp [execPcxLinkTrained]
theorem execPcxBusMasterEnable_kept (fn) : Answers (· = kept s.dev) (execPcxBusMasterEnable fn s) := by simp [execPcxBusMasterEnable]

/-! #### Telemetry -/

theorem execTelemetryPeriod_kept (t) : Answers (· = kept s.dev) (execTelemetryPeriod t s) := by simp [execTelemetryPeriod]
theorem execAccordMissSecond_kept (t) : Answers (· = kept s.dev) (execAccordMissSecond t s) := by simp [execAccordMissSecond]

/-! #### Mgt -/

theorem execSetEndpointId_kept (pec op eid t) : Answers (· = kept s.dev) (execSetEndpointId pec op eid t s) := by simp [execSetEndpointId]
theorem execGetEndpointId_kept (pec t) : Answers (· = kept s.dev) (execGetEndpointId pec t s) := by simp [execGetEndpointId]
theorem execGetMctpVersionSupport_kept (pec ty t) : Answers (· = kept s.dev) (execGetMctpVersionSupport pec ty t s) := by simp [execGetMctpVersionSupport]
theorem execGetMessageTypeSupport_kept (pec t) : Answers (· = kept s.dev) (execGetMessageTypeSupport pec t s) := by simp [execGetMessageTypeSupport]
theorem execGetVendorDefinedMessageSupport_kept (pec selector t) : Answers (· = kept s.dev) (execGetVendorDefinedMessageSupport pec selector t s) := by simp [execGetVendorDefinedMessageSupport]
theorem execPldmBase_kept (pec cmd arg t) : Answers (· = kept s.dev) (execPldmBase pec cmd arg t s) := by simp [execPldmBase]
theorem execPldmSensorRead_kept (pec sensorId t) : Answers (· = kept s.dev) (execPldmSensorRead pec sensorId t s) := by simp [execPldmSensorRead]
theorem execPldmFirmwareUpdate_kept (pec img abandoned t) : Answers (· = kept s.dev) (execPldmFirmwareUpdate pec img abandoned t s) := by simp [execPldmFirmwareUpdate]
theorem execMctpTimeout_kept (t) : Answers (· = kept s.dev) (execMctpTimeout t s) := by simp [execMctpTimeout]
theorem execPmbusArbLoss_kept (bus target t) : Answers (· = kept s.dev) (execPmbusArbLoss bus target t s) := by simp [execPmbusArbLoss]
theorem execJtagInstruction_kept (main i) : Answers (· = kept s.dev) (execJtagInstruction main i s) := by simp [execJtagInstruction]
end

/-! ### Operations and commands that keep the invariant -/

section
variable {d : Dev} {s : State}

/-! ### Stored registers -/

theorem Kept.Ok.of_eq {j k : Kept} (h : k.Ok) (e : j = k) : j.Ok := e ▸ h

theorem wr_ok (off v) (h : (kept d).Ok) : (kept (wr off v d)).Ok := { h with regs := wr_wf off v d h.regs }
theorem wrMasked_ok (off v) (h : (kept d).Ok) : (kept (wrMasked off v d)).Ok := wr_ok _ _ h

/-! #### Shared operations -/

theorem onlyIf_ok {c : Bool} {f : Dev → Dev} (h : (kept d).Ok) (hf : c = true → (kept (f d)).Ok) : (kept (onlyIf c f d)).Ok :=
  onlyIf_keeps (P := fun d => (kept d).Ok) h hf
theorem withSome_ok {α : Type} {o : Option α} {f : α → Dev → Dev} (h : (kept d).Ok) (hf : ∀ a, o = some a → (kept (f a d)).Ok) : (kept (withSome o f d)).Ok :=
  withSome_keeps (P := fun d => (kept d).Ok) h hf
theorem tick_ok (t) (h : (kept d).Ok) : (kept (tick t d)).Ok := h.of_eq (tick_kept _ _)

theorem execAdminRingEnable_ok (path v) (h : (kept s.dev).Ok) : Answers Kept.Ok (execAdminRingEnable path v s) := by
  simp only [execAdminRingEnable, answers_onReg]
  refine onlyIf_ok h fun _ => ?_
  have hw : (kept (wrMasked 0x1014 v.toNat s.dev)).Ok := wrMasked_ok _ _ h
  split
  · split
    · exact hw
    · rwa [adminSetup_kept]
  · rwa [kept_mk, kept_eta]

/-! ### Sillage -/

theorem silKick_ok (h : (kept d).Ok) : (kept (silKick d)).Ok := by
  unfold silKick
  split
  · exact h
  extract_lets e
  have he : (kept e).Ok := by rwa [silShed_kept]
  split
  · exact he
  split
  · exact he
  · exact { he with tokens := (Nat.sub_le _ _).trans he.tokens }

theorem silArrive_ok (e main) (h : (kept d).Ok) : (kept (silArrive e main d)).Ok := by
  unfold silArrive
  split
  · exact silKick_ok (by simpa using h)
  · simpa using h

theorem silThaw_ok (p) (h : (kept d).Ok) : (kept (silThaw p d)).Ok := by
  unfold silThaw
  refine silKick_ok ?_
  rw [onSil_kept]
  · exact h
  · intro s; split <;> simp

theorem silMainGone_ok (h : (kept d).Ok) : (kept (silMainGone d)).Ok := silThaw_ok _ (by simpa using h)

/-! ### Stops and starts -/

theorem wf_foldl_tset {α : Type} (l : Tbl α) : ∀ {t : Tbl α}, Tbl.wf t = true → Tbl.wf (l.foldl (fun t e => tset t e.1 e.2) t) = true := by
  induction l with
  | nil => exact id
  | cons e l ih => exact fun h => ih (Tbl.wf_tset _ _ h)

theorem mainOff_ok (h : (kept d).Ok) : (kept (mainOff d)).Ok :=
  have h' := silMainGone_ok h
  { h' with regs := wf_foldl_tset _ (Tbl.wf_tfilter _ h'.regs), stage := rfl, latch := rfl }

theorem dropRails_ok (restart t) (h : (kept d).Ok) : (kept (dropRails restart t d)).Ok := by
  unfold dropRails
  extract_lets e
  have he : (kept e).Ok := (mainOff_ok h).of_eq (by simp [e])
  split <;> simpa using he

theorem cutRails_ok (state restart) (h : (kept d).Ok) : (kept (cutRails state restart d)).Ok :=
  (mainOff_ok h).of_eq (by simp [cutRails])

theorem startFlush_ok (cause t) (h : (kept d).Ok) : (kept (startFlush cause t d)).Ok := by
  unfold startFlush
  extract_lets +onlyGivenNames thm e
  have he : (kept e).Ok := h.of_eq (by simp [e])
  split
  · simpa using he
  · exact (dropRails_ok _ _ (by simpa using he)).of_eq (onKpr_kept _ _ fun _ => rfl)

theorem flushDone_ok (stopAt t cause t0) (h : (kept d).Ok) : (kept (flushDone stopAt t cause t0 d)).Ok := by
  unfold flushDone
  exact dropRails_ok _ _ (by simpa using h)

theorem execFlushDone_ok (stopAt t) (h : (kept s.dev).Ok) : Answers Kept.Ok (execFlushDone stopAt t s) := by
  simp only [execFlushDone, answers_on]
  exact withSome_ok (tick_ok _ h) fun f _ => onlyIf_ok (tick_ok _ h) fun _ => flushDone_ok _ _ _ _ (tick_ok _ h)

theorem powerFail_ok (t) (h : (kept d).Ok) : (kept (powerFail t d)).Ok := by
  unfold powerFail
  split
  · simpa using h
  split
  · extract_lets +onlyGivenNames e hld f g
    have hg : (kept g).Ok := h.of_eq (by simp [g, f, e])
    split
    · simpa using hg
    · exact startFlush_ok _ _ hg
  split <;> simpa using h

theorem execPowerFail_ok (t) (h : (kept s.dev).Ok) : Answers Kept.Ok (execPowerFail t s) := by
  simp only [execPowerFail, answers_on]
  exact withSome_ok (tick_ok _ h) fun a _ => onlyIf_ok (tick_ok _ h) fun _ => powerFail_ok _ (tick_ok _ h)

theorem coldStart_ok (h : (kept d).Ok) : (kept (coldStart d)).Ok :=
  have h' : (kept (mainOff (sensorsFresh d))).Ok := mainOff_ok (by simpa using h)
  { h' with regs := Tbl.wf_tfilter (fun k _ => decide (k = 0x60004)) h'.regs, stage := rfl, latch := rfl, pwrcyc := Nat.mod_lt _ (by decide) }

theorem execColdReset_ok (vin vaux t) (h : (kept s.dev).Ok) : Answers Kept.Ok (execColdReset vin vaux t s) := by
  unfold execColdReset
  split
  · simp
  rw [answers_on]
  refine onlyIf_ok (tick_ok _ h) fun _ => ?_
  have h' := coldStart_ok (tick_ok t h)
  exact { h' with tokens := Nat.le_refl 2048 }

theorem execRailFault_ok (rail vout t) (h : (kept s.dev).Ok) : Answers Kept.Ok (execRailFault rail vout t s) := by
  simp only [execRailFault, answers_on]
  exact onlyIf_ok (tick_ok _ h) fun _ => cutRails_ok _ _ (by simpa using h)

theorem execVinReturn_ok (mv t) (h : (kept s.dev).Ok) : Answers Kept.Ok (execVinReturn mv t s) := by
  simp only [execVinReturn, answers_on]
  refine onlyIf_ok (tick_ok _ h) fun _ => ?_
  split
  · simpa using h
  split
  · exact (coldStart_ok (by simpa using h)).of_eq (onKpr_kept _ _ fun _ => rfl)
  split <;> simpa using h

theorem execAllSuppliesLost_ok (t) (h : (kept s.dev).Ok) : Answers Kept.Ok (execAllSuppliesLost t s) := by
  simp only [execAllSuppliesLost, answers_on]
  refine onlyIf_ok (tick_ok _ h) fun _ => ?_
  have h' : (kept (mainOff (leave (unflushed (!listArmed (tick t s.dev))) (tick t s.dev)))).Ok := mainOff_ok (by simpa using h)
  exact { h' with tokens := Nat.le_refl 2048 }

theorem kprWarm_ok (path t) (h : (kept d).Ok) : (kept (kprWarm path t d)).Ok := by
  unfold kprWarm
  split
  · exact startFlush_ok _ _ h
  split
  · extract_lets +onlyGivenNames thm e
    have he : (kept e).Ok := h.of_eq (by simp [e])
    split <;> simpa using he
  split <;> simpa using h

theorem execKprCtrlWarm_ok (path t) (h : (kept s.dev).Ok) : Answers Kept.Ok (execKprCtrlWarm path t s) := by
  simp only [execKprCtrlWarm, answers_onReg]
  exact onlyIf_ok (tick_ok _ h) fun _ => kprWarm_ok _ _ (tick_ok _ h)

theorem cleanShutdownDone_ok (t) (h : (kept d).Ok) : (kept (cleanShutdownDone t d)).Ok :=
  dropRails_ok _ _ (by simpa using h)

theorem execCleanShutdownDone_ok (t) (h : (kept s.dev).Ok) : Answers Kept.Ok (execCleanShutdownDone t s) := by
  simp only [execCleanShutdownDone, answers_on]
  exact onlyIf_ok (tick_ok _ h) fun _ => cleanShutdownDone_ok _ (tick_ok _ h)

theorem execKeeperWdogExpiry_ok (t) (h : (kept s.dev).Ok) : Answers Kept.Ok (execKeeperWdogExpiry t s) := by
  simp only [execKeeperWdogExpiry, answers_on]
  exact onlyIf_ok (tick_ok _ h) fun _ => startFlush_ok _ _ (tick_ok _ h)

theorem execKlinkResync_ok (up crc t) (h : (kept s.dev).Ok) : Answers Kept.Ok (execKlinkResync up crc t s) := by
  simp only [execKlinkResync, answers_on]
  refine onlyIf_ok (tick_ok _ h) fun _ => ?_
  split
  · split
    · exact silThaw_ok _ (by simpa using h)
    · simpa using h
  split
  · simpa using h
  split
  · exact startFlush_ok _ _ (by simpa using h)
  split
  · exact startFlush_ok _ _ (by simpa using h)
  · simpa using h

theorem execKlinkPfTimeout_ok (t) (h : (kept s.dev).Ok) : Answers Kept.Ok (execKlinkPfTimeout t s) := by
  simp only [execKlinkPfTimeout, answers_on]
  refine onlyIf_ok (tick_ok _ h) fun _ => ?_
  split
  · exact (cutRails_ok _ _ (by simpa using h)).of_eq (onKpr_kept _ _ fun _ => rfl)
  · exact cutRails_ok _ _ (by simpa using h)

/-! ### Memory errors -/

theorem clearInjected_ok (e) (h : (kept d).Ok) : (kept (clearInjected e d)).Ok := by
  unfold clearInjected
  extract_lets cw
  split
  · exact wr_ok _ _ (by simpa using h)
  · exact h

theorem memCorrectable_ok (e t) (h : (kept d).Ok) : (kept (memCorrectable e t d)).Ok := by
  have he := clearInjected_ok e h
  simp only [memCorrectable, kept_ite, raise_kept, onEcc_kept, pushErr_kept, ite_self]
  exact he

theorem execMemCorrectable_ok (e t) (h : (kept s.dev).Ok) : Answers Kept.Ok (execMemCorrectable e t s) := by
  simp only [execMemCorrectable, answers_on]
  exact onlyIf_ok (tick_ok _ h) fun _ => memCorrectable_ok _ _ (tick_ok _ h)

theorem tailHit_ok (seq t both) (h : (kept d).Ok) : (kept (tailHit seq t both d)).Ok := by
  unfold tailHit
  split
  · exact h
  split
  · simpa using h
  · exact startFlush_ok _ _ h

theorem ueAction_ok (cls hit t) (h : (kept d).Ok) : (kept (ueAction cls hit t d)).Ok := by
  unfold ueAction
  split
  · simpa using h
  · simpa using h
  · exact tailHit_ok _ _ _ h
  · simpa using h
  · split
    · exact h
    · exact startFlush_ok _ _ h
  · exact h

theorem uncorrectable_ok (kind e hit t) (h : (kept d).Ok) : (kept (uncorrectable kind e hit t d)).Ok :=
  ueAction_ok _ _ _ (by simpa using h)

theorem execMemUncorrectable_ok (e mismatch hit t) (h : (kept s.dev).Ok) : Answers Kept.Ok (execMemUncorrectable e mismatch hit t s) := by
  simp only [execMemUncorrectable, answers_on]
  refine onlyIf_ok (tick_ok _ h) fun _ => uncorrectable_ok _ _ _ _ ?_
  simpa using clearInjected_ok e (tick_ok t h)

theorem execFabricParityFail_ok (again e hit t) (h : (kept s.dev).Ok) : Answers Kept.Ok (execFabricParityFail again e hit t s) := by
  simp only [execFabricParityFail, answers_on]
  refine onlyIf_ok (tick_ok _ h) fun _ => ?_
  split
  · exact uncorrectable_ok _ _ _ _ (by simpa using h)
  · simpa using h

theorem execEccInject_ok (path v) (h : (kept s.dev).Ok) : Answers Kept.Ok (execEccInject path v s) := by
  simp only [execEccInject, answers_onReg]
  refine onlyIf_ok h fun _ => ?_
  split
  · rw [onEcc_kept]
    exact wrMasked_ok _ _ h
  · exact wrMasked_ok _ _ h

/-! ### Security -/

/-- A signed command whose own reasons for refusal are none, or that is refused. -/
theorem signedCmd_ok (cmd ok more key) (act : Dev → Dev) (h : (kept d).Ok) (hact : more = 0 → (kept (act (cmdEnd cmd 1 0 d))).Ok) :
    (kept (signedCmd cmd ok more key act d)).Ok := by
  unfold signedCmd
  split
  · simpa using h
  split
  · simpa using h
  split
  · simpa using h
  split
  · simpa using h
  split
  · simpa using h
  · next hm =>
    split
    · exact hact (not_not.1 hm)
    · simpa using h

theorem beginLowering_ok (h : (kept d).Ok) (he : (kept d).epoch < 32) : (kept (beginLowering d)).Ok := { h with epoch := he }

theorem execSecCmdLower_ok (path v t) (h : (kept s.dev).Ok) : Answers Kept.Ok (execSecCmdLower path v t s) := by
  simp only [execSecCmdLower, answers_onReg]
  refine onlyIf_ok (tick_ok _ h) fun _ => signedCmd_ok _ _ _ _ _ (tick_ok _ h) fun hm => ?_
  refine beginLowering_ok (by simpa using h) ?_
  rw [cmdEnd_kept]
  by_contra he
  exact absurd ((if_neg he).symm.trans hm) (by decide)

theorem execLoweringDone_ok (beds failures t) (h : (kept s.dev).Ok) : Answers Kept.Ok (execLoweringDone beds failures t s) := by
  simp only [execLoweringDone, answers_on]
  exact onlyIf_ok (tick_ok _ h) fun _ => dropRails_ok _ _ (coldStart_ok (by simpa using h))

/-! ### Power, clocks and heat -/

theorem writeSleep_ok (v t) (h : (kept d).Ok) : (kept (writeSleep v t d)).Ok := by
  unfold writeSleep
  extract_lets e f
  have hf : (kept f).Ok := (wrMasked_ok 0x90008 v h).of_eq (by simp [f, e])
  split
  · exact hf
  split <;> simpa using hf

theorem execPwrSleepS2_ok (path t) (h : (kept s.dev).Ok) : Answers Kept.Ok (execPwrSleepS2 path t s) := by
  simp only [execPwrSleepS2, answers_onReg]
  exact onlyIf_ok (tick_ok _ h) fun _ => writeSleep_ok _ _ (tick_ok _ h)

theorem execPwrSleepS3_ok (path t) (h : (kept s.dev).Ok) : Answers Kept.Ok (execPwrSleepS3 path t s) := by
  simp only [execPwrSleepS3, answers_onReg]
  exact onlyIf_ok (tick_ok _ h) fun _ => writeSleep_ok _ _ (tick_ok _ h)

theorem execClkLoss_ok (lock t) (h : (kept s.dev).Ok) : Answers Kept.Ok (execClkLoss lock t s) := by
  simp only [execClkLoss, answers_on]
  refine onlyIf_ok (tick_ok _ h) fun _ => ?_
  split
  · simpa using h
  · exact startFlush_ok _ _ (by simpa using h)

theorem hardTrip_ok (i main temp t) (h : (kept d).Ok) : (kept (hardTrip i main temp t d)).Ok := by
  unfold hardTrip
  split
  · exact h
  extract_lets e f
  have hf : (kept f).Ok := h.of_eq (by cases main <;> simp [f, e])
  split
  · exact hf
  split
  · exact startFlush_ok _ _ hf
  · simpa using hf

theorem stopCheck_ok (i temp t) (h : (kept d).Ok) : (kept (stopCheck i temp t d)).Ok := by
  unfold stopCheck
  split
  · exact h
  split
  · exact hardTrip_ok _ _ _ _ h
  split
  · simpa using h
  split
  · simpa using h
  · exact hardTrip_ok _ _ _ _ h

theorem thmSample_ok (i temp t) (h : (kept d).Ok) : (kept (thmSample i temp t d)).Ok := by
  unfold thmSample
  split
  · simpa using h
  · exact stopCheck_ok _ _ _ (by simpa using h)

theorem execThmSample_ok (sensor temp t) (h : (kept s.dev).Ok) : Answers Kept.Ok (execThmSample sensor temp t s) := by
  simp only [execThmSample, answers_on]
  exact onlyIf_ok (tick_ok _ h) fun _ => thmSample_ok _ _ _ (tick_ok _ h)

theorem powerTripOff_ok (i temp t) (h : (kept d).Ok) : (kept (powerTripOff i temp t d)).Ok := by
  unfold powerTripOff
  extract_lets +onlyGivenNames e p f
  have hf : (kept f).Ok := h.of_eq (by simp [f, e])
  split
  · exact hf
  split
  · exact cutRails_ok _ _ hf
  · exact cutRails_ok _ _ (by simpa using hf)

theorem pthSample_ok (n temp t) (h : (kept d).Ok) : (kept (pthSample n temp t d)).Ok := by
  unfold pthSample
  split
  · simpa using h
  extract_lets i e f
  have he : (kept e).Ok := h.of_eq (by simp [e])
  split
  · simpa using he
  split
  · exact he
  have hf : (kept f).Ok := he.of_eq (by simp [f])
  split
  · exact hardTrip_ok _ _ _ _ hf
  split
  · exact hf
  · exact powerTripOff_ok _ _ _ hf

theorem execPthSample_ok (sensor temp t) (h : (kept s.dev).Ok) : Answers Kept.Ok (execPthSample sensor temp t s) := by
  simp only [execPthSample, answers_on]
  exact onlyIf_ok (tick_ok _ h) fun _ => pthSample_ok _ _ _ (tick_ok _ h)

theorem orderlyStopDone_ok (t) (h : (kept d).Ok) : (kept (orderlyStopDone t d)).Ok :=
  dropRails_ok _ _ (by simpa using h)

theorem execOrderlyStopDone_ok (t) (h : (kept s.dev).Ok) : Answers Kept.Ok (execOrderlyStopDone t s) := by
  simp only [execOrderlyStopDone, answers_on]
  exact onlyIf_ok (tick_ok _ h) fun _ => orderlyStopDone_ok _ (tick_ok _ h)

/-! ### The recorder's commands -/

theorem execSilRecord_ok (t) (h : (kept s.dev).Ok) : Answers Kept.Ok (execSilRecord t s) := by
  simp only [execSilRecord, answers_on]
  refine onlyIf_ok (tick_ok _ h) fun _ => ?_
  split
  · exact tick_ok _ h
  · exact silArrive_ok _ _ (by simpa using h)

/-- A key of a table after a write is the key written or one that was there. -/
theorem mem_tset {α : Type} {k : Nat} {v : α} {e : Nat × α} : ∀ {t : Tbl α}, e ∈ tset t k v → e.1 = k ∨ e ∈ t
  | [], h => .inl (by simp_all [tset])
  | (i, w) :: t, h => by
    unfold tset at h
    split at h
    · rcases List.mem_cons.1 h with rfl | h
      · exact .inl rfl
      · exact .inr h
    split at h
    · rcases List.mem_cons.1 h with rfl | h
      · exact .inl rfl
      · exact .inr (List.mem_cons_of_mem _ h)
    · rcases List.mem_cons.1 h with rfl | h
      · exact .inr List.mem_cons_self
      · exact (mem_tset h).imp_right (List.mem_cons_of_mem _)

theorem silWrite_ok (r) (h : (kept d).Ok) : (kept (silWrite r d)).Ok :=
  { h with
    head := Nat.mod_lt _ (by decide)
    rseq := Nat.mod_lt _ (by decide)
    slots := Tbl.wf_tset _ _ h.slots
    inRing := fun e he => (mem_tset he).elim (fun hk => hk ▸ h.head) (h.inRing e) }

theorem execSilProgramDone_ok (t) (h : (kept s.dev).Ok) : Answers Kept.Ok (execSilProgramDone t s) := by
  simp only [execSilProgramDone, answers_on]
  exact withSome_ok (tick_ok _ h) fun r _ => onlyIf_ok (tick_ok _ h) fun _ => silKick_ok (silWrite_ok r (tick_ok t h))

theorem onSil_silErase_ok (h : (kept d).Ok) : (kept (onSil silErase d)).Ok :=
  { h with slots := Tbl.wf_tfilter (fun k _ => decide (k / 64 ≠ d.sil.head / 64)) h.slots, inRing := fun e he => h.inRing e (List.mem_filter.1 he).1 }

theorem execSilSectorEraseDone_ok (t) (h : (kept s.dev).Ok) : Answers Kept.Ok (execSilSectorEraseDone t s) := by
  simp only [execSilSectorEraseDone, answers_on]
  exact onlyIf_ok (tick_ok _ h) fun _ => silKick_ok (onSil_silErase_ok (tick_ok t h))

theorem execSilTokenTick_ok (t) (h : (kept s.dev).Ok) : Answers Kept.Ok (execSilTokenTick t s) := by
  simp only [execSilTokenTick, answers_on]
  exact onlyIf_ok (tick_ok _ h) fun _ => { tick_ok t h with tokens := Nat.min_le_left _ _ }

theorem silFreeze_ok (p v t) (h : (kept d).Ok) : (kept (silFreeze p v t d)).Ok := by
  unfold silFreeze
  split
  · split
    · exact h
    · simpa using h
  split
  · exact silThaw_ok _ h
  · exact h

theorem execSilFreeze_ok (path v t) (h : (kept s.dev).Ok) : Answers Kept.Ok (execSilFreeze path v t s) := by
  simp only [execSilFreeze, answers_onReg]
  exact onlyIf_ok (tick_ok _ h) fun _ => silFreeze_ok _ _ _ (tick_ok _ h)

theorem execSilFreezeTimeout_ok (path t) (h : (kept s.dev).Ok) : Answers Kept.Ok (execSilFreezeTimeout path t s) := by
  simp only [execSilFreezeTimeout, answers_onReg]
  exact onlyIf_ok (tick_ok _ h) fun _ => silThaw_ok _ (tick_ok _ h)

theorem silCleared_ok (h : (kept d).Ok) : (kept (silCleared d)).Ok :=
  silKick_ok { h with slots := rfl, inRing := fun _ he => by cases he }

theorem execSilClearDone_ok (t) (h : (kept s.dev).Ok) : Answers Kept.Ok (execSilClearDone t s) := by
  simp only [execSilClearDone, answers_on]
  exact onlyIf_ok (tick_ok _ h) fun _ => silCleared_ok (tick_ok _ h)

/-! ### Register accesses -/

theorem ipv6Last_ok (i v) (h : (kept d).Ok) : (kept (ipv6Last i v d)).Ok := by
  unfold ipv6Last
  extract_lets b
  split
  · exact h
  · rw [onSmt_kept]
    exact wrMasked_ok _ _ h

theorem execSmtIfIpv6LastWrite_ok (path iface v) (h : (kept s.dev).Ok) : Answers Kept.Ok (execSmtIfIpv6LastWrite path iface v s) := by
  simp only [execSmtIfIpv6LastWrite, answers_onReg]
  exact onlyIf_ok h fun _ => ipv6Last_ok _ _ h

theorem mapWord_ok (p off) (h : (kept d).Ok) : (kept (mapWord p off d).2).Ok := by
  unfold mapWord
  split
  · exact h
  split
  · simpa using h
  split
  · exact { h with latch := Tbl.wf_tset _ _ h.latch }
  · split
    · exact { h with latch := Tbl.wf_tdel _ h.latch }
    · exact h
  · exact h

theorem readWord_ok (p off) (h : (kept d).Ok) : (kept (readWord p off d).2).Ok := by
  unfold readWord
  split
  · exact h
  · exact h
  · simpa using h
  · exact h
  · split
    · exact mapWord_ok _ _ h
    · exact h

theorem readReg_ok (p off) (h : (kept d).Ok) : (kept (readReg p off d)).Ok := by
  simpa [readReg] using readWord_ok p (off - off % 4) h

theorem execReg64LowRead_ok (path off) (h : (kept s.dev).Ok) : Answers Kept.Ok (execReg64LowRead path off s) := by
  simp only [execReg64LowRead, answers_onReg]
  exact readReg_ok _ _ h

theorem setupLock_ok (h : (kept d).Ok) : (kept (setupLock d)).Ok := by
  unfold setupLock
  split
  · exact h
  · exact { h with stage := rfl }

theorem execGlbSetupLock_ok (path v) (h : (kept s.dev).Ok) : Answers Kept.Ok (execGlbSetupLock path v s) := by
  simp only [execGlbSetupLock, answers_onReg]
  exact onlyIf_ok h fun _ => setupLock_ok h

theorem stageLow_ok (off v) (h : (kept d).Ok) : (kept (stageLow off v d)).Ok := by
  unfold stageLow
  split
  · exact h
  · exact { h with stage := Tbl.wf_tset _ _ h.stage }

theorem takeHigh_ok (off v) (h : (kept d).Ok) : (kept (takeHigh off v d)).Ok := by
  unfold takeHigh
  split
  · exact h
  extract_lets e
  have he : (kept e).Ok := by
    unfold e
    split
    · exact wrMasked_ok _ _ h
    · exact h
  exact wrMasked_ok _ _ { he with stage := Tbl.wf_tdel _ he.stage }

@[simp] theorem writeSl_kept (p v) (d : Dev) : kept (writeSl p v d) = kept d := by
  unfold writeSl
  split
  · exact runRow_keeps (P := (· = kept d)) rfl (execRaise1_kept _ _ _)
  · exact runRow_keeps (P := (· = kept d)) rfl (execRaise2_kept _ _ _)

theorem writeSecCmd_ok (p v t) (h : (kept d).Ok) : (kept (writeSecCmd p v t d)).Ok := by
  unfold writeSecCmd
  split
  · exact runRow_keeps h (execSecCmdLower_ok _ _ _ h)
  · exact runRow_keeps h ((execSecCmdReplaceKa_kept _ _ _).of_eq h)
  · exact runRow_keeps h ((execSecCmdReplaceSig_kept _ _ _).of_eq h)
  · exact runRow_keeps h ((execSecCmdAdvanceSvn_kept _ _ _).of_eq h)
  · simpa using h

theorem writeHold_ok (v) (h : (kept d).Ok) : (kept (writeHold v d)).Ok := by
  unfold writeHold
  extract_lets was e down f
  have he : (kept e).Ok := wrMasked_ok _ _ h
  simpa [f] using he

theorem writeHldCfg_ok (v) (h : (kept d).Ok) : (kept (writeHldCfg v d)).Ok := wrMasked_ok 0x101000 v h

@[simp] theorem writeHldCtrl_kept (p v t) (d : Dev) : kept (writeHldCtrl p v t d) = kept d := by
  unfold writeHldCtrl
  extract_lets e
  have he : kept e = kept d := by
    unfold e
    split
    · exact runRow_keeps (P := (· = kept d)) rfl (execHldCtrlBleedSet_kept _ _ _)
    · exact runRow_keeps (P := (· = kept d)) rfl (execHldCtrlBleedClear_kept _ _ _)
  split
  · exact (runRow_keeps (P := (· = kept e)) rfl (execHldCtrlCal_kept _ _ _)).trans he
  · exact he

@[simp] theorem writeScuCtrl_kept (p v) (d : Dev) : kept (writeScuCtrl p v d) = kept d := by
  simp [writeScuCtrl]

theorem ifBit_ok (v i) {f : Dev → Dev} (h : (kept d).Ok) (hf : (kept (f d)).Ok) : (kept (ifBit v i f d)).Ok := by
  unfold ifBit
  split
  · exact hf
  · exact h

theorem runRow_ok {f : State → Host.Outcome State Fault Refusal} (hf : ∀ s, Answers (· = kept s.dev) (f s)) (h : (kept d).Ok) : (kept (runRow f d)).Ok :=
  runRow_keeps h ((hf _).of_eq h)

/-- A bit that runs a row which leaves what the invariant reads. -/
theorem ifBit_runRow_ok (v i) {f : State → Host.Outcome State Fault Refusal} (hf : ∀ s, Answers (· = kept s.dev) (f s)) (h : (kept d).Ok) :
    (kept (ifBit v i (runRow f) d)).Ok := ifBit_ok _ _ h (runRow_ok hf h)

theorem writeEffects_ok : ∀ e ∈ writeEffects, ∀ (p : Path) (v : Word) (t : Nat) (d : Dev), (kept d).Ok → (kept (e.2 p v t d)).Ok := by
  simp only [writeEffects, List.forall_mem_cons, List.not_mem_nil, false_imp_iff, implies_true, and_true]
  refine ⟨?lock, ?high1004, ?high100C, ?ring, ?mailbox, ?errors, ?inject, ?level, ?commit, ?secCmd, ?scuOwner, ?scuCtrl, ?scuOfs, ?scuLen, ?scuFin, ?ceiling, ?sleep,
    ?hold, ?pads, ?bank, ?pins, ?kpr, ?hldCfg, ?hldCtrl, ?cursor, ?freeze, ?clear, ?xtal⟩
  case lock => exact fun p v t d h => ifBit_ok _ _ h (setupLock_ok h)
  case high1004 | high100C => exact fun p v t d h => takeHigh_ok _ _ h
  case ring => exact fun p v t d h => runRow_keeps h (execAdminRingEnable_ok _ _ h)
  case mailbox => exact fun p v t d h => runRow_ok (execQmMbxDb_kept · _ _ _) h
  case inject => exact fun p v t d h => runRow_keeps h (execEccInject_ok _ _ h)
  case secCmd => exact fun p v t d h => writeSecCmd_ok _ _ _ h
  case commit => exact fun p v t d h => ifBit_runRow_ok _ _ (execCommitSig_kept · _) (ifBit_runRow_ok _ _ (execCommitKa_kept · _) h)
  case scuOwner => exact fun p v t d h => ifBit_runRow_ok _ _ (execScuTake_kept · _) (ifBit_runRow_ok _ _ (execScuRelease_kept · _) h)
  case ceiling => exact fun p v t d h => runRow_ok (execPlCeilingChange_kept · _) (wrMasked_ok _ _ h)
  case sleep => exact fun p v t d h => writeSleep_ok _ _ h
  case hold => exact fun p v t d h => writeHold_ok _ h
  case pads => exact fun p v t d h => ifBit_runRow_ok _ _ (execPwrPadRelease_kept · _) h
  case bank => exact fun p v t d h => ifBit_runRow_ok _ _ (execAgeBankReset_kept · _) (wrMasked_ok _ _ h)
  case pins => exact fun p v t d h => (wrMasked_ok _ _ h).of_eq (tmxCheck_kept _)
  case kpr => exact fun p v t d h => ifBit_runRow_ok _ _ (execKprCtrlShutdown_kept · _ _) (ifBit_ok _ _ h (runRow_keeps h (execKprCtrlWarm_ok _ _ h)))
  case hldCfg => exact fun p v t d h => writeHldCfg_ok _ h
  case freeze => exact fun p v t d h => silFreeze_ok _ _ _ h
  case errors | level | scuCtrl | scuOfs | scuLen | scuFin | hldCtrl | cursor | clear | xtal => exact fun p v t d h => by simpa using h

theorem writeArray_ok (p off v t) (h : (kept d).Ok) : (kept (writeArray p off v t d)).Ok := by
  unfold writeArray
  split
  · simpa using h
  split
  · exact stageLow_ok _ _ h
  split
  · exact takeHigh_ok _ _ h
  split
  · exact ipv6Last_ok _ _ h
  split
  · exact ifBit_runRow_ok _ _ (execHlLctrlReturn_kept · _ _ _) (ifBit_runRow_ok _ _ (execHlLctrlFull_kept · _ _ _) (ifBit_runRow_ok _ _ (execHlLctrlRetrain_kept · _ _ _) h))
  split
  · simpa using h
  split
  · simpa using h
  split
  · simpa using h
  split
  · simpa using wrMasked_ok _ _ h
  · exact wrMasked_ok _ _ h

theorem mapWrite_ok (p off v) (h : (kept d).Ok) : (kept (mapWrite p off v d)).Ok := by
  unfold mapWrite
  split
  · next e he => exact writeEffects_ok e (List.mem_of_find?_eq_some he) _ _ _ _ h
  · exact writeArray_ok _ _ _ _ h

theorem writeWord_ok (p off v) (h : (kept d).Ok) : (kept (writeWord p off v d)).Ok := by
  unfold writeWord
  split
  · simpa using h
  · simpa using h
  · simpa using h
  · simpa using h
  · exact onlyIf_ok h fun _ => mapWrite_ok _ _ _ h

theorem writeWide_ok (p off v w) (h : (kept d).Ok) : (kept (writeWide p off v w d)).Ok := by
  unfold writeWide
  split
  · exact writeWord_ok _ _ _ h
  · simpa using h
  · exact h
  · exact writeWord_ok _ _ _ (writeWord_ok _ _ _ h)

theorem execRegisterWrite_ok (path off v) (h : (kept s.dev).Ok) : Answers Kept.Ok (execRegisterWrite path off v s) := by
  simp only [execRegisterWrite, answers_onReg]
  exact writeWide_ok _ _ _ _ h

theorem execReg64HighWrite_ok (path off v) (h : (kept s.dev).Ok) : Answers Kept.Ok (execReg64HighWrite path off v s) := by
  simp only [execReg64HighWrite, answers_onReg]
  exact onlyIf_ok h fun _ => writeWord_ok _ _ _ h

theorem readWords_ok (off) : ∀ (n : Nat) {d : Dev}, (kept d).Ok → (kept (readWords off n d).2).Ok := by
  intro n
  induction n generalizing off with
  | zero => exact id
  | succ n ih => exact fun h => ih _ (readWord_ok _ _ h)

theorem writeWords_ok (off) (l : List Byte) : ∀ (n : Nat) {d : Dev}, (kept d).Ok → (kept (writeWords off l n d)).Ok := by
  intro n
  induction n generalizing off l with
  | zero => intro d h; cases l <;> exact h
  | succ n ih => intro d h; exact ih _ _ (writeWord_ok _ _ _ h)

theorem registerAccess_ok (b t) (h : (kept d).Ok) : (kept (registerAccess b t d)).Ok := by
  unfold registerAccess
  extract_lets write off n
  split
  · simpa using h
  split
  · simpa using h
  split
  · simpa using h
  split
  · rw [reply_kept]
    exact writeWords_ok _ _ _ (by simpa using h)
  · rw [reply_kept]
    exact readWords_ok _ _ h

theorem onMessage_ok (pec t) {f : Dev → Dev} (h : (kept d).Ok) (hf : (kept (f (tick t d))).Ok) : (kept (onMessage pec t f d)).Ok := by
  refine onlyIf_ok (tick_ok _ h) fun _ => ?_
  split
  · exact hf
  · simpa using h

theorem execRegisterAccessRequest_ok (pec bytes t) (h : (kept s.dev).Ok) : Answers Kept.Ok (execRegisterAccessRequest pec bytes t s) := by
  simp only [execRegisterAccessRequest, answers_on]
  exact onMessage_ok _ _ h (registerAccess_ok _ _ (tick_ok _ h))
/-- Every command keeps the invariant: it leaves what the invariant reads, or changes it within bounds. -/
theorem exec_ok (c : Instr) (h : (kept s.dev).Ok) : Answers Kept.Ok (exec c s) := match c with
  | .nop .. => (execNop_kept _ _).of_eq h
  | .read .. => (execRead_kept _ _ _).of_eq h
  | .zwrite .. => (execZwrite_kept _ _ _).of_eq h
  | .zappend .. => (execZappend_kept _ _ _).of_eq h
  | .zmgmtOpen .. => (execZmgmtOpen_kept _ _).of_eq h
  | .zmgmtClose .. => (execZmgmtClose_kept _ _).of_eq h
  | .zmgmtFinish .. => (execZmgmtFinish_kept _ _).of_eq h
  | .zmgmtReset .. => (execZmgmtReset_kept _ _).of_eq h
  | .zmgmtQuery .. => (execZmgmtQuery_kept _ _).of_eq h
  | .cwrite .. => (execCwrite_kept _ _ _).of_eq h
  | .cread .. => (execCread_kept _ _ _).of_eq h
  | .copy .. => (execCopy_kept _ _).of_eq h
  | .wait .. => (execWait_kept _ _ _).of_eq h
  | .abort .. => (execAbort_kept _ _).of_eq h
  | .tenantCreate .. => (execTenantCreate_kept _ _ _).of_eq h
  | .tenantGrant .. => (execTenantGrant_kept _ _ _).of_eq h
  | .tenantDelete .. => (execTenantDelete_kept _ _).of_eq h
  | .ringCreate .. => (execRingCreate_kept _ _).of_eq h
  | .ringDelete .. => (execRingDelete_kept _ _).of_eq h
  | .plotCreate .. => (execPlotCreate_kept _ _ _).of_eq h
  | .regionCreate .. => (execRegionCreate_kept _ _ _).of_eq h
  | .plotDelete .. => (execPlotDelete_kept _ _).of_eq h
  | .plotHints .. => (execPlotHints_kept _ _).of_eq h
  | .accordSet .. => (execAccordSet_kept _ _).of_eq h
  | .connCreate .. => (execConnCreate_kept _ _ _).of_eq h
  | .connDelete .. => (execConnDelete_kept _ _).of_eq h
  | .connKey .. => (execConnKey_kept _ _ _).of_eq h
  | .graftStart .. => (execGraftStart_kept _ _).of_eq h
  | .sqTail .. => (execSqTail_kept _ _ _ _ _).of_eq h
  | .cqHead .. => (execCqHead_kept _ _ _ _ _).of_eq h
  | .cqCountRead .. => (execCqCountRead_kept _ _ _ _).of_eq h
  | .qmMbxDb .. => (execQmMbxDb_kept _ _ _ _).of_eq h
  | .adminRingEnable .. => execAdminRingEnable_ok _ _ h
  | .glbSetupLock .. => execGlbSetupLock_ok _ _ h
  | .registerWrite .. => execRegisterWrite_ok _ _ _ h
  | .reg64HighWrite .. => execReg64HighWrite_ok _ _ _ h
  | .reg64LowRead .. => execReg64LowRead_ok _ _ h
  | .smtIfIpv6LastWrite .. => execSmtIfIpv6LastWrite_ok _ _ _ h
  | .descriptorFetch .. => (execDescriptorFetch_kept _ _ _ _).of_eq h
  | .rangeLockGrant .. => (execRangeLockGrant_kept _ _).of_eq h
  | .writeCommit .. => (execWriteCommit_kept _ _ _ _).of_eq h
  | .writeAcknowledge .. => (execWriteAcknowledge_kept _ _).of_eq h
  | .completionPost .. => (execCompletionPost_kept _ _ _).of_eq h
  | .coalesceTimerExpiry .. => (execCoalesceTimerExpiry_kept _ _ _).of_eq h
  | .waitTimeout .. => (execWaitTimeout_kept _ _ _).of_eq h
  | .bufferGrant => (execBufferGrant_kept _).of_eq h
  | .bufferReturn .. => (execBufferReturn_kept _ _ _).of_eq h
  | .telemetryPeriod .. => (execTelemetryPeriod_kept _ _).of_eq h
  | .accordMissSecond .. => (execAccordMissSecond_kept _ _).of_eq h
  | .almanacPeriod .. => (execAlmanacPeriod_kept _ _).of_eq h
  | .almanacSlot .. => (execAlmanacSlot_kept _ _).of_eq h
  | .blockedTimeExpiry .. => (execBlockedTimeExpiry_kept _ _ _).of_eq h
  | .ldpcDecodeDone .. => (execLdpcDecodeDone_kept _ _ _ _).of_eq h
  | .softBufferGrant .. => (execSoftBufferGrant_kept _ _).of_eq h
  | .stripeIdleSpill .. => (execStripeIdleSpill_kept _ _ _).of_eq h
  | .weedSwitch .. => (execWeedSwitch_kept _ _ _).of_eq h
  | .transplantSwitch .. => (execTransplantSwitch_kept _ _ _ _ _).of_eq h
  | .rebuildReplace .. => (execRebuildReplace_kept _ _ _ _ _).of_eq h
  | .graftZoneSwitch .. => (execGraftZoneSwitch_kept _ _ _ _ _).of_eq h
  | .rowReadsDrained .. => (execRowReadsDrained_kept _ _ _).of_eq h
  | .patrolStripe .. => (execPatrolStripe_kept _ _ _ _ _ _ _ _).of_eq h
  | .medHourTick .. => (execMedHourTick_kept _ _).of_eq h
  | .hlFrameReceive .. => (execHlFrameReceive_kept _ _ _ _ _ _).of_eq h
  | .hlDinFrame .. => (execHlDinFrame_kept _ _ _).of_eq h
  | .hlRspFrame .. => (execHlRspFrame_kept _ _ _).of_eq h
  | .hlAlert .. => (execHlAlert_kept _ _ _).of_eq h
  | .hlLctlAck .. => (execHlLctlAck_kept _ _ _ _).of_eq h
  | .hlLctlNak .. => (execHlLctlNak_kept _ _ _ _).of_eq h
  | .hlParkAck .. => (execHlParkAck_kept _ _ _ _).of_eq h
  | .hlParkNak .. => (execHlParkNak_kept _ _ _ _).of_eq h
  | .hlP1IdleTimer .. => (execHlP1IdleTimer_kept _ _ _).of_eq h
  | .hlReplayTimer .. => (execHlReplayTimer_kept _ _ _).of_eq h
  | .hlLockLoss .. => (execHlLockLoss_kept _ _ _).of_eq h
  | .hlRetrainDone .. => (execHlRetrainDone_kept _ _ _).of_eq h
  | .hlRetrainTimeout .. => (execHlRetrainTimeout_kept _ _ _).of_eq h
  | .hlTrainingDone .. => (execHlTrainingDone_kept _ _ _ _ _ _ _).of_eq h
  | .hlTrainingTimeout .. => (execHlTrainingTimeout_kept _ _ _).of_eq h
  | .hlBridgeWake .. => (execHlBridgeWake_kept _ _ _).of_eq h
  | .lgParkTimer .. => (execLgParkTimer_kept _ _ _).of_eq h
  | .hlOpTimeout .. => (execHlOpTimeout_kept _ _ _ _).of_eq h
  | .hlResetTimeout .. => (execHlResetTimeout_kept _ _ _ _).of_eq h
  | .hlRetryTimer .. => (execHlRetryTimer_kept _ _ _).of_eq h
  | .hlLctrlRetrain .. => (execHlLctrlRetrain_kept _ _ _ _).of_eq h
  | .hlLctrlFull .. => (execHlLctrlFull_kept _ _ _ _).of_eq h
  | .hlLctrlReturn .. => (execHlLctrlReturn_kept _ _ _ _).of_eq h
  | .smtBell .. => (execSmtBell_kept _ _ _).of_eq h
  | .smtRresp .. => (execSmtRresp_kept _ _ _).of_eq h
  | .smtAckRx .. => (execSmtAckRx_kept _ _ _).of_eq h
  | .smtCredRx .. => (execSmtCredRx_kept _ _ _).of_eq h
  | .smtKeepRx .. => (execSmtKeepRx_kept _ _ _).of_eq h
  | .smtCloseRx .. => (execSmtCloseRx_kept _ _ _).of_eq h
  | .smtArpRequest .. => (execSmtArpRequest_kept _ _ _ _ _ _).of_eq h
  | .smtNeighborSolicit .. => (execSmtNeighborSolicit_kept _ _ _ _ _ _).of_eq h
  | .smtIcmpEcho .. => (execSmtIcmpEcho_kept _ _ _ _ _ _ _).of_eq h
  | .smtFrameDrop .. => (execSmtFrameDrop_kept _ _ _ _).of_eq h
  | .smtRtoExpiry .. => (execSmtRtoExpiry_kept _ _ _).of_eq h
  | .smtAckDelayTimer .. => (execSmtAckDelayTimer_kept _ _ _).of_eq h
  | .smtKeepIdle .. => (execSmtKeepIdle_kept _ _ _).of_eq h
  | .smtDeadTimer .. => (execSmtDeadTimer_kept _ _ _).of_eq h
  | .smtEcnHold .. => (execSmtEcnHold_kept _ _ _).of_eq h
  | .smtKeyDrainTimer .. => (execSmtKeyDrainTimer_kept _ _ _).of_eq h
  | .smtCloseTimer .. => (execSmtCloseTimer_kept _ _ _).of_eq h
  | .ethParkTimer .. => (execEthParkTimer_kept _ _ _).of_eq h
  | .pcxParkTimer .. => (execPcxParkTimer_kept _ _ _).of_eq h
  | .pcxFlr .. => (execPcxFlr_kept _ _).of_eq h
  | .pcxOwnerFlr => (execPcxOwnerFlr_kept _).of_eq h
  | .pcxVfDisable .. => (execPcxVfDisable_kept _ _).of_eq h
  | .pcxPerst .. => (execPcxPerst_kept _ _).of_eq h
  | .pcxHotReset .. => (execPcxHotReset_kept _ _).of_eq h
  | .pcxDlDown .. => (execPcxDlDown_kept _ _).of_eq h
  | .pcxDmaError .. => (execPcxDmaError_kept _ _ _ _).of_eq h
  | .ceilingRecompute .. => (execCeilingRecompute_kept _ _).of_eq h
  | .holdupShortTimer .. => (execHoldupShortTimer_kept _ _).of_eq h
  | .vinDrop .. => (execVinDrop_kept _ _ _).of_eq h
  | .vinGlitch .. => (execVinGlitch_kept _ _ _).of_eq h
  | .powerFail .. => execPowerFail_ok _ h
  | .flushDone .. => execFlushDone_ok _ _ h
  | .vinReturn .. => execVinReturn_ok _ _ h
  | .keeperWdogExpiry .. => execKeeperWdogExpiry_ok _ h
  | .heartbeat .. => (execHeartbeat_kept _ _).of_eq h
  | .kprCtrlWarm .. => execKprCtrlWarm_ok _ _ h
  | .kprCtrlShutdown .. => (execKprCtrlShutdown_kept _ _ _).of_eq h
  | .cleanShutdownDone .. => execCleanShutdownDone_ok _ h
  | .hldCtrlCal .. => (execHldCtrlCal_kept _ _ _).of_eq h
  | .hldCalSchedule .. => (execHldCalSchedule_kept _ _).of_eq h
  | .hldCalDone .. => (execHldCalDone_kept _ _ _ _).of_eq h
  | .hldCalAbort .. => (execHldCalAbort_kept _ _ _).of_eq h
  | .hldCtrlBleedSet .. => (execHldCtrlBleedSet_kept _ _ _).of_eq h
  | .hldCtrlBleedClear .. => (execHldCtrlBleedClear_kept _ _ _).of_eq h
  | .bleedDone .. => (execBleedDone_kept _ _ _).of_eq h
  | .leakageCheck .. => (execLeakageCheck_kept _ _).of_eq h
  | .adcSample .. => (execAdcSample_kept _ _ _ _).of_eq h
  | .jnlPageTimer .. => (execJnlPageTimer_kept _ _).of_eq h
  | .checkpointTimer .. => (execCheckpointTimer_kept _ _).of_eq h
  | .checkpointDone .. => (execCheckpointDone_kept _ _).of_eq h
  | .coldReset .. => execColdReset_ok _ _ _ h
  | .railPowerGood .. => (execRailPowerGood_kept _ _ _).of_eq h
  | .railPgTimeout .. => (execRailPgTimeout_kept _ _ _).of_eq h
  | .railFault .. => execRailFault_ok _ _ _ h
  | .sramFillDone .. => (execSramFillDone_kept _ _ _).of_eq h
  | .warmupDone .. => (execWarmupDone_kept _ _ _).of_eq h
  | .warmupTimeout .. => (execWarmupTimeout_kept _ _ _).of_eq h
  | .hbmFillDone .. => (execHbmFillDone_kept _ _).of_eq h
  | .bootVerifyDone .. => (execBootVerifyDone_kept _ _ _ _ _).of_eq h
  | .discoveryDone .. => (execDiscoveryDone_kept _ _ _ _).of_eq h
  | .checkpointLoadDone .. => (execCheckpointLoadDone_kept _ _ _ _).of_eq h
  | .journalReplayDone .. => (execJournalReplayDone_kept _ _ _ _ _).of_eq h
  | .rescueIntakeDone .. => (execRescueIntakeDone_kept _ _).of_eq h
  | .rngReady => (execRngReady_kept _).of_eq h
  | .rngHealthFail .. => (execRngHealthFail_kept _ _).of_eq h
  | .plCeilingChange .. => (execPlCeilingChange_kept _ _).of_eq h
  | .plMoveDone .. => (execPlMoveDone_kept _ _).of_eq h
  | .pl6ModeCheck .. => (execPl6ModeCheck_kept _ _ _).of_eq h
  | .vddcAdapt .. => (execVddcAdapt_kept _ _ _).of_eq h
  | .pmbusArbLoss .. => (execPmbusArbLoss_kept _ _ _ _).of_eq h
  | .s1IdleTimer .. => (execS1IdleTimer_kept _ _).of_eq h
  | .s2IdleTimer .. => (execS2IdleTimer_kept _ _).of_eq h
  | .sleepEntryDone .. => (execSleepEntryDone_kept _ _ _).of_eq h
  | .sleepExitDone .. => (execSleepExitDone_kept _ _ _).of_eq h
  | .pwrSleepS2 .. => execPwrSleepS2_ok _ _ h
  | .pwrSleepS3 .. => execPwrSleepS3_ok _ _ h
  | .pwrPadRelease .. => (execPwrPadRelease_kept _ _).of_eq h
  | .klinkResync .. => execKlinkResync_ok _ _ _ h
  | .klinkPfTimeout .. => execKlinkPfTimeout_ok _ h
  | .clkLoss .. => execClkLoss_ok _ _ h
  | .xtalLost .. => (execXtalLost_kept _ _).of_eq h
  | .rcTrim .. => (execRcTrim_kept _ _ _ _).of_eq h
  | .thmSample .. => execThmSample_ok _ _ _ h
  | .sensorTimeout .. => (execSensorTimeout_kept _ _ _).of_eq h
  | .hbmSensorRead .. => (execHbmSensorRead_kept _ _ _).of_eq h
  | .pthSample .. => execPthSample_ok _ _ _ h
  | .throttleStep .. => (execThrottleStep_kept _ _).of_eq h
  | .thermalCeilingRise .. => (execThermalCeilingRise_kept _ _).of_eq h
  | .orderlyStopDone .. => execOrderlyStopDone_ok _ h
  | .thermalRestart .. => (execThermalRestart_kept _ _).of_eq h
  | .powerSample .. => (execPowerSample_kept _ _ _ _ _ _).of_eq h
  | .ageHourTick .. => (execAgeHourTick_kept _ _ _).of_eq h
  | .silRecord .. => execSilRecord_ok _ h
  | .silProgramDone .. => execSilProgramDone_ok _ h
  | .silSectorEraseDone .. => execSilSectorEraseDone_ok _ h
  | .silTokenTick .. => execSilTokenTick_ok _ h
  | .silHourStore .. => (execSilHourStore_kept _ _).of_eq h
  | .silFreeze .. => execSilFreeze_ok _ _ _ h
  | .silFreezeTimeout .. => execSilFreezeTimeout_ok _ _ h
  | .silWindowRead .. => (execSilWindowRead_kept _ _ _).of_eq h
  | .silClearGo .. => (execSilClearGo_kept _ _ _).of_eq h
  | .silClearDone .. => execSilClearDone_ok _ h
  | .mainRecordStore .. => (execMainRecordStore_kept _ _ _).of_eq h
  | .registerAccessRequest .. => execRegisterAccessRequest_ok _ _ _ h
  | .setEndpointId .. => (execSetEndpointId_kept _ _ _ _ _).of_eq h
  | .getEndpointId .. => (execGetEndpointId_kept _ _ _).of_eq h
  | .getMctpVersionSupport .. => (execGetMctpVersionSupport_kept _ _ _ _).of_eq h
  | .getMessageTypeSupport .. => (execGetMessageTypeSupport_kept _ _ _).of_eq h
  | .getVendorDefinedMessageSupport .. => (execGetVendorDefinedMessageSupport_kept _ _ _ _).of_eq h
  | .pldmBase .. => (execPldmBase_kept _ _ _ _ _).of_eq h
  | .pldmSensorRead .. => (execPldmSensorRead_kept _ _ _ _).of_eq h
  | .pldmFirmwareUpdate .. => (execPldmFirmwareUpdate_kept _ _ _ _ _).of_eq h
  | .mctpTimeout .. => (execMctpTimeout_kept _ _).of_eq h
  | .commitKa .. => (execCommitKa_kept _ _).of_eq h
  | .commitSig .. => (execCommitSig_kept _ _).of_eq h
  | .raise1 .. => (execRaise1_kept _ _ _).of_eq h
  | .raise2 .. => (execRaise2_kept _ _ _).of_eq h
  | .secCmdLower .. => execSecCmdLower_ok _ _ _ h
  | .loweringDone .. => execLoweringDone_ok _ _ _ h
  | .secCmdReplaceKa .. => (execSecCmdReplaceKa_kept _ _ _).of_eq h
  | .secCmdReplaceSig .. => (execSecCmdReplaceSig_kept _ _ _).of_eq h
  | .secCmdAdvanceSvn .. => (execSecCmdAdvanceSvn_kept _ _ _).of_eq h
  | .scuTake .. => (execScuTake_kept _ _).of_eq h
  | .scuRelease .. => (execScuRelease_kept _ _).of_eq h
  | .scuGcmEncrypt .. => (execScuGcmEncrypt_kept _ _ _).of_eq h
  | .scuGcmDecrypt .. => (execScuGcmDecrypt_kept _ _ _).of_eq h
  | .scuCmac .. => (execScuCmac_kept _ _ _).of_eq h
  | .scuKeyWrap .. => (execScuKeyWrap_kept _ _ _).of_eq h
  | .scuKeyUnwrap .. => (execScuKeyUnwrap_kept _ _ _).of_eq h
  | .scuSha384 .. => (execScuSha384_kept _ _ _).of_eq h
  | .scuOpDone => (execScuOpDone_kept _).of_eq h
  | .memCorrectable .. => execMemCorrectable_ok _ _ h
  | .memUncorrectable .. => execMemUncorrectable_ok _ _ _ _ h
  | .narrowWriteRefused .. => (execNarrowWriteRefused_kept _ _ _).of_eq h
  | .fabricParityFail .. => execFabricParityFail_ok _ _ _ _ h
  | .errorRecordHandled => (execErrorRecordHandled_kept _).of_eq h
  | .eccInject .. => execEccInject_ok _ _ h
  | .ageBankReset .. => (execAgeBankReset_kept _ _).of_eq h
  | .rootPllLock .. => (execRootPllLock_kept _ _).of_eq h
  | .vinStable .. => (execVinStable_kept _ _ _).of_eq h
  | .inrushDone .. => (execInrushDone_kept _ _).of_eq h
  | .railSequenceRestart .. => (execRailSequenceRestart_kept _ _ _).of_eq h
  | .railPowerDownStep .. => (execRailPowerDownStep_kept _ _).of_eq h
  | .vinAboveRange .. => (execVinAboveRange_kept _ _ _).of_eq h
  | .allSuppliesLost .. => execAllSuppliesLost_ok _ h
  | .linkGroupPllFail .. => (execLinkGroupPllFail_kept _ _ _).of_eq h
  | .pcxLinkTrained .. => (execPcxLinkTrained_kept _ _ _ _).of_eq h
  | .ethLinkStateChange .. => (execEthLinkStateChange_kept _ _ _).of_eq h
  | .pcxBusMasterEnable .. => (execPcxBusMasterEnable_kept _ _).of_eq h
  | .jtagInstruction .. => (execJtagInstruction_kept _ _ _).of_eq h

/-- The queue is no part of what the invariant reads; on an empty one the part idles. -/
theorem step_ok (h : (kept s.dev).Ok) : Answers Kept.Ok (step s) := by
  unfold step
  split
  · intro t e
    cases e
    exact h
  · exact exec_ok _ h

end

/-- Settles O51. -/
theorem invHoldsAtReset : Obligations.InvHoldsAtReset := by
  unfold Obligations.InvHoldsAtReset
  exact (stateInv_iff _).2
    { regs := rfl, stage := rfl, latch := rfl, epoch := by decide, pwrcyc := by decide, tokens := by decide, head := by decide, rseq := by decide, slots := rfl
      inRing := fun _ he => by cases he }

/-- Settles O52, by the lemma of the command at the front of the queue. -/
theorem everyStepKeepsInv : Obligations.EveryStepKeepsInv := by
  unfold Obligations.EveryStepKeepsInv
  intro s t hs hst
  exact (stateInv_iff t).2 (step_ok ((stateInv_iff s).1 hs) t hst)

end Sys2Proof.Machine

/-!
Commands and rings (spec/03_command_rings.md): NOP, WAIT and ABORT, the creation and deletion of rings.
-/

namespace Sys2Proof.Machine

section
variable {s : State} {d : Dev} {id opc : Nat} {c : Cmd}

/-! ### Commands that are taken up and end -/

/-- A command that stands outstanding is the one that its row takes up. -/
theorem Outstanding.fresh (h : Outstanding s id opc c) : fresh s.dev id opc = some c := fresh_some.2 h

theorem Outstanding.cmd (h : Outstanding s id opc c) : tget s.dev.qm.cmds id = some c := (fresh_some.1 h.fresh).1

/-- The command that ends holds its outcome, in whatever part the end is applied to. -/
theorem ended_finish {q : List Instr} (st : Status) (r n : Nat) (h : tget d.qm.cmds id = some c) : Ended ⟨finish id st r n d, q⟩ id c st r n := onCmd_get_self _ h

/-- A change of one command, at a time told with it or at none, is framed by that command. -/
theorem cmdFrame_onCmd (f : Cmd → Cmd) : CmdFrame [id] s { s with dev := onCmd id f s.dev } :=
  ⟨rfl, fun _ hj => onCmd_get_ne _ _ (by simpa using hj)⟩

theorem cmdFrame_onCmd_tick (f : Cmd → Cmd) (t : Nat) : CmdFrame [id] s { s with dev := onCmd id f (tick t s.dev) } :=
  ⟨rfl, fun _ hj => onCmd_get_ne _ _ (by simpa using hj)⟩

/-! ### What stays when a command is given up -/

@[simp] theorem returnBuffer_qm (pool ptr : Nat) : (returnBuffer pool ptr d).qm = d.qm := by rw [returnBuffer_frame]

@[simp] theorem freeBuffers_qm (p : BufUser → Bool) : (freeBuffers p d).qm = d.qm :=
  forAll_keeps (P := fun e : Dev => e.qm = d.qm) _ _ rfl fun _ _ _ h => by rw [returnBuffer_qm, h]

@[simp] theorem cancel_cmds (i : Nat) : (cancel i d).qm.cmds = d.qm.cmds := by
  simp only [cancel, freeBuffers_qm]
  rw [lockRelease_frame]

/-! ### NOP, WAIT, ABORT (R87, R105-R111) -/

theorem exec_nop (h : Outstanding s id 0x00 c) : exec (.nop id) s = .next { s with dev := finishOk id 0 s.dev } := by
  show execNop id s = _
  simp [execNop, on_next, h.fresh]

/-- A WAIT that names a completion ring of its tenant ends at once where the count is reached, and holds its ring where it is not. -/
theorem exec_wait {r : CompRing} (tm : Nat) (h : Outstanding s id 0x08 c) (hms : dArg c.desc 0 ≤ 60000)
    (hr : tget s.dev.qm.cqs (fld (dArg c.desc 1) 0 16) = some r) (hten : r.tenant = tenantOf s.dev c) (htel : r.telem = false) :
    exec (.wait id tm) s = .next { s with
      dev := if dArg c.desc 2 + 2 ^ 32 * dArg c.desc 3 ≤ r.count then finishOk id r.count (tick tm s.dev) else onCmd id (fun c => { c with stage := .transfer }) (tick tm s.dev) } := by
  have hname : waitMayName (tick tm s.dev) (tenantOf (tick tm s.dev) c) (fld (dArg c.desc 1) 0 16) = true := by
    have hq : tenantOf (tick tm s.dev) c = tenantOf s.dev c := rfl
    simp [waitMayName, hq, hr, hten, htel]
  show execWait id tm s = _
  simp [execWait, on_next, h.fresh, hname, hr, Nat.not_lt.2 hms]

theorem exec_waitTimeout {tm : Nat} (h : tget s.dev.qm.cmds id = some c) (hop : dOpc c.desc = 0x08) (hst : c.stage = .transfer) (hms : dArg c.desc 0 ≠ 0)
    (hdue : c.arrived + 1000000 * dArg c.desc 0 ≤ tm) : exec (.waitTimeout id tm) s = .next { s with dev := finishErr id .waitTimeout (tick tm s.dev) } := by
  show execWaitTimeout id tm s = _
  simp [execWaitTimeout, on_next, h, hop, hst, hms, hdue]

section
variable {r : SubRing} (h : Outstanding s id 0x09 c) (hr : tget s.dev.qm.sqs (fld (dArg c.desc 1) 0 16) = some r) (hten : r.tenant = tenantOf s.dev c)
include h hr hten

/-- What an ABORT of a ring of its tenant does turns on its target: there is none, or it is before its commit point or past it. -/
theorem exec_abort_none (ht : target s.dev id (fld (dArg c.desc 1) 0 16) (fld (dArg c.desc 1) 16 16) = none) :
    exec (.abort id) s = .next { s with dev := finishOk id 2 s.dev } := by
  show execAbort id s = _
  simp [execAbort, on_next, h.fresh, hr, hten, ht]

theorem exec_abort_some {i : Nat} {tc : Cmd} (ht : target s.dev id (fld (dArg c.desc 1) 0 16) (fld (dArg c.desc 1) 16 16) = some (i, tc)) :
    exec (.abort id) s = .next { s with
      dev := if beforeCommit tc = true then onCmd id (fun c => { c with after := some i }) (finishOk id 0 (finishErr i .aborted (cancel i s.dev))) else finishOk id 1 s.dev } := by
  show execAbort id s = _
  simp [execAbort, on_next, h.fresh, hr, hten, ht]

end

/-- An ABORT is not its own target. -/
theorem target_ne {self sq tag i : Nat} {tc : Cmd} (h : target d self sq tag = some (i, tc)) : i ≠ self := by
  have := List.find?_some h
  simp only [Bool.and_eq_true, decide_eq_true_eq] at this
  exact this.1.1.1

/-- A caught target is aborted, and the ABORT's own completion comes after it. -/
theorem ended_aborted {i : Nat} {tc : Cmd} (hi : i ≠ id) (ht : tget s.dev.qm.cmds i = some tc) (hc : tget s.dev.qm.cmds id = some c) :
    let t : State := { s with dev := onCmd id (fun c => { c with after := some i }) (finishOk id 0 (finishErr i .aborted (cancel i s.dev))) }
    Ended t i tc .aborted 0 0xFF ∧ Ended t id { c with after := some i } .ok 0 0xFF := by
  have hct : tget (cancel i s.dev).qm.cmds i = some tc := by rw [cancel_cmds, ht]
  have hcc : tget (finishErr i .aborted (cancel i s.dev)).qm.cmds id = some c := by
    rw [finishErr, finish, onCmd_get_ne _ _ hi.symm, cancel_cmds, hc]
  refine ⟨?_, onCmd_get_self _ (onCmd_get_self _ hcc)⟩
  rw [Ended, onCmd_get_ne _ _ hi, finishOk, finish, onCmd_get_ne _ _ hi]
  exact onCmd_get_self _ hct

end

/-- Settles O1, by what each of the four commands makes of the part. -/
theorem nopWaitAbortComplete : Obligations.NopWaitAbortComplete := by
  unfold Obligations.NopWaitAbortComplete
  refine ⟨?nop, ?wait, ?timeout, ?abort⟩
  case nop => exact fun s id c h => ⟨_, exec_nop h, ended_finish _ _ _ h.cmd, cmdFrame_onCmd _⟩
  case wait =>
    intro s id tm c r h hto hr hten htel
    refine ⟨_, exec_wait tm h hto hr hten htel, ?_⟩
    split
    · exact ⟨cmdFrame_onCmd_tick _ _, ended_finish _ _ _ h.cmd⟩
    · exact ⟨cmdFrame_onCmd_tick _ _, onCmd_get_self _ h.cmd⟩
  case timeout =>
    exact fun s id tm c h hop hst hto hdue => ⟨_, exec_waitTimeout h hop hst hto hdue, ended_finish _ _ _ h, cmdFrame_onCmd_tick _ _⟩
  case abort =>
    intro s id c r h hr hten
    refine ⟨fun hn => ?_, fun i tc hi htc => ?_⟩
    · exact ⟨_, exec_abort_none h hr hten hn, ended_finish _ _ _ h.cmd, cmdFrame_onCmd _⟩
    · refine ⟨_, exec_abort_some h hr hten hi, fun hb => ?_, fun hb => ?_⟩
      · rw [if_neg (by simp [hb])]
        exact ⟨ended_finish _ _ _ h.cmd, cmdFrame_onCmd _⟩
      · rw [if_pos hb]
        exact ended_aborted (target_ne hi) htc h.cmd

end Sys2Proof.Machine

namespace Sys2Proof.Machine
section
variable {s : State} {d : Dev} {id : Nat} {c : Cmd}

/-! ### RING_CREATE (R73, R93) -/

theorem exec_ringCreate (h : Outstanding s id 0x83 c) (turn : adminTurn s.dev id c = true) (hf : ringCreateFault s.dev c = none) :
    exec (.ringCreate id) s = .next { s with dev := ringMake id c s.dev } := by
  show execRingCreate id s = _
  simp [execRingCreate, on_next, h.fresh, turn, hf]

/-- A submission ring is made with the lowest free number of its space and the descriptor's fields, empty. -/
theorem ringMake_sub (hk : fld (dArg c.desc 0) 16 2 ≤ 1) :
    ∃ r, ringMake id c d = finishOk id (tfree d.qm.sqs 1) { d with qm := { d.qm with sqs := tset d.qm.sqs (tfree d.qm.sqs 1) r } } ∧
      r.tenant = (if bit (dArg c.desc 0) 31 then none else some (fld (dArg c.desc 0) 0 12)) ∧ r.admin = decide (fld (dArg c.desc 0) 16 2 = 1) ∧
      r.base = dDptr c.desc ∧ r.log2 = fld (dArg c.desc 1) 0 5 ∧ r.cq = fld (dArg c.desc 1) 16 16 ∧ r.head = 0 ∧ r.tail = 0 :=
  ⟨_, if_pos hk, rfl, rfl, rfl, rfl, rfl, rfl, rfl⟩

/-- A completion or telemetry ring likewise, with its count at 0 and its phase 1. -/
theorem ringMake_comp (hk : 2 ≤ fld (dArg c.desc 0) 16 2) :
    ∃ r, ringMake id c d = finishOk id (tfree d.qm.cqs 1) { d with qm := { d.qm with cqs := tset d.qm.cqs (tfree d.qm.cqs 1) r } } ∧
      r.tenant = (if bit (dArg c.desc 0) 31 then none else some (fld (dArg c.desc 0) 0 12)) ∧ r.telem = decide (fld (dArg c.desc 0) 16 2 = 3) ∧
      r.base = dDptr c.desc ∧ r.log2 = fld (dArg c.desc 1) 0 5 ∧ r.vector = fld (dArg c.desc 3) 0 11 ∧ r.coalCount = fld (dArg c.desc 3) 16 8 ∧
      r.coalTime = fld (dArg c.desc 3) 24 8 ∧ r.count = 0 ∧ r.widx = 0 ∧ r.head = 0 ∧ r.phase = true :=
  ⟨_, if_neg (by omega), rfl, rfl, rfl, rfl, rfl, rfl, rfl, rfl, rfl, rfl, rfl⟩

/-! ### RING_DELETE (R94) -/

/-- An entry that is read is one of the table's. -/
theorem mem_of_tget {α : Type} {t : Tbl α} {k : Nat} {a : α} (h : tget t k = some a) : (k, a) ∈ t := by
  induction t with
  | nil => cases h
  | cons e t ih =>
    obtain ⟨i, w⟩ := e
    simp only [tget] at h
    split at h
    · next hk => cases h; simp [hk]
    · split at h
      · cases h
      · exact List.mem_cons_of_mem _ (ih h)

theorem exec_ringDelete_comp (h : Outstanding s id 0x84 c) (turn : adminTurn s.dev id c = true) (h0 : fld (dArg c.desc 0) 0 16 ≠ 0) (hk : bit (dArg c.desc 0) 31 = true)
    (hc : thas s.dev.qm.cqs (fld (dArg c.desc 0) 0 16) = true) (hn : cqNamed s.dev (fld (dArg c.desc 0) 0 16) = false) :
    exec (.ringDelete id) s = .next { s with dev := finishOk id 0 { s.dev with qm := { s.dev.qm with cqs := tdel s.dev.qm.cqs (fld (dArg c.desc 0) 0 16) } } } := by
  show execRingDelete id s = _
  simp [execRingDelete, on_next, h.fresh, turn, h0, hk, hc, hn]

theorem exec_ringDelete_sub {r : SubRing} (h : Outstanding s id 0x84 c) (turn : adminTurn s.dev id c = true) (h0 : fld (dArg c.desc 0) 0 16 ≠ 0)
    (hk : bit (dArg c.desc 0) 31 = false) (hr : tget s.dev.qm.sqs (fld (dArg c.desc 0) 0 16) = some r) (hh : r.held = none) :
    exec (.ringDelete id) s = .next { s with dev := endDeletion (fld (dArg c.desc 0) 0 16) (dropFetches (fld (dArg c.desc 0) 0 16)
      (onSq (fld (dArg c.desc 0) 0 16) (fun r => { r with deleting := some id }) (onCmd id (fun c => { c with stage := .transfer, past := true }) s.dev))) } := by
  show execRingDelete id s = _
  simp [execRingDelete, on_next, h.fresh, turn, h0, hk, hr, hh]

/-- A ring whose commands are outstanding stays, its deletion asked for or not. -/
theorem endDeletion_of_outstanding {i k : Nat} {o : Cmd} (ho : tget d.qm.cmds k = some o) (hi : o.sq = i) : endDeletion i d = d := by
  have hany : (d.qm.cmds.any fun e => decide (e.2.sq = i)) = true := List.any_eq_true.2 ⟨_, mem_of_tget ho, by simpa using hi⟩
  unfold endDeletion
  split
  · split
    · rw [hany, Bool.true_or, if_pos rfl]
    · rfl
  · rfl

/-- To give up a ring's fetches leaves its rings and its commands as they are while one of its commands is outstanding. -/
theorem dropFetches_of_outstanding {i k : Nat} {o : Cmd} (ho : tget d.qm.cmds k = some o) (hi : o.sq = i) :
    (dropFetches i d).qm.sqs = d.qm.sqs ∧ (dropFetches i d).qm.cmds = d.qm.cmds := by
  unfold dropFetches
  refine forAll_keeps (P := fun e : Dev => e.qm.sqs = d.qm.sqs ∧ e.qm.cmds = d.qm.cmds) _ _ ⟨rfl, rfl⟩ fun u hu e he => ?_
  obtain ⟨hs, hc⟩ := he
  obtain ⟨q, hq, rfl⟩ : ∃ q : ReqUse × Nat × Nat × Nat, (match q.1 with | .descs s _ _ => decide (s = i) | _ => false) = true ∧ q.1 = u := by
    simp only [List.mem_flatMap, List.mem_map, List.mem_filter] at hu
    obtain ⟨_, _, q, ⟨_, hq⟩, rfl⟩ := hu
    exact ⟨q, hq, rfl⟩
  split at hq
  · next j f n hj =>
    have hji : j = i := by simpa using hq
    subst hji
    simp only [hj, failUse]
    split
    · next r hr =>
      have hk : tget (onCq r.cq (fun q => { q with reserved := q.reserved - n }) e).qm.cmds k = some o := by rw [onCq_cmds, hc, ho]
      rw [endDeletion_of_outstanding hk hi]
      exact ⟨hs, hc⟩
    · exact ⟨hs, hc⟩
  · cases hq

end

/-- Settles O3, by what an accepted RING_CREATE makes and by what a RING_DELETE leaves of its ring. -/
theorem ringCreateDeleteComplete : Obligations.RingCreateDeleteComplete := by
  unfold Obligations.RingCreateDeleteComplete
  refine ⟨?sub, ?comp, fun s id c h turn h0 => ⟨?delComp, ?delSub⟩⟩
  case sub =>
    intro s id c h turn hf hk
    obtain ⟨r, hm, hten, hadm, hbase, hlog, hcq, hhead, htail⟩ := ringMake_sub (id := id) (d := s.dev) hk
    have he := exec_ringCreate h turn hf
    rw [hm] at he
    refine ⟨_, r, he, ended_finish _ _ _ h.cmd, tget_tset_self _ _ _, hten, hadm, hbase, hlog, hcq, hhead, htail,
      fun j hj => tget_tset_ne _ _ hj, rfl⟩
  case comp =>
    intro s id c h turn hf hk
    obtain ⟨r, hm, hten, htel, hbase, hlog, hvec, hcc, hct, hcount, hwidx, hhead, hphase⟩ := ringMake_comp (id := id) (d := s.dev) hk
    have he := exec_ringCreate h turn hf
    rw [hm] at he
    refine ⟨_, r, he, ended_finish _ _ _ h.cmd, tget_tset_self _ _ _, hten, htel, hbase, hlog, hvec, hcc, hct, hcount, hwidx,
      hhead, hphase, fun j hj => tget_tset_ne _ _ hj, rfl⟩
  case delComp => exact fun hk hc hn => ⟨_, exec_ringDelete_comp h turn h0 hk hc hn, ended_finish _ _ _ h.cmd, rfl⟩
  case delSub =>
    intro r i o hk hr hh ho hoi hne
    refine ⟨_, exec_ringDelete_sub h turn h0 hk hr hh, ?_⟩
    generalize hd : onSq _ _ (onCmd id _ s.dev) = d
    have hcmd : tget d.qm.cmds id = some { c with stage := .transfer, past := true } := hd ▸ onCmd_get_self _ h.cmd
    have hoth : tget d.qm.cmds i = some o := by rw [← hd, onSq_cmds, onCmd_get_ne _ _ hne, ho]
    have hring : tget d.qm.sqs (fld (dArg c.desc 0) 0 16) = some { r with deleting := some id } := hd ▸ tget_tmod_self _ hr
    obtain ⟨hs, hc⟩ := dropFetches_of_outstanding hoth hoi
    rw [endDeletion_of_outstanding (by rw [hc, hoth]) hoi, hs, hc]
    refine ⟨hcmd, hring, ?_⟩
    simp [canFetch, hs, hring]
end Sys2Proof.Machine

namespace Sys2Proof.Machine
/-! ### DESCRIPTOR_FETCH (R76, R86) -/

/-- The command that a descriptor becomes on its arrival; `arrive_eq` ties it to arrive. -/
def arrivedCmd (sq : Nat) (r : SubRing) (desc : BitVec 512) (t : Nat) (d : Dev) : Cmd :=
  let acc := r.tenant.bind (accordFor d)
  let fs := fetchStatus d sq r.admin desc
  { sq := sq, desc := desc, sqhd := (r.head + 1) % 2 ^ r.log2, arrived := t
    lat := (acc.map (·.lat)).getD 7, gdur := (acc.map (·.durable)).getD false
    stage := if fs.isSome then .done else .fetched, dp := if entryDelay d r.bind then 2 else 0
    status := (fs.map (·.1)).getD .ok, field := (fs.map (·.2)).getD 0xFF }

section
variable {s : State} {d : Dev} {sq : Nat} {desc : BitVec 512} {t : Nat} {r : SubRing}

theorem arrivedCmd_taken (h : fetchStatus d sq r.admin desc = none) : (arrivedCmd sq r desc t d).stage = .fetched := by simp [arrivedCmd, h]

theorem arrivedCmd_refused {st : Status} {fl : Nat} (h : fetchStatus d sq r.admin desc = some (st, fl)) :
    (arrivedCmd sq r desc t d).stage = .done ∧ (arrivedCmd sq r desc t d).status = st ∧ (arrivedCmd sq r desc t d).field = fl := by simp [arrivedCmd, h]

/-- What dispatch loads: lines of the map cache with their count of misses, plots' keys, and the choices of what they evict. -/
theorem dispatchLoads_eq (desc : BitVec 512) (d : Dev) : ∃ lines mapc xts picks,
    dispatchLoads desc d = { d with med := { d.med with mapLines := lines, mapc := mapc }, sec := { d.sec with xts := xts }, io := { d.io with picks := picks } } := by
  unfold dispatchLoads
  dsimp only
  split
  · rw [loadXts_frame, loadXts_frame, mapLookup_frame]
    exact ⟨_, _, _, _, rfl⟩
  · split
    · rw [loadXts_frame, mapLookup_frame]
      exact ⟨_, _, _, _, rfl⟩
    · exact ⟨_, _, _, _, rfl⟩

/-- A descriptor that arrives is outstanding under the next number, and its ring's head has moved on; beside it the caches of dispatch change. -/
theorem arrive_eq (sq : Nat) (r : SubRing) (desc : BitVec 512) (t : Nat) (d : Dev) : ∃ (held : SubRing → Option Nat) (lines : List (Nat × Nat)) (mapc : Nat) (xts : List Nat) (picks : Nat),
    arrive sq r desc t d = { d with
      qm := { d.qm with cmds := tset d.qm.cmds d.qm.nextCmd (arrivedCmd sq r desc t d), nextCmd := d.qm.nextCmd + 1,
                        sqs := tmod d.qm.sqs sq fun r => { r with head := (r.head + 1) % 2 ^ r.log2, held := held r } }
      med := { d.med with mapLines := lines, mapc := mapc }, sec := { d.sec with xts := xts }, io := { d.io with picks := picks } } := by
  obtain ⟨lines, mapc, xts, picks, hl⟩ := dispatchLoads_eq desc d
  unfold arrive arrivedCmd
  rw [hl]
  cases fetchStatus d sq r.admin desc <;> cases Option.bind r.tenant (accordFor d) <;> exact ⟨_, _, _, _, _, rfl⟩

/-- A fetch that may be made on a PCIe ring reserves a completion slot, reads the descriptor's 64 bytes, and the descriptor arrives. -/
theorem exec_descriptorFetch_fn {f : Nat} (h : canFetch s.dev sq = true) (hr : tget s.dev.qm.sqs sq = some r) (hb : r.bind = .fn f) :
    ∃ (held : SubRing → Option Nat) (lines : List (Nat × Nat)) (mapc : Nat) (xts : List Nat) (picks : Nat), exec (.descriptorFetch sq desc t) s = .next { s with
      dev := { s.dev with
        qm := { s.dev.qm with
          cmds := tset s.dev.qm.cmds s.dev.qm.nextCmd (arrivedCmd sq r desc t s.dev), nextCmd := s.dev.qm.nextCmd + 1
          sqs := tmod s.dev.qm.sqs sq fun r => { r with head := (r.head + 1) % 2 ^ r.log2, held := held r }
          cqs := tmod s.dev.qm.cqs r.cq fun q => { q with reserved := q.reserved + 1 } }
        med := { s.dev.med with mapLines := lines, mapc := mapc }, sec := { s.dev.sec with xts := xts }
        pwr := (touchPort (.pcx (f / 1024)) t (tick t s.dev)).pwr
        io := { (tick t s.dev).io with out := s.dev.io.out ++ [.dmaRead f (r.base + 64 * r.head) 64], picks := picks } } } := by
  have hcan : canFetch (tick t s.dev) sq = true := h
  obtain ⟨held, lines, mapc, xts, picks, ha⟩ := arrive_eq sq r desc t (send (.dmaRead f (r.base + 64 * r.head) 64) (reserve r.cq (tick t s.dev)))
  refine ⟨held, lines, mapc, xts, picks, ?_⟩
  show execDescriptorFetch sq desc t s = _
  simp only [execDescriptorFetch, fetch, on_next, tick_qm, hr, hcan, hb, ha]
  rfl

end

/-- Settles O55: the order of R72 leaves the tag as what decides. -/
theorem outstandingTagsAreUnique : Obligations.OutstandingTagsAreUnique := by
  unfold Obligations.OutstandingTagsAreUnique
  intro s sq desc tm r f h hr hb hstop hallow howner
  obtain ⟨held, lines, mapc, xts, picks, he⟩ := exec_descriptorFetch_fn (desc := desc) (t := tm) h hr hb
  have hfs : fetchStatus s.dev sq r.admin desc = if tagBusy s.dev sq (dTag desc) then some (.invalidField, 2) else none := by
    have ho : ¬ (ownerOnly (dOpc desc) = true ∧ sq ≠ 0) := fun ⟨ho, hsq⟩ => hsq (howner ho)
    rw [fetchStatus, hstop, hallow, if_neg Bool.false_ne_true, if_neg (by decide), if_neg ho]
  refine ⟨_, arrivedCmd sq r desc tm s.dev, he, tget_tset_self _ _ _, rfl, rfl, ?busy, ?free, fun _ hj => tget_tset_ne _ _ hj⟩
  case busy =>
    rintro ⟨e, he, hsq, htag⟩
    have hb : tagBusy s.dev sq (dTag desc) = true := List.any_eq_true.2 ⟨e, he, by simp [hsq, htag]⟩
    exact arrivedCmd_refused (by rw [hfs, if_pos hb])
  case free =>
    intro hne
    have hb : ¬ tagBusy s.dev sq (dTag desc) = true := fun hb => by
      obtain ⟨e, he, h⟩ := List.any_eq_true.1 hb
      simp only [Bool.and_eq_true, decide_eq_true_eq] at h
      exact hne e he h.1 h.2
    exact arrivedCmd_taken (by rw [hfs, if_neg hb])
end Sys2Proof.Machine

namespace Sys2Proof.Machine
/-! ### COMPLETION_POST, COALESCE_TIMER_EXPIRY (R76-R78, R81, R95) -/

/-- Between two parts a completion ring has become r: the other rings and the count of dropped telemetry are as they were, and what was sent out is sent out. -/
structure RingMoved (cq : Nat) (r : CompRing) (d e : Dev) : Prop where
  ring : tget e.qm.cqs cq = some r
  others : ∀ j, j ≠ cq → tget e.qm.cqs j = tget d.qm.cqs j
  out : d.io.out <+: e.io.out
  drop : e.qm.telemDrop = d.qm.telemDrop

section
variable {s : State} {d e : Dev} {id cq t : Nat} {c : Cmd} {r q : CompRing}

theorem RingMoved.trans {f : Dev} (h : RingMoved cq r d e) (k : RingMoved cq q e f) : RingMoved cq q d f :=
  ⟨k.ring, fun j hj => (k.others j hj).trans (h.others j hj), h.out.trans k.out, k.drop.trans h.drop⟩

theorem RingMoved.onCq (f : CompRing → CompRing) (h : tget d.qm.cqs cq = some r) : RingMoved cq (f r) d (onCq cq f d) :=
  ⟨tget_tmod_self f h, fun _ hj => tget_tmod_ne _ _ hj, List.prefix_rfl, rfl⟩

/-- What leaves the completion rings and what was sent out alone leaves a ring where it is. -/
theorem RingMoved.of_same (h : RingMoved cq r d e) {f : Dev} (hq : f.qm.cqs = e.qm.cqs) (hd : f.qm.telemDrop = e.qm.telemDrop) (ho : f.io.out = e.io.out) : RingMoved cq r d f :=
  ⟨by rw [hq, h.ring], fun j hj => by rw [hq, h.others j hj], by rw [ho]; exact h.out, by rw [hd, h.drop]⟩

/-- An interrupt sends its message or sets its pending bit. -/
theorem raiseMsix_eq (f v : Nat) (d : Dev) : ∃ pcx l, raiseMsix f v d = { d with pcx := pcx, io := { d.io with out := d.io.out ++ l } } := by
  have hsame : ∀ p, { d with pcx := p } = { d with pcx := p, io := { d.io with out := d.io.out ++ [] } } := fun p => by rw [List.append_nil]
  unfold raiseMsix
  split
  · split
    · exact ⟨_, [], hsame _⟩
    · split
      · exact ⟨d.pcx, _, rfl⟩
      · exact ⟨d.pcx, [], hsame d.pcx⟩
  · exact ⟨_, [], hsame _⟩

theorem RingMoved.raiseIrq (h : tget d.qm.cqs cq = some r) : ∃ n x, RingMoved cq { r with sinceIrq := n, firstAt := x } d (raiseIrq cq d) := by
  unfold Machine.raiseIrq
  rw [h]
  dsimp only
  split
  · next f _ =>
    obtain ⟨pcx, l, he⟩ := raiseMsix_eq f r.vector (Machine.onCq cq (fun r => { r with sinceIrq := 0, firstAt := none }) d)
    obtain ⟨hring, hothers, -, hdrop⟩ := RingMoved.onCq (fun r => { r with sinceIrq := 0, firstAt := none }) h
    rw [he]
    exact ⟨0, none, hring, hothers, List.prefix_append _ _, hdrop⟩
  · exact ⟨_, _, h, fun _ _ => rfl, List.prefix_rfl, rfl⟩

/-- Coalescing changes the ring's count and time since the last interrupt, and may send the interrupt. -/
theorem RingMoved.coalesce (t : Nat) (h : tget d.qm.cqs cq = some r) : ∃ n x, RingMoved cq { r with sinceIrq := n, firstAt := x } d (coalesce cq t d) := by
  unfold Machine.coalesce
  rw [h]
  dsimp only
  have hc := RingMoved.onCq (fun q => { q with sinceIrq := r.sinceIrq + 1, firstAt := match q.firstAt with | some x => some x | none => some t }) h
  split
  · obtain ⟨n, x, hi⟩ := RingMoved.raiseIrq hc.ring
    exact ⟨n, x, hc.trans hi⟩
  · exact ⟨_, _, hc⟩

/-- WAITs that a count satisfies end; nothing but commands changes. -/
theorem satisfyWaits_eq (cq n : Nat) (d : Dev) : ∃ cmds, satisfyWaits cq n d = { d with qm := { d.qm with cmds := cmds } } :=
  forAll_keeps (P := fun e => ∃ cmds, e = { d with qm := { d.qm with cmds := cmds } }) _ _ ⟨_, rfl⟩ fun _ _ _ ⟨_, h⟩ => by
    subst h
    exact ⟨_, rfl⟩

/-- A completion that is visible counts (R78). -/
theorem RingMoved.counted (t : Nat) (h : tget d.qm.cqs cq = some r) : ∃ n x, RingMoved cq { r with count := r.count + 1, sinceIrq := n, firstAt := x } d (counted cq t d) := by
  have hc := RingMoved.onCq (fun r => { r with count := r.count + 1 }) h
  obtain ⟨n, x, hi⟩ := RingMoved.coalesce t hc.ring
  obtain ⟨cmds, hw⟩ := satisfyWaits_eq cq (r.count + 1) (Machine.coalesce cq t (Machine.onCq cq (fun r => { r with count := r.count + 1 }) d))
  refine ⟨n, x, (hc.trans hi).of_same ?_ ?_ ?_⟩ <;> simp [Machine.counted, h, hw]

/-- A completion of a PCIe ring is written at the write index, the index moves on, the phase inverts at the wrap, and the completion counts (R77, R78, R95). -/
theorem writeCompletion_fn {f : Nat} (bytes t : Nat) (h : tget d.qm.cqs cq = some r) (hb : r.bind = .fn f) :
    ∃ n x, RingMoved cq { r with widx := (r.widx + 1) % 2 ^ r.log2, phase := if (r.widx + 1) % 2 ^ r.log2 = 0 then !r.phase else r.phase,
                                 reserved := r.reserved - 1, count := r.count + 1, sinceIrq := n, firstAt := x }
      (send (.dma f (r.base + 32 * r.widx) 32 bytes) d) (writeCompletion cq r bytes t d) := by
  have hw : writeCompletion cq r bytes t d = counted cq t (slotWritten cq (send (.dma f (r.base + 32 * r.widx) 32 bytes) d)) := by simp only [writeCompletion, hb]
  rw [hw]
  have hs := RingMoved.onCq (d := send (.dma f (r.base + 32 * r.widx) 32 bytes) d)
    (fun r => { r with widx := (r.widx + 1) % 2 ^ r.log2, phase := if (r.widx + 1) % 2 ^ r.log2 = 0 then !r.phase else r.phase, reserved := r.reserved - 1 }) h
  obtain ⟨n, x, hc⟩ := RingMoved.counted t hs.ring
  exact ⟨n, x, hs.trans hc⟩

@[simp] theorem dropCmd_cqs (id : Nat) (d : Dev) : (dropCmd id d).qm.cqs = d.qm.cqs := by
  unfold dropCmd
  rw [lockRelease_frame]
@[simp] theorem dropCmd_io (id : Nat) (d : Dev) : (dropCmd id d).io = d.io := by
  unfold dropCmd
  rw [lockRelease_frame]

/-- A completion counts in its tenant's figures alone. -/
theorem countStats_eq (c : Cmd) (k : Option Nat) (svc : Nat) (cb : Bool) (d : Dev) : ∃ stats, countStats c k svc cb d = { d with alm := { d.alm with stats := stats } } := by
  cases k with
  | none => exact ⟨_, rfl⟩
  | some k => exact ⟨_, rfl⟩

/-- A deletion that completes takes its submission ring away and ends its command. -/
theorem endDeletion_eq (i : Nat) (d : Dev) : ∃ sqs cmds, endDeletion i d = { d with qm := { d.qm with sqs := sqs, cmds := cmds } } := by
  unfold endDeletion
  split
  · split
    · split
      · exact ⟨_, _, rfl⟩
      · exact ⟨_, _, rfl⟩
    · exact ⟨_, _, rfl⟩
  · exact ⟨_, _, rfl⟩

/-- A completion that is not discarded is written with every cause of its miss. -/
theorem exec_completionPost {sr : SubRing} {f : Nat} (tm : Nat) (hc : tget s.dev.qm.cmds id = some c) (hp : canPost s.dev id c = true) (hsr : ringOf s.dev c = some sr)
    (hr : tget s.dev.qm.cqs sr.cq = some r) (hb : r.bind = .fn f) (hd : discarded c r s.dev = false) :
    exec (.completionPost id tm) s = .next { s with dev := touchPort (.pcx (f / 1024)) tm (endDeletion c.sq (writeCompletion sr.cq r
      (completionBytes (withCauses (tick tm s.dev) id c tm) (svcOf c tm) (missed c (svcOf c tm)) r.phase) tm
      (countStats (withCauses (tick tm s.dev) id c tm) sr.tenant (svcOf c tm) (missed c (svcOf c tm)) (dropCmd id (tick tm s.dev))))) } := by
  have hp' : canPost (tick tm s.dev) id c = true := hp
  have hsr' : ringOf (tick tm s.dev) c = some sr := hsr
  have hd' : discarded (withCauses (tick tm s.dev) id c tm) r (tick tm s.dev) = false := hd
  show execCompletionPost id tm s = _
  simp only [execCompletionPost, on_next, tick_qm, hc, withSome_some, hp', onlyIf_true, post, hsr', hr, hd']
  simp only [hb]
  rfl

theorem exec_coalesceTimerExpiry {tm x f : Nat} {m : Msix} (hr : tget s.dev.qm.cqs cq = some r) (hx : r.firstAt = some x) (hct : r.coalTime ≠ 0)
    (hdue : x + 1000 * r.coalTime ≤ tm) (hh : r.halted = false) (hb : r.bind = .fn f) (hm : tget s.dev.pcx.msix (f * 2048 + r.vector) = some m) (hmm : m.masked = false)
    (hon : msixOn s.dev f = true) (hbm : busMaster s.dev f = true) :
    exec (.coalesceTimerExpiry cq tm) s = .next { s with dev := send (.msix f m.addr m.data) (onCq cq (fun r => { r with sinceIrq := 0, firstAt := none }) (tick tm s.dev)) } := by
  have hon' : msixOn (onCq cq (fun r => { r with sinceIrq := 0, firstAt := none }) (tick tm s.dev)) f = true := hon
  have hbm' : busMaster (onCq cq (fun r => { r with sinceIrq := 0, firstAt := none }) (tick tm s.dev)) f = true := hbm
  show execCoalesceTimerExpiry cq tm s = _
  simp [execCoalesceTimerExpiry, on_next, hr, hx, hct, hdue, hh, raiseIrq, hb, raiseMsix, hm, hmm, hon', hbm']

end

/-- Settles O4, by what a fetch, a completion's writing and the coalescing time's end make of their rings. -/
theorem fetchAndPostComplete : Obligations.FetchAndPostComplete := by
  unfold Obligations.FetchAndPostComplete
  refine ⟨?fetch, ?post, ?coalesce⟩
  case fetch =>
    intro s sq desc tm r q f h hr hb hq
    obtain ⟨held, lines, mapc, xts, picks, he⟩ := exec_descriptorFetch_fn (desc := desc) (t := tm) h hr hb
    exact ⟨_, arrivedCmd sq r desc tm s.dev, he, tget_tset_self _ _ _, rfl, rfl, rfl, rfl, rfl, arrivedCmd_taken, fun _ _ => arrivedCmd_refused,
      ⟨_, tget_tmod_self _ hr, rfl, rfl⟩, tget_tmod_self _ hq, rfl, fun _ hj => tget_tset_ne _ _ hj, rfl⟩
  case post =>
    intro s id tm c sr r f hc hp hsr hr hb hd
    have he := exec_completionPost tm hc hp hsr hr hb hd
    generalize completionBytes _ _ _ _ = bytes at he ⊢
    obtain ⟨stats, hs⟩ := countStats_eq (withCauses (tick tm s.dev) id c tm) sr.tenant (svcOf c tm) (missed c (svcOf c tm)) (dropCmd id (tick tm s.dev))
    generalize hd0 : countStats _ _ _ _ _ = d0 at he hs
    have hq0 : d0.qm.cqs = s.dev.qm.cqs := by simp [hs]
    have ho0 : d0.io.out = s.dev.io.out := by simp [hs]
    obtain ⟨n, x, hw⟩ := writeCompletion_fn (d := d0) bytes tm (hq0 ▸ hr) hb
    obtain ⟨sqs, cmds, hed⟩ := endDeletion_eq c.sq (writeCompletion sr.cq r bytes tm d0)
    rw [hed] at he
    obtain ⟨rest, hrest⟩ := hw.out
    refine ⟨_, _, rest, he, ?_, hw.ring, rfl, rfl, rfl, rfl, fun j hj => ?_⟩
    · rw [send_out, ho0, List.append_assoc] at hrest
      exact hrest.symm
    · rw [← hq0]
      exact hw.others j hj
  case coalesce =>
    intro s cq tm r x f m hr hx hct hdue hh hb hm hmm hon hbm
    exact ⟨_, exec_coalesceTimerExpiry hr hx hct hdue hh hb hm hmm hon hbm, rfl, tget_tmod_self _ hr, rfl⟩
end Sys2Proof.Machine

namespace Sys2Proof.Machine
/-! ### Range locks (R112-R114) -/

section
variable {l : List Lock} {e : Lock} {d : Dev} {id : Nat}

/-- An entry goes in behind the others ungranted. -/
theorem LocksApart.append (h : LocksApart l) (he : e.held = false) (hne : ∀ x ∈ l, x.cmd ≠ e.cmd) : LocksApart (l ++ [e]) := by
  obtain ⟨hnodup, hentered, hapart⟩ := h
  refine ⟨?_, ?_, ?_⟩
  · simp [List.nodup_append, hnodup]
    exact hne
  · simp only [List.mem_append, List.mem_singleton]
    rintro x (hx | rfl) hheld
    · exact hentered x hx hheld
    · rw [he] at hheld
      cases hheld
  · rw [List.pairwise_append]
    refine ⟨hapart, List.pairwise_singleton _ _, fun a _ b hb hheld => ?_⟩
    rw [List.mem_singleton.1 hb, he] at hheld
    cases hheld

/-- To give entries up keeps the others apart. -/
theorem LocksApart.filter (h : LocksApart l) (p : Lock → Bool) : LocksApart (l.filter p) := by
  obtain ⟨hnodup, hentered, hapart⟩ := h
  exact ⟨hnodup.sublist (List.filter_sublist.map _), fun x hx => hentered x (List.mem_filter.1 hx).1, hapart.sublist List.filter_sublist⟩

/-- Promotion gives an entry its place in the table or leaves it. -/
theorem mem_lockPromote (mx : Nat) : ∀ (l w : List Lock), ∀ x ∈ lockPromote mx w l, ∃ y ∈ l, x = y ∨ x = { y with entered := true }
  | [], _, _, hx => by cases hx
  | e :: t, w, x, hx => by
    unfold lockPromote at hx
    split at hx <;> rcases List.mem_cons.1 hx with rfl | hx
    · exact ⟨e, by simp, .inr rfl⟩
    · obtain ⟨y, hy, h⟩ := mem_lockPromote mx t _ x hx
      exact ⟨y, List.mem_cons_of_mem _ hy, h⟩
    · exact ⟨x, by simp, .inl rfl⟩
    · obtain ⟨y, hy, h⟩ := mem_lockPromote mx t _ x hx
      exact ⟨y, List.mem_cons_of_mem _ hy, h⟩

theorem lockPromote_pairwise (mx : Nat) : ∀ (l w : List Lock), (l.Pairwise fun a b => b.held = true → lockConflict a b = false) →
    (lockPromote mx w l).Pairwise fun a b => b.held = true → lockConflict a b = false
  | [], _, _ => .nil
  | e :: t, w, h => by
    obtain ⟨hhead, htail⟩ := List.pairwise_cons.1 h
    have hp : ∀ w, ∀ x ∈ lockPromote mx w t, x.held = true → lockConflict e x = false := fun w x hx => by
      obtain ⟨y, hy, rfl | rfl⟩ := mem_lockPromote mx t w x hx
      · exact hhead _ hy
      · exact hhead y hy
    unfold lockPromote
    split
    · exact .cons (hp _) (lockPromote_pairwise mx t _ htail)
    · exact .cons (hp _) (lockPromote_pairwise mx t _ htail)

theorem LocksApart.promote (h : LocksApart l) (mx : Nat) (w : List Lock) : LocksApart (lockPromote mx w l) := by
  obtain ⟨hnodup, hentered, hapart⟩ := h
  refine ⟨?_, fun x hx hheld => ?_, lockPromote_pairwise mx l w hapart⟩
  · have hc := congrArg (List.map (·.1)) (lockPromote_cmds mx l w)
    simp only [List.map_map, Function.comp_def] at hc
    rw [hc]
    exact hnodup
  · obtain ⟨y, hy, rfl | rfl⟩ := mem_lockPromote mx l w x hx
    · exact hentered _ hy hheld
    · rfl

theorem lockPromote_length (mx : Nat) (l w : List Lock) : (lockPromote mx w l).length = l.length := by
  simpa using congrArg List.length (lockPromote_cmds mx l w)

/-- An entry that may be granted stands in the table, ungranted, behind none that it conflicts with. -/
theorem lockFree_iff : lockFree l id = true ↔ ∃ a e b, l = a ++ e :: b ∧ (∀ x ∈ a, x.cmd ≠ id ∧ lockConflict x e = false) ∧ e.cmd = id ∧ e.entered = true ∧ e.held = false := by
  unfold lockFree
  rw [List.span_eq_takeWhile_dropWhile]
  constructor
  · intro h
    split at h
    · next a e b hspan =>
      obtain ⟨rfl, hd⟩ := Prod.mk.inj hspan
      simp only [Bool.and_eq_true, Bool.not_eq_true', List.any_eq_false] at h
      obtain ⟨⟨hentered, hheld⟩, hconf⟩ := h
      have hcmd := List.head?_dropWhile_not (fun e => decide (e.cmd ≠ id)) l
      rw [hd] at hcmd
      refine ⟨_, e, b, by rw [← hd, List.takeWhile_append_dropWhile], fun x hx => ⟨?_, by simpa using hconf x hx⟩, by simpa using hcmd, hentered, hheld⟩
      simpa using List.mem_takeWhile_imp hx
    · cases h
  · rintro ⟨a, e, b, rfl, ha, rfl, hentered, hheld⟩
    have hp : ∀ x ∈ a, decide (x.cmd ≠ e.cmd) = true := fun x hx => by simpa using (ha x hx).1
    rw [List.takeWhile_append_of_pos hp, List.dropWhile_append_of_pos hp]
    simp [hentered, hheld]
    exact fun x hx => (ha x hx).2

/-- An entry granted behind none that it conflicts with stands apart from those before it and, as before, from those behind it. -/
theorem LocksApart.grant_entry {a b : List Lock} (h : LocksApart (a ++ e :: b)) (hc : ∀ x ∈ a, lockConflict x e = false) (hentered : e.entered = true) :
    LocksApart (a ++ { e with held := true } :: b) := by
  obtain ⟨hnodup, hin, hapart⟩ := h
  obtain ⟨ha, hb, hab⟩ := List.pairwise_append.1 hapart
  obtain ⟨heb, hbb⟩ := List.pairwise_cons.1 hb
  refine ⟨by simpa using hnodup, fun x hx => ?_, List.pairwise_append.2 ⟨ha, List.pairwise_cons.2 ⟨heb, hbb⟩, fun x hx y hy => ?_⟩⟩
  · rcases List.mem_append.1 hx with hx | hx
    · exact hin x (List.mem_append_left _ hx)
    · rcases List.mem_cons.1 hx with rfl | hx
      · exact fun _ => hentered
      · exact hin x (List.mem_append_right _ (List.mem_cons_of_mem _ hx))
  · rcases List.mem_cons.1 hy with rfl | hy
    · exact fun _ => hc x hx
    · exact hab x hx y (List.mem_cons_of_mem _ hy)

theorem map_grant_of_ne (h : ∀ x ∈ l, x.cmd ≠ id) : (l.map fun x => if x.cmd = id then { x with held := true } else x) = l :=
  (List.map_congr_left fun x hx => if_neg (h x hx)).trans (List.map_id' l)

/-- To grant an entry that may be granted keeps granted entries apart. -/
theorem LocksApart.grant (h : LocksApart d.qm.locks) (id : Nat) : LocksApart (lockGrant id d).qm.locks := by
  unfold lockGrant
  split
  · next hf =>
    obtain ⟨a, e, b, hl, ha, rfl, hentered, -⟩ := lockFree_iff.1 hf
    rw [hl] at h
    have hb : ∀ x ∈ b, x.cmd ≠ e.cmd := fun x hx hxe => by
      have hnodup := (List.nodup_append.1 (List.map_append ▸ h.1)).2.1
      exact (List.nodup_cons.1 hnodup).1 (List.mem_map.2 ⟨x, hx, hxe⟩)
    have hl' : (setLocks (d.qm.locks.map fun x => if x.cmd = e.cmd then { x with held := true } else x) d).qm.locks = a ++ { e with held := true } :: b := by
      rw [setLocks_locks, hl, List.map_append, List.map_cons, if_pos rfl, map_grant_of_ne fun x hx => (ha x hx).1, map_grant_of_ne hb]
    rw [hl']
    exact h.grant_entry (fun x hx => (ha x hx).2) hentered
  · exact h

/-- Entries in the table are promoted already: promotion passes over them. -/
theorem lockPromote_append_entered (mx : Nat) (w b : List Lock) : ∀ (a : List Lock), (∀ x ∈ a, x.entered = true) → lockPromote mx w (a ++ b) = a ++ lockPromote mx w b
  | [], _ => rfl
  | x :: a, h => by
    rw [List.cons_append, lockPromote, if_neg (by simp [h x (by simp)]), lockPromote_append_entered mx w b a fun y hy => h y (by simp [hy]), List.cons_append]

/-- An entry that arrives where nothing stands in its way takes its place in the table. -/
theorem lockPromote_arrival (h : ∀ x ∈ l, x.entered = true) (he : e.entered = false) (hroom : lockUsed l < 8192) {mx : Nat} (hmx : lockUsedBy l e.tenant < mx) :
    lockPromote mx (l ++ [e]) (l ++ [e]) = l ++ [{ e with entered := true }] := by
  have hu : lockUsed (l ++ [e]) = lockUsed l := by simp [lockUsed, he]
  have hb : lockUsedBy (l ++ [e]) e.tenant = lockUsedBy l e.tenant := by simp [lockUsedBy, he]
  rw [lockPromote_append_entered mx _ _ l h, lockPromote, if_pos ⟨by simp [he], hu ▸ hroom, hb ▸ hmx⟩]
  rfl

/-- A free entry is granted. -/
theorem lockGrant_held (h : lockFree d.qm.locks id = true) : lockHeld (lockGrant id d).qm.locks id = true := by
  obtain ⟨a, e, b, hl, -, hcmd, -⟩ := lockFree_iff.1 h
  unfold lockGrant
  rw [if_pos h, setLocks_locks]
  exact List.any_eq_true.2 ⟨{ e with held := true }, List.mem_map.2 ⟨e, by simp [hl], if_pos hcmd⟩, by simp [hcmd]⟩

end

/-- Settles O57: arrival, promotion, grant and release each keep granted entries apart, and an entry with nothing in its way is granted on arrival. -/
theorem lockOperationsKeepGrantsApart : Obligations.LockOperationsKeepGrantsApart := by
  unfold Obligations.LockOperationsKeepGrantsApart
  refine ⟨fun d e h he hne => ?arrive, fun d id h => ⟨h.grant id, ?length, (h.filter _).promote _ _⟩, fun d e h hopen he hent hroom hmx => ?granted⟩
  case arrive => exact ((h.append he hne).promote _ _).grant (d := setLocks _ d) _
  case length => exact (lockPromote_length _ _ _).trans_le (List.length_filter_le _ _)
  case granted =>
    refine lockGrant_held (lockFree_iff.2 ⟨d.qm.locks, { e with entered := true }, [], ?_, fun x hx => ⟨(hopen x hx).1, (hopen x hx).2.2⟩, rfl, rfl, he⟩)
    rw [setLocks_locks, lockPromote_arrival (fun x hx => (hopen x hx).2.1) hent hroom hmx]
end Sys2Proof.Machine

namespace Sys2Proof.Machine
/-! ### Doorbells (R80) -/

section
variable {s : State} {d : Dev} {who : Bind} {i v t : Nat} {r : SubRing} {q : CompRing}

theorem wakeEntering_eq (commit : Nat) (out : Sleep) (t : Nat) (d : Dev) : ∃ pwr, wakeEntering commit out t d = { d with pwr := pwr } := by
  unfold wakeEntering
  split <;> exact ⟨_, rfl⟩

/-- What wakes the part changes the state of power alone. -/
theorem wakeForCommand_eq (t : Nat) (d : Dev) : ∃ pwr, wakeForCommand t d = { d with pwr := pwr } := by
  unfold wakeForCommand
  cases d.pwr.sleep with
  | s1Entering => exact wakeEntering_eq _ _ _ _
  | entering => exact wakeEntering_eq _ _ _ _
  | s0 | s1 | s1Leaving | s2 | leaving => exact ⟨_, rfl⟩

theorem wakeS2_eq (t : Nat) (d : Dev) : ∃ pwr, wakeS2 t d = { d with pwr := pwr } := by
  unfold wakeS2
  split
  · exact wakeForCommand_eq t d
  · exact ⟨_, rfl⟩

theorem sqBell_valid (hr : tget d.qm.sqs i = some r) (hb : r.bind = who) (hh : r.halted = false) (hv : v < 2 ^ r.log2) : sqBell who i v d = setTail i v d := by
  simp [sqBell, hr, dbValid, hb, hh, hv]

theorem sqBell_invalid (hr : tget d.qm.sqs i = some r) (h : r.bind ≠ who ∨ 2 ^ r.log2 ≤ v) : sqBell who i v d = rejectDb d := by
  have hv : dbValid r.bind who r.halted r.log2 v = false := by
    rcases h with h | h
    · simp [dbValid, h]
    · simp [dbValid, Nat.not_lt.2 h]
  simp [sqBell, hr, hv]

theorem cqBell_valid (hr : tget d.qm.cqs i = some q) (hb : q.bind = who) (hh : q.halted = false) (hv : v < 2 ^ q.log2) :
    cqBell who i v d = onCq i (fun r => { r with head := v }) d := by
  simp [cqBell, hr, dbValid, hb, hh, hv]

/-- A tail that is set may be the one with which the owner admin ring is served again (R180). -/
theorem setTail_eq (i v : Nat) (d : Dev) : ∃ await, setTail i v d = { d with qm := { d.qm with sqs := tmod d.qm.sqs i fun r => { r with tail := v }, adminAwait := await } } := by
  unfold setTail
  dsimp only
  split <;> exact ⟨_, rfl⟩

/-- A doorbell through a port that is on rings, and touches power's state of the port and of sleep. -/
theorem exec_sqTail {fn sq : Nat} (v : Word) (tm : Nat) (hup : mainUp s.dev = true) (hon : pcxOn s.dev (fn / 1024) = true) :
    ∃ pwr, exec (.sqTail fn sq v tm) s = .next { s with dev := { sqBell (.fn fn) sq (fld v.toNat 0 16) (tick tm s.dev) with pwr := pwr } } := by
  obtain ⟨pwr, hw⟩ := wakeForCommand_eq tm (touchPort (.pcx (fn / 1024)) tm (sqBell (.fn fn) sq (fld v.toNat 0 16) (tick tm s.dev)))
  refine ⟨pwr, ?_⟩
  show execSqTail fn sq v tm s = _
  rw [execSqTail, on_next, hup, hon, Bool.and_true, onlyIf_true, hw]
  rfl

theorem exec_cqHead {fn cq : Nat} (v : Word) (tm : Nat) (hup : mainUp s.dev = true) (hon : pcxOn s.dev (fn / 1024) = true) :
    ∃ pwr, exec (.cqHead fn cq v tm) s = .next { s with dev := { cqBell (.fn fn) cq (fld v.toNat 0 16) (tick tm s.dev) with pwr := pwr } } := by
  obtain ⟨pwr, hw⟩ := wakeS2_eq tm (touchPort (.pcx (fn / 1024)) tm (cqBell (.fn fn) cq (fld v.toNat 0 16) (tick tm s.dev)))
  refine ⟨pwr, ?_⟩
  show execCqHead fn cq v tm s = _
  rw [execCqHead, on_next, hup, hon, Bool.and_true, onlyIf_true, hw]
  rfl

@[simp] theorem touchPath_qm (p : Path) (d : Dev) : (touchPath p d).qm = d.qm := touchPath_field (·.qm) (fun _ _ => rfl) p d
@[simp] theorem wakeForCommand_qm (t : Nat) (d : Dev) : (wakeForCommand t d).qm = d.qm := by
  obtain ⟨pwr, h⟩ := wakeForCommand_eq t d
  rw [h]
@[simp] theorem wakeS2_qm (t : Nat) (d : Dev) : (wakeS2 t d).qm = d.qm := by
  obtain ⟨pwr, h⟩ := wakeS2_eq t d
  rw [h]

/-- The mailbox's doorbell with its tail alone rings the submission ring, with its head alone the completion ring (R79). -/
theorem exec_qmMbxDb_tail {path : Path} {v : Word} (tm : Nat) (hreach : reachable s.dev path 0x1038 = true) (hown : ownerMgt s.dev = true) (ht : bit v.toNat 15 = true)
    (hh : bit v.toNat 31 = false) : ∃ t, exec (.qmMbxDb path v tm) s = .next t ∧ t.dev.qm = (sqBell .mailbox 0 (fld v.toNat 0 4) (tick tm s.dev)).qm :=
  ⟨_, rfl, by simp [hreach, locMailbox, hown, ht, hh]⟩

theorem exec_qmMbxDb_head {path : Path} {v : Word} (tm : Nat) (hreach : reachable s.dev path 0x1038 = true) (hown : ownerMgt s.dev = true) (ht : bit v.toNat 15 = false)
    (hh : bit v.toNat 31 = true) : ∃ t, exec (.qmMbxDb path v tm) s = .next t ∧ t.dev.qm = (cqBell .mailbox 0 (fld v.toNat 16 4) (tick tm s.dev)).qm :=
  ⟨_, rfl, by simp [hreach, locMailbox, hown, ht, hh]⟩

/-! ### CQ_COUNT_READ (R80) -/

theorem exec_cqCountRead {fn : Nat} (cq : Nat) (acc : CountAccess) (hup : mainUp s.dev = true) (hon : pcxOn s.dev (fn / 1024) = true) :
    exec (.cqCountRead fn cq acc) s = .next { s with dev := countRead fn cq acc s.dev } := by
  show execCqCountRead fn cq acc s = _
  rw [execCqCountRead, on_next, hup, hon, Bool.and_true, onlyIf_true]

theorem countSeen_bound {fn : Nat} (hq : tget d.qm.cqs i = some q) (hb : q.bind = .fn fn) : countSeen d fn i = q.count := by simp [countSeen, hq, hb]
theorem boundTo_bound {fn : Nat} (hq : tget d.qm.cqs i = some q) (hb : q.bind = .fn fn) : boundTo d fn i = true := by simp [boundTo, hq, hb]

/-! ### ADMIN_RING_ENABLE (R79) -/

/-- A field is settled by its bits. -/
theorem fld_congr {x y lo len : Nat} (h : ∀ j < len, x.testBit (lo + j) = y.testBit (lo + j)) : fld x lo len = fld y lo len := by
  refine Nat.eq_of_testBit_eq fun j => ?_
  simp only [fld, Nat.testBit_mod_two_pow, Nat.testBit_shiftRight]
  by_cases hj : j < len
  · rw [h j hj]
  · simp [hj]

/-- A register written takes the written bits where its mask is set (R15). -/
theorem testBit_rd_wrMasked {off : Nat} (v : Nat) (h : Tbl.wf d.rf.regs = true) (hi : i < 32) (hm : (wmask d off).testBit i = true) :
    (rd (wrMasked off v d) off).testBit i = v.testBit i := by
  have hone : (0xFFFFFFFF : Nat).testBit i = true := by rw [show (0xFFFFFFFF : Nat) = 2 ^ 32 - 1 from rfl, Nat.testBit_two_pow_sub_one]; simpa using hi
  rw [wrMasked, rd_wr_self _ _ _ h, Nat.testBit_mod_two_pow]
  simp [hi, hm, hone]

/-- Before the lock QM_ADMIN_CFG takes ENABLE and the vector. -/
theorem wmask_adminCfg (h : d.rf.lock = false) : wmask d 0x1014 = 0x07FF0001 := by
  have hs : specAt 0x1014 = some (reg1 0x1014 0 0x07FF0001 0) := by decide
  simp [wmask, hs, h, reg1]


section
variable (hlock : s.dev.rf.lock = false) (hwf : Tbl.wf s.dev.rf.regs = true) {path : Path} {v : Word}
include hlock hwf

theorem rd_adminCfg_enable : bit (rd (wrMasked 0x1014 v.toNat s.dev) 0x1014) 0 = v.getLsbD 0 :=
  testBit_rd_wrMasked _ hwf (by decide) (by rw [wmask_adminCfg hlock]; decide)

theorem rd_adminCfg_vector : fld (rd (wrMasked 0x1014 v.toNat s.dev) 0x1014) 16 11 = fld v.toNat 16 11 := by
  have hm : ∀ j < 11, (0x07FF0001 : Nat).testBit (16 + j) = true := by decide
  exact fld_congr fun j hj => testBit_rd_wrMasked _ hwf (by omega) (by rw [wmask_adminCfg hlock, hm j hj])

/-- ENABLE cleared stops the service; ENABLE set on a ring that is not served starts it with the setup as it stands. -/
theorem exec_adminRingEnable (hreach : reachable s.dev path 0x1014 = true) : ∃ t, exec (.adminRingEnable path v) s = .next t ∧
    (v.getLsbD 0 = false → t.dev.qm = { s.dev.qm with adminOn := false }) ∧
    (v.getLsbD 0 = true → s.dev.qm.adminOn = false ∨ s.dev.qm.adminErr = true → t.dev.qm = (adminSetup 0 (wrMasked 0x1014 v.toNat s.dev)).qm) := by
  have hbit := rd_adminCfg_enable hlock hwf (v := v)
  refine ⟨_, rfl, fun he => ?_, fun he hoff => ?_⟩
  · rw [he] at hbit
    simp [hreach, hbit]
  · rw [he] at hbit
    have hwas : ¬ ((bit (rd s.dev 0x1014) 0 = true ∧ s.dev.qm.adminOn = true) ∧ s.dev.qm.adminErr = false) := fun ⟨⟨_, hon⟩, herr⟩ => by
      rw [hon, herr] at hoff
      rcases hoff with h | h <;> cases h
    simp [hreach, hbit, hwas]

end

/-- The setup starts the mailbox ring, ends in ERR on a zero base, or starts the rings in host memory (R79). -/
theorem adminSetup_mailbox (n : Nat) (hown : ownerMgt d = true) : ∃ sq cq, (adminSetup n d).qm = { d.qm with adminOn := true, adminErr := false, sqs := tset d.qm.sqs 0 sq, cqs := tset d.qm.cqs 0 cq } ∧
    sq = { admin := true, bind := .mailbox, base := rd64 d 0x1000, log2 := 4 } ∧
    cq = { bind := .mailbox, base := rd64 d 0x1008, log2 := 4, vector := fld (rd d 0x1014) 16 11, phase := true, count := n } := by
  refine ⟨_, _, ?_, rfl, rfl⟩
  simp [adminSetup, locMailbox, hown]

theorem adminSetup_zeroBase (n : Nat) (hown : ownerMgt d = false) (hz : rd64 d 0x1000 = 0 ∨ rd64 d 0x1008 = 0) :
    (adminSetup n d).qm = { d.qm with adminOn := false, adminErr := true } := by
  have hb : adminBaseZero d = true := by simpa [adminBaseZero] using hz
  simp [adminSetup, locMailbox, hown, hb]

theorem adminSetup_host (n : Nat) (hown : ownerMgt d = false) (hs : rd64 d 0x1000 ≠ 0) (hc : rd64 d 0x1008 ≠ 0) :
    ∃ sq cq, (adminSetup n d).qm = { d.qm with adminOn := true, adminErr := false, sqs := tset d.qm.sqs 0 sq, cqs := tset d.qm.cqs 0 cq } ∧
      sq = { admin := true, bind := .fn 0, base := rd64 d 0x1000, log2 := adminLog2 (fld (rd d 0x1010) 0 4) } ∧
      cq = { bind := .fn 0, base := rd64 d 0x1008, log2 := adminLog2 (fld (rd d 0x1010) 8 4), vector := fld (rd d 0x1014) 16 11, phase := true, count := n } := by
  have hb : adminBaseZero d = false := by simp [adminBaseZero, hs, hc]
  refine ⟨_, _, ?_, rfl, rfl⟩
  simp [adminSetup, locMailbox, hown, hb]

/-- A write of QM_ADMIN_CFG leaves the bases and sizes. -/
theorem rd64_wrMasked_ne {off o : Nat} (v : Nat) (h : Tbl.wf d.rf.regs = true) (ho : o ≠ off) (ho' : o + 4 ≠ off) : rd64 (wrMasked off v d) o = rd64 d o := by
  simp only [rd64, rd_wrMasked_ne v d h ho, rd_wrMasked_ne v d h ho']

end

/-- Settles O2: doorbells, counts and the owner admin ring, each by what its access makes of the part. -/
theorem doorbellsAndCountsComplete : Obligations.DoorbellsAndCountsComplete := by
  unfold Obligations.DoorbellsAndCountsComplete
  refine ⟨⟨?tail, ?rejected, ?head, ?mbxTail, ?mbxHead⟩, ?count, ?admin⟩
  case tail =>
    intro s fn sq v tm r hup hon hr hb hh hv
    obtain ⟨pwr, he⟩ := exec_sqTail v tm hup hon
    obtain ⟨await, hs⟩ := setTail_eq sq (fld v.toNat 0 16) (tick tm s.dev)
    rw [sqBell_valid (d := tick tm s.dev) hr hb hh hv, hs] at he
    exact ⟨_, he, tget_tmod_self _ hr, fun j hj => tget_tmod_ne _ _ hj, rfl⟩
  case rejected =>
    intro s fn sq v tm r hup hon hr h
    obtain ⟨pwr, he⟩ := exec_sqTail v tm hup hon
    rw [sqBell_invalid (d := tick tm s.dev) hr h] at he
    exact ⟨_, he, rfl⟩
  case head =>
    intro s fn cq v tm r hup hon hr hb hh hv
    obtain ⟨pwr, he⟩ := exec_cqHead v tm hup hon
    rw [cqBell_valid (d := tick tm s.dev) hr hb hh hv] at he
    exact ⟨_, he, tget_tmod_self _ hr, fun j hj => tget_tmod_ne _ _ hj, rfl⟩
  case mbxTail =>
    intro s path v tm r hreach hown hr hb hh ht hn hv
    obtain ⟨t, he, hq⟩ := exec_qmMbxDb_tail tm hreach hown ht hn
    obtain ⟨await, hs⟩ := setTail_eq 0 (fld v.toNat 0 4) (tick tm s.dev)
    rw [sqBell_valid (d := tick tm s.dev) hr hb hh hv, hs] at hq
    exact ⟨t, he, by rw [hq]; exact tget_tmod_self _ hr, by rw [hq]; rfl⟩
  case mbxHead =>
    intro s path v tm r hreach hown hr hb hh ht hn hv
    obtain ⟨t, he, hq⟩ := exec_qmMbxDb_head tm hreach hown ht hn
    rw [cqBell_valid (d := tick tm s.dev) hr hb hh hv] at hq
    exact ⟨t, he, by rw [hq]; exact tget_tmod_self _ hr, by rw [hq]; rfl⟩
  case count =>
    intro s fn cq r hup hon hr hb
    have hseen := countSeen_bound hr hb
    have hbound := boundTo_bound hr hb
    have he := fun acc => exec_cqCountRead cq acc hup hon
    refine ⟨⟨_, he .both, ?_⟩, ⟨_, he .lo, ?_⟩, fun w hw => ⟨_, he .hi, ?_⟩, fun hn => ⟨_, he .hi, ?_⟩⟩
    · simp [countRead, hseen, send]
    · have hlo : boundTo (send (.regRead (cq * 4096 + 0x810) (BitVec.ofNat 32 (r.count % 2 ^ 32))) s.dev) fn cq = true := hbound
      simp only [countRead, hseen, hlo, if_pos]
      exact ⟨rfl, tget_tset_self _ _ _, rfl⟩
    · simp only [countRead, hw]
      exact ⟨rfl, rfl⟩
    · simp only [countRead, hseen, hn]
      rfl
  case admin =>
    intro s path v hreach hlock hwf
    obtain ⟨t, he, hclear, hset⟩ := exec_adminRingEnable hlock hwf (v := v) hreach
    have hvec := rd_adminCfg_vector hlock hwf (v := v)
    have hsz : rd (wrMasked 0x1014 v.toNat s.dev) 0x1010 = rd s.dev 0x1010 := rd_wrMasked_ne _ _ hwf (by decide)
    have hsq : rd64 (wrMasked 0x1014 v.toNat s.dev) 0x1000 = rd64 s.dev 0x1000 := rd64_wrMasked_ne _ hwf (by decide) (by decide)
    have hcq : rd64 (wrMasked 0x1014 v.toNat s.dev) 0x1008 = rd64 s.dev 0x1008 := rd64_wrMasked_ne _ hwf (by decide) (by decide)
    refine ⟨t, he, hclear, fun hen hoff hown => ?mailbox, fun hen hoff hown hz => ?zero, fun hen hoff hown hs hc => ?host⟩
    case mailbox =>
      obtain ⟨sq, cq, hq, rfl, rfl⟩ := adminSetup_mailbox (d := wrMasked 0x1014 v.toNat s.dev) 0 hown
      rw [hset hen hoff, hq]
      exact ⟨rfl, rfl, ⟨_, tget_tset_self _ _ _, rfl, rfl, rfl, rfl, rfl, rfl⟩, ⟨_, tget_tset_self _ _ _, rfl, rfl, rfl, rfl, rfl⟩⟩
    case zero => rw [hset hen hoff, adminSetup_zeroBase (d := wrMasked 0x1014 v.toNat s.dev) 0 hown (by rwa [hsq, hcq]), wrMasked_qm]
    case host =>
      obtain ⟨sq, cq, hq, rfl, rfl⟩ := adminSetup_host (d := wrMasked 0x1014 v.toNat s.dev) 0 hown (hsq ▸ hs) (hcq ▸ hc)
      rw [hset hen hoff, hq, hvec, hsz, hsq, hcq]
      exact ⟨rfl, rfl, ⟨_, tget_tset_self _ _ _, rfl, rfl, rfl, rfl, rfl⟩, ⟨_, tget_tset_self _ _ _, rfl, rfl, rfl, rfl, rfl, rfl, rfl⟩⟩
end Sys2Proof.Machine

namespace Sys2Proof.Machine
/-! ### What the operations of the Almanac leave of a slot's mark (R192)

Only the slot boundary moves it. One equation per operation that a boundary reaches, in the order of the model's files. -/

/-- The slot that a part is in, and the dies for which it is one of background work. -/
structure SlotMark where
  start : Nat
  bg : List Nat

def slotMark (d : Dev) : SlotMark := ⟨d.alm.slotAt, d.alm.slotBg⟩

section
variable {α : Type} (d : Dev)

/-! An update is taken apart and put together again, by `(rfl)` as in `kept_mk`. -/

@[simp] theorem slotMark_mk (id rf qm bpm maps alm med jnl clo kpr hld smt pcx hl ecc sec scu pwr thm age sil mgt io) :
    slotMark ⟨id, rf, qm, bpm, maps, alm, med, jnl, clo, kpr, hld, smt, pcx, hl, ecc, sec, scu, pwr, thm, age, sil, mgt, io⟩ = ⟨alm.slotAt, alm.slotBg⟩ := (rfl)

@[simp] theorem slotMark_eta : SlotMark.mk d.alm.slotAt d.alm.slotBg = slotMark d := (rfl)

@[simp] theorem slotMark_ite (c : Prop) [Decidable c] (d e : Dev) : slotMark (if c then d else e) = if c then slotMark d else slotMark e := apply_ite slotMark c d e

@[simp] theorem slotMark_onlyIf (c : Bool) (f : Dev → Dev) : slotMark (onlyIf c f d) = if c then slotMark (f d) else slotMark d := by
  unfold onlyIf
  split <;> rfl

@[simp] theorem slotMark_withSome (o : Option α) (f : α → Dev → Dev) : slotMark (withSome o f d) = o.elim (slotMark d) fun a => slotMark (f a d) := by
  cases o <;> rfl

@[simp] theorem slotMark_foldl {f : Dev → α → Dev} (hf : ∀ d a, slotMark (f d a) = slotMark d) (l : List α) (d : Dev) : slotMark (l.foldl f d) = slotMark d := by
  induction l generalizing d with
  | nil => rfl
  | cons a l ih => rw [List.foldl_cons, ih, hf]

@[simp] theorem slotMark_forAll {f : α → Dev → Dev} (hf : ∀ a d, slotMark (f a d) = slotMark d) (l : List α) (d : Dev) : slotMark (forAll l f d) = slotMark d :=
  slotMark_foldl (fun d a => hf a d) l d

end

section
variable (d : Dev)

@[simp] theorem send_slotMark (o) : slotMark (send o d) = slotMark d := by simp [send]
@[simp] theorem raise_slotMark (ty ps) : slotMark (raise ty ps d) = slotMark d := by simp [raise]
@[simp] theorem record_slotMark (r) : slotMark (record r d) = slotMark d := by simp [record]
@[simp] theorem onMaps_slotMark (f) : slotMark (onMaps f d) = slotMark d := by simp [onMaps]
@[simp] theorem onCmd_slotMark (id f) : slotMark (onCmd id f d) = slotMark d := by simp [onCmd]
@[simp] theorem blame_slotMark (id reason ns) : slotMark (blame id reason ns d) = slotMark d := by simp [blame]
@[simp] theorem onPwr_slotMark (f) : slotMark (onPwr f d) = slotMark d := by simp [onPwr]
@[simp] theorem putBed_slotMark (die bed f) : slotMark (putBed die bed f d) = slotMark d := by simp [putBed]
@[simp] theorem noteBed_slotMark (die bed f) : slotMark (noteBed die bed f d) = slotMark d := by simp [noteBed]
@[simp] theorem putZone_slotMark (plot z v) : slotMark (putZone plot z v d) = slotMark d := by simp [putZone]
@[simp] theorem bsetFull_slotMark (plot) : slotMark (bsetFull plot d) = slotMark d := by simp [bsetFull]

@[simp] theorem takeSet_slotMark (dies old) : slotMark (takeSet dies old d).2 = slotMark d := by
  unfold takeSet
  split <;> rfl

@[simp] theorem placeBed_slotMark (row pos die life system) : slotMark (placeBed row pos die life system d) = slotMark d := by
  unfold placeBed
  split <;> simp

@[simp] theorem rowBuilt_slotMark (row) : slotMark (rowBuilt row d) = slotMark d := by
  unfold rowBuilt
  split <;> simp

@[simp] theorem makeRow_slotMark (w dies bset) : slotMark (makeRow w dies bset d).2 = slotMark d := by simp [makeRow]

theorem buildRow_slotMark {w : Want} {e : Nat × Dev} (h : buildRow w d = some e) : slotMark e.2 = slotMark d := by
  unfold buildRow at h
  dsimp only at h
  split at h
  · cases h
  generalize (w.durable && _ && _ : Bool) = bound at h
  cases bound with
  | true =>
    simp only [if_true] at h
    split at h <;> cases h <;> simp
  | false =>
    obtain ⟨dies, -, rfl⟩ := Option.map_eq_some_iff.1 h
    simp

@[simp] theorem onStripe_slotMark (row s f) : slotMark (onStripe row s f d) = slotMark d := by simp [onStripe]
@[simp] theorem onRow_slotMark (row f) : slotMark (onRow row f d) = slotMark d := by simp [onRow]
@[simp] theorem queueOp_slotMark (o) : slotMark (queueOp o d) = slotMark d := by simp [queueOp]
@[simp] theorem dropWork_slotMark (w) : slotMark (dropWork w d) = slotMark d := by simp [dropWork]

@[simp] theorem queueWork_slotMark (w kind level row s pos q) : slotMark (queueWork w kind level row s pos q d) = slotMark d := by
  unfold queueWork
  split <;> simp

@[simp] theorem abandonPatrol_slotMark (row) : slotMark (abandonPatrol row d) = slotMark d := by simp [abandonPatrol]
@[simp] theorem queueErase_slotMark (die bed level) : slotMark (queueErase die bed level d) = slotMark d := by simp [queueErase]

@[simp] theorem queueProgram_slotMark (row s pos) : slotMark (queueProgram row s pos d) = slotMark d := by
  unfold queueProgram
  split <;> simp

@[simp] theorem queueXpl_slotMark (row pos cause hard) : slotMark (queueXpl row pos cause hard d) = slotMark d := by
  unfold queueXpl
  (repeat' split) <;> simp

@[simp] theorem readCheck_slotMark (die bed) : slotMark (readCheck die bed d) = slotMark d := by simp [readCheck]
@[simp] theorem ewCheck_slotMark (die bed) : slotMark (ewCheck die bed d) = slotMark d := by simp [ewCheck]

@[simp] theorem oldWhenEmpty_slotMark (row) : slotMark (oldWhenEmpty row d) = slotMark d := by
  unfold oldWhenEmpty
  split <;> simp

@[simp] theorem sealRow_slotMark (row r) : slotMark (sealRow row r d) = slotMark d := by simp [sealRow]

@[simp] theorem trySeal_slotMark (row) : slotMark (trySeal row d) = slotMark d := by
  unfold trySeal
  split <;> simp

@[simp] theorem giveStripe_slotMark (row slot rank s r) : slotMark (giveStripe row slot rank s r d) = slotMark d := by simp [giveStripe]

@[simp] theorem stripeFor_slotMark (row slot rank r) : slotMark (stripeFor row slot rank r d).2 = slotMark d := by
  unfold stripeFor
  split <;> simp

@[simp] theorem programsFor_slotMark (row s b r) : slotMark (programsFor row s b r d) = slotMark d := by simp [programsFor]

@[simp] theorem placeBlock_slotMark (row slot o pos pay) : slotMark (placeBlock row slot o pos pay d) = slotMark d := by
  unfold placeBlock
  split <;> simp

@[simp] theorem fillStripe_slotMark (row slot plot first o) : slotMark (fillStripe row slot plot first o d) = slotMark d := by
  unfold fillStripe
  split <;> simp

@[simp] theorem fillNext_slotMark (row slot lba) : slotMark (fillNext row slot lba d) = slotMark d := by
  unfold fillNext
  split <;> simp

@[simp] theorem fillShare_slotMark (row slot plot first o) : slotMark (fillShare row slot plot first o d) = slotMark d := by simp [fillShare]
@[simp] theorem putFlash_slotMark (die bed s q c v) : slotMark (putFlash die bed s q c v d) = slotMark d := by simp [putFlash]

@[simp] theorem layColumn_slotMark (row s q c ds) : slotMark (layColumn row s q c ds d) = slotMark d := by
  unfold layColumn
  split <;> simp

@[simp] theorem onLink_slotMark (l f) : slotMark (onLink l f d) = slotMark d := by simp [onLink]
@[simp] theorem onSeq_slotMark (l f) : slotMark (onSeq l f d) = slotMark d := by simp [onSeq]
@[simp] theorem lineTo_slotMark (l bs) : slotMark (lineTo l bs d) = slotMark d := by simp [lineTo]

@[simp] theorem groupEntering_slotMark (g t) : slotMark (groupEntering g t d).2 = slotMark d := by
  simp only [groupEntering]
  (repeat' split) <;> simp

@[simp] theorem wakeLink_slotMark (l t) : slotMark (wakeLink l t d) = slotMark d := by simp [wakeLink]
@[simp] theorem frameTo_slotMark (l f) : slotMark (frameTo l f d) = slotMark d := by simp [frameTo]

@[simp] theorem hlSendOne_slotMark (l) : slotMark (hlSendOne l d) = slotMark d := by
  simp only [hlSendOne]
  (repeat' split) <;> simp

@[simp] theorem hlPump_slotMark (l) : slotMark (hlPump l d) = slotMark d := by simp [hlPump]
@[simp] theorem hlEnqueue_slotMark (l f) : slotMark (hlEnqueue l f d) = slotMark d := by simp [hlEnqueue]
@[simp] theorem hlCommand_slotMark (l target opc op bytes) : slotMark (hlCommand l target opc op bytes d).2 = slotMark d := by simp [hlCommand]
@[simp] theorem hlData_slotMark (l target otag data) : slotMark (hlData l target otag data d) = slotMark d := by simp [hlData]
@[simp] theorem condemn_slotMark (row) : slotMark (condemn row d) = slotMark d := by simp [condemn]
@[simp] theorem onOp_slotMark (i f) : slotMark (onOp i f d) = slotMark d := by simp [onOp]
@[simp] theorem dropOp_slotMark (i) : slotMark (dropOp i d) = slotMark d := by simp [dropOp]
@[simp] theorem onDie_slotMark (die f) : slotMark (onDie die f d) = slotMark d := by simp [onDie]
@[simp] theorem holdBack_slotMark (i o) : slotMark (holdBack i o d) = slotMark d := by simp [holdBack]
@[simp] theorem blockDie_slotMark (o) : slotMark (blockDie o d) = slotMark d := by simp [blockDie]
@[simp] theorem countSense_slotMark (die bed n) : slotMark (countSense die bed n d) = slotMark d := by simp [countSense]
@[simp] theorem takeSlot_slotMark (o) : slotMark (takeSlot o d) = slotMark d := by simp [takeSlot]
@[simp] theorem startOp_slotMark (i o) : slotMark (startOp i o d) = slotMark d := by simp [startOp]

@[simp] theorem pauseCommand_slotMark (opc i o) : slotMark (pauseCommand opc i o d) = slotMark d := by
  simp only [pauseCommand]
  split <;> simp

@[simp] theorem almPump_slotMark (die) : slotMark (almPump die d) = slotMark d := by
  simp only [almPump]
  (repeat' split) <;> simp

@[simp] theorem pumpAll_slotMark : slotMark (pumpAll d) = slotMark d := by simp [pumpAll]

@[simp] theorem zoneLost_slotMark (key) : slotMark (zoneLost key d) = slotMark d := by
  simp only [zoneLost]
  (repeat' split) <;> simp

@[simp] theorem markLost_slotMark (row s blocks) : slotMark (markLost row s blocks d) = slotMark d := by
  simp only [markLost]
  (repeat' split) <;> simp

@[simp] theorem onJob_slotMark (i f) : slotMark (onJob i f d) = slotMark d := by simp [onJob]

@[simp] theorem queueRead_slotMark (i retry) : slotMark (queueRead i retry d) = slotMark d := by
  simp only [queueRead]
  (repeat' split) <;> simp

@[simp] theorem newJob_slotMark (j) : slotMark (newJob j d).2 = slotMark d := by simp [newJob]

@[simp] theorem pumpRow_slotMark (row) : slotMark (pumpRow row d) = slotMark d := by
  unfold pumpRow
  split <;> simp

@[simp] theorem startAround_slotMark (i out) : slotMark (startAround i out d) = slotMark d := by
  unfold startAround
  (repeat' split) <;> simp

@[simp] theorem countRca_slotMark (i) : slotMark (countRca i d) = slotMark d := by
  unfold countRca
  split <;> simp

@[simp] theorem fireRca_slotMark (o) : slotMark (fireRca o d) = slotMark d := by
  unfold fireRca
  (repeat' split) <;> simp

@[simp] theorem rcaCheck_slotMark (cmd) : slotMark (rcaCheck cmd d) = slotMark d := by
  simp only [rcaCheck]
  refine slotMark_forAll (fun e d => ?_) _ _
  split <;> simp

@[simp] theorem claim_slotMark (row slot) : slotMark (claim row slot d) = slotMark d := by
  unfold claim
  split <;> rfl

@[simp] theorem dropFresh_slotMark (die bed) : slotMark (dropFresh die bed d) = slotMark d := by simp [dropFresh]

@[simp] theorem endXpl_slotMark (key) : slotMark (endXpl key d) = slotMark d := by
  simp only [endXpl]
  split <;> simp

@[simp] theorem dropXpl_slotMark (key) : slotMark (dropXpl key d) = slotMark d := by
  unfold dropXpl
  split <;> simp

@[simp] theorem queueReads_slotMark (w row pages) : slotMark (queueReads w row pages d) = slotMark d := by simp [queueReads]
@[simp] theorem queueStripe_slotMark (w row s n) : slotMark (queueStripe w row s n d) = slotMark d := by simp [queueStripe]
@[simp] theorem queueFresh_slotMark (w row pos die bed pages) : slotMark (queueFresh w row pos die bed pages d) = slotMark d := by simp [queueFresh]

@[simp] theorem layStripe_slotMark (row slot rank blocks) : slotMark (layStripe row slot rank blocks d) = slotMark d := by
  unfold layStripe
  split <;> simp

@[simp] theorem layZone_slotMark (c p bad) : slotMark (layZone c p bad d) = slotMark d := by
  unfold layZone
  split <;> simp

@[simp] theorem layRegion_slotMark (c bad) : slotMark (layRegion c bad d) = slotMark d := by
  unfold layRegion
  split <;> simp

theorem freshBed_slotMark {row : Nat} {r : Row} {pos : Nat} {e : Nat × Nat × Dev} (h : freshBed row r pos d = some e) : slotMark e.2.2 = slotMark d := by
  unfold freshBed at h
  split at h
  · cases h; simp
  split at h
  · cases h
  split at h
  · cases h
  · cases h; simp

@[simp] theorem copyPages_slotMark (row pos die bed bad) : slotMark (copyPages row pos die bed bad d) = slotMark d := by
  simp only [copyPages]
  split
  · rfl
  refine slotMark_forAll (fun s d => slotMark_forAll (fun e d => ?_) _ _) _ _
  split <;> simp

@[simp] theorem stockErases_slotMark : slotMark (stockErases d) = slotMark d := by
  unfold stockErases
  split
  · rfl
  refine slotMark_forAll (fun e d => ?_) _ _
  split
  · split <;> simp
  · rfl

@[simp] theorem wornBeds_slotMark : slotMark (wornBeds d) = slotMark d := by simp [wornBeds]
@[simp] theorem onXpl_slotMark (key f) : slotMark (onXpl key f d) = slotMark d := by simp [onXpl]
@[simp] theorem onRebuild_slotMark (key f) : slotMark (onRebuild key f d) = slotMark d := by simp [onRebuild]

@[simp] theorem startXpls_slotMark : slotMark (startXpls d) = slotMark d := by
  simp only [startXpls]
  refine slotMark_forAll (fun e d => ?_) _ _
  split
  · simp
  split
  · rfl
  split
  · simp
  · next h => simpa using freshBed_slotMark d h

@[simp] theorem writeXpls_slotMark : slotMark (writeXpls d) = slotMark d := by
  unfold writeXpls
  refine slotMark_forAll (fun e d => ?_) _ _
  split <;> simp

@[simp] theorem startRebuilds_slotMark : slotMark (startRebuilds d) = slotMark d := by
  simp only [startRebuilds]
  refine slotMark_forAll (fun e d => ?_) _ _
  split
  · simp
  split
  · rfl
  split
  · next h => simpa using freshBed_slotMark d h
  · simp

@[simp] theorem writeRebuilds_slotMark : slotMark (writeRebuilds d) = slotMark d := by
  unfold writeRebuilds
  refine slotMark_forAll (fun e d => ?_) _ _
  split <;> simp

@[simp] theorem weedMargins_slotMark : slotMark (weedMargins d) = slotMark d := by simp [weedMargins]

theorem moveShare_slotMark {w : Want} {src : Nat} {e : Nat × Nat × Dev} (h : moveShare w src d = some e) : slotMark e.2.2 = slotMark d := by
  unfold moveShare at h
  split at h
  · obtain ⟨s, -, rfl⟩ := Option.map_eq_some_iff.1 h
    simp
  · obtain ⟨x, hx, rfl⟩ := Option.map_eq_some_iff.1 h
    simp [buildRow_slotMark d hx]

@[simp] theorem eraseDest_slotMark (row) : slotMark (eraseDest row d) = slotMark d := by
  unfold eraseDest
  (repeat' split) <;> simp

theorem beginCopy_slotMark {plot : Nat} {p : Plot} {zone : Nat} {z : Zone} {src : Nat} {r : Row} {kind : Nat} {e : Dev}
    (h : beginCopy plot p zone z src r kind d = some e) : slotMark e = slotMark d := by
  obtain ⟨x, hx, rfl⟩ := Option.map_eq_some_iff.1 h
  simp [moveShare_slotMark d hx]

theorem regionDest_slotMark {plot : Nat} {p : Plot} {r : Row} {e : Nat × Dev} (h : regionDest plot p r d = some e) : slotMark e.2 = slotMark d := by
  simp only [regionDest] at h
  split at h
  · cases h; simp
  · obtain ⟨x, hx, rfl⟩ := Option.map_eq_some_iff.1 h
    simp [buildRow_slotMark d hx]

@[simp] theorem regionNext_slotMark (key c) : slotMark (regionNext key c d) = slotMark d := by simp [regionNext]

theorem beginRegion_slotMark {plot : Nat} {p : Plot} {src : Nat} {r : Row} {kind : Nat} {e : Dev}
    (h : beginRegion plot p src r kind d = some e) : slotMark e = slotMark d := by
  obtain ⟨x, hx, rfl⟩ := Option.map_eq_some_iff.1 h
  simp [regionDest_slotMark d hx]

@[simp] theorem dropXpls_slotMark (row) : slotMark (dropXpls row d) = slotMark d := by simp [dropXpls]

/-- Copies begun one after the other, each of which leaves the mark, leave it. -/
theorem beginCopies_slotMark {α : Type} {f : α → Dev → Option Dev} (hf : ∀ x d e, f x d = some e → slotMark e = slotMark d) (l : List α) {e : Dev} :
    ∀ o : Option Dev, l.foldl (fun o x => o.bind (f x)) o = some e → ∃ d, o = some d ∧ slotMark e = slotMark d := by
  induction l with
  | nil => exact fun _ h => ⟨e, h, rfl⟩
  | cons x l ih =>
    intro o h
    obtain ⟨d', hd', hk⟩ := ih _ h
    obtain ⟨d, hd, hx⟩ := Option.bind_eq_some_iff.1 hd'
    exact ⟨d, hd, hk.trans (hf x d d' hx)⟩

@[simp] theorem beginPass_slotMark (row r) : slotMark (beginPass row r d) = slotMark d := by
  simp only [beginPass]
  split
  · rfl
  split
  · rfl
  · next e h =>
    have he : slotMark e = slotMark d := by
      split at h
      · exact beginRegion_slotMark d h
      · obtain ⟨d', hd, hk⟩ := beginCopies_slotMark (fun x d e hx => beginCopy_slotMark d hx) _ _ h
        rwa [← Option.some.inj hd] at hk
    simp [he]

@[simp] theorem startWeeding_slotMark : slotMark (startWeeding d) = slotMark d := by
  simp only [startWeeding]
  (repeat' split) <;> simp

@[simp] theorem graftDone_slotMark (plot) : slotMark (graftDone plot d) = slotMark d := by
  unfold graftDone
  split <;> simp

@[simp] theorem switchOver_slotMark (plot) : slotMark (switchOver plot d) = slotMark d := by
  unfold switchOver
  split <;> simp

@[simp] theorem graftWait_slotMark (plot g w) : slotMark (graftWait plot g w d) = slotMark d := by simp [graftWait]

@[simp] theorem startGrafts_slotMark : slotMark (startGrafts d) = slotMark d := by
  simp only [startGrafts]
  refine slotMark_forAll (fun e d => ?_) _ _
  split
  · rfl
  split
  · rfl
  split
  · simp
  split
  · rfl
  split
  · rfl
  split
  · next e h =>
    have he : slotMark e = slotMark d := by
      split at h
      · simpa using beginRegion_slotMark _ h
      · simpa using beginCopy_slotMark _ h
    simp [he]
  · simp

@[simp] theorem writeCopy_slotMark (key c) : slotMark (writeCopy key c d) = slotMark d := by
  unfold writeCopy
  split <;> simp

@[simp] theorem writeCopies_slotMark : slotMark (writeCopies d) = slotMark d := by simp [writeCopies]
@[simp] theorem startBackground_slotMark : slotMark (startBackground d) = slotMark d := by simp [startBackground]
@[simp] theorem patrolPeriod_slotMark (t) : slotMark (patrolPeriod t d) = slotMark d := by simp [patrolPeriod]
@[simp] theorem patrolTake_slotMark (row) : slotMark (patrolTake row d) = slotMark d := by simp [patrolTake]

@[simp] theorem startPatrol_slotMark (t) : slotMark (startPatrol t d) = slotMark d := by
  unfold startPatrol
  extract_lets e
  have he : slotMark e = slotMark d := patrolPeriod_slotMark d t
  split
  · exact he
  split
  · exact he
  · next row h =>
    have hf : slotMark (patrolTake row e) = slotMark d := by simp [he]
    rw [slotMark_ite, hf]
    split
    · rfl
    split
    · exact hf
    · simp [he]

/-- A slot boundary settles the slot and its dies, and the work that it starts leaves both. -/
theorem almanacSlot_slotMark (t) : slotMark (almanacSlot t d) = ⟨t / 250000 * 250000, (d.alm.dies.map (·.1)).filter fun die => slotIsBg d (t / 250000 * 250000 / 250000 % 8) die⟩ := by
  simp [almanacSlot]

end
end Sys2Proof.Machine

namespace Sys2Proof.Machine
/-! ### Telemetry and missed targets (R118-R120, R217) -/

section
variable {s : State} {d e : Dev} {cq t f : Nat} {r q : CompRing}

/-- While commands are served, periods count on and are written (R118). -/
theorem exec_telemetryPeriod {tm : Nat} (h : serving s.dev = true) (hdue : s.dev.qm.telemDue + 1000000 * telemPeriod s.dev ≤ tm) (hS2 : inS2 s.dev = false)
    (hring : (s.dev.qm.cqs.filter fun e => e.2.telem) = [(cq, r)]) (hten : r.tenant = none) :
    ∃ act e, act = (s.dev.alm.stats.filter fun e => decide (e.2.ended ≠ 0)) ∧
      e = writeRecord cq tm (deviceSlot (tick tm s.dev) s.dev.qm.telemSeq act.length :: act.map fun e => tenantSlot (tick tm s.dev) s.dev.qm.telemSeq e.1 e.2) (tick tm s.dev) ∧
      exec (.telemetryPeriod tm) s = .next { s with dev := clearPeriod { e with qm := { e.qm with telemSeq := s.dev.qm.telemSeq + 1, telemDue := tm } } } := by
  refine ⟨_, _, rfl, rfl, ?_⟩
  simp only [serving, stopped, Bool.and_eq_true, Bool.not_eq_true', Bool.or_eq_false_iff] at h
  obtain ⟨⟨hup, hready⟩, ⟨⟨hpf, hfl⟩, -⟩, hlow⟩ := h
  have hhalt : halting s.dev = false := by simp [halting, hpf, hfl]
  have hS2' : inS2 (tick tm s.dev) = false := hS2
  show execTelemetryPeriod tm s = _
  simp [execTelemetryPeriod, on_next, hup, hready, hhalt, hlow, hdue, hS2', hring, recordFor, hten]

/-- A period's record goes to a ring that has room for its slots, and counts as dropped at one that has not. -/
theorem writeRecord_room (slots : List Nat) (hne : slots ≠ []) (hr : tget d.qm.cqs cq = some r) (hh : r.halted = false) (hi : mayIssue d r.bind = true) (hroom : slots.length ≤ cqFree r) :
    writeRecord cq t slots d = forAll slots (writeSlot cq t) d := by
  simp [writeRecord, hr, hh, hne, hi, Nat.not_lt.2 hroom]

theorem writeRecord_full (slots : List Nat) (hne : slots ≠ []) (hr : tget d.qm.cqs cq = some r) (hh : r.halted = false) (hi : mayIssue d r.bind = true) (hroom : cqFree r < slots.length) :
    writeRecord cq t slots d = { d with qm := { d.qm with telemDrop := satInc 32 d.qm.telemDrop } } := by
  simp [writeRecord, hr, hh, hne, hi, hroom]

theorem RingMoved.send (h : RingMoved cq r d e) (o : Out) : RingMoved cq r d (send o e) :=
  ⟨h.ring, h.others, h.out.trans (List.prefix_append _ _), h.drop⟩

/-- A completion ring after a slot at its write index: the index moves on, and the phase inverts at the wrap. -/
def nextSlot (r : CompRing) : CompRing :=
  { r with widx := (r.widx + 1) % 2 ^ r.log2, phase := if (r.widx + 1) % 2 ^ r.log2 = 0 then !r.phase else r.phase }

/-- A slot of a PCIe ring is written with the ring's phase, and the ring stays bound to its function. -/
theorem writeSlot_fn (t slot : Nat) (hr : tget d.qm.cqs cq = some r) (hb : r.bind = .fn f) :
    ∃ q, q.bind = .fn f ∧ RingMoved cq q (Machine.send (.dma f (r.base + 1024 * r.widx) 1024 (slot + 256 ^ 1023 * b2n r.phase)) d) (writeSlot cq t slot d) := by
  generalize hx : slot + 256 ^ 1023 * b2n r.phase = x
  have hw : writeSlot cq t slot d = coalesce cq t (touchPort (.pcx (f / 1024)) t (onCq cq nextSlot (Machine.send (.dma f (r.base + 1024 * r.widx) 1024 x) d))) := by
    simp only [writeSlot, hr, hx, hb]
    rfl
  rw [hw]
  have hr0 : tget (Machine.send (.dma f (r.base + 1024 * r.widx) 1024 x) d).qm.cqs cq = some r := hr
  generalize Machine.send _ d = d0 at hr0 ⊢
  have hs : RingMoved cq (nextSlot r) d0 (touchPort (.pcx (f / 1024)) t (onCq cq nextSlot d0)) := (RingMoved.onCq nextSlot hr0).of_same rfl rfl rfl
  obtain ⟨n, a, hc⟩ := RingMoved.coalesce t hs.ring
  refine ⟨_, ?_, hs.trans hc⟩
  exact hb

/-- The slots of a record follow the first. -/
theorem writeSlots_fn (slot : Nat) (slots : List Nat) (hr : tget d.qm.cqs cq = some r) (hb : r.bind = .fn f) :
    ∃ q, RingMoved cq q (Machine.send (.dma f (r.base + 1024 * r.widx) 1024 (slot + 256 ^ 1023 * b2n r.phase)) d) (forAll (slot :: slots) (writeSlot cq t) d) := by
  generalize hd0 : Machine.send _ d = d0
  have hfirst : ∃ q, q.bind = .fn f ∧ RingMoved cq q d0 (writeSlot cq t slot d) := hd0 ▸ writeSlot_fn t slot hr hb
  obtain ⟨q, -, hq⟩ := forAll_keeps (P := fun e => ∃ q, q.bind = .fn f ∧ RingMoved cq q d0 e) slots _ hfirst fun x _ e ⟨q, hqb, hq⟩ => by
    obtain ⟨q', hqb', hq'⟩ := writeSlot_fn t x hq.ring hqb
    exact ⟨q', hqb', (hq.send _).trans hq'⟩
  exact ⟨q, hq⟩

/-- A period's figures start again with the misses of the second alone. -/
theorem mem_clearPeriod {x : Nat × TStat} (h : x ∈ (clearPeriod d).alm.stats) : x.2.ended = 0 ∧ x.2.reads = 0 ∧ x.2.writes = 0 := by
  obtain ⟨y, -, rfl⟩ := List.mem_map.1 h
  exact ⟨rfl, rfl, rfl⟩

/-- Records raised one after the other stand in that order. -/
theorem forAll_raise {α : Type} (ty : EvType) (g : α → List Nat) : ∀ (l : List α) (d : Dev),
    forAll l (fun a => raise ty (g a)) d = { d with sil := { d.sil with inboxMain := d.sil.inboxMain ++ l.map fun a => ⟨ty, g a⟩ } }
  | [], d => by simp
  | a :: l, d => by
    rw [forAll_cons, forAll_raise ty g l]
    simp [raise]

/-- Each second the tenants that missed targets have their records, and the misses start again (R217). -/
theorem exec_accordMissSecond {tm : Nat} (hup : mainUp s.dev = true) (hready : s.dev.clo.ready = true) (hdue : s.dev.alm.missDue ≤ tm) :
    exec (.accordMissSecond tm) s = .next { s with dev := { tick tm s.dev with
      sil := { s.dev.sil with inboxMain := s.dev.sil.inboxMain ++ (s.dev.alm.stats.filter fun e => decide (e.2.misses ≠ [])).map fun e =>
        ⟨.accordMiss, e.1 :: sumL (e.2.misses.map (·.2)) :: topReasons e.2.misses⟩ }
      alm := { s.dev.alm with missDue := tm + 1000000000, stats := tmap (tfilter s.dev.alm.stats fun _ x => decide (x.ended ≠ 0)) fun _ x => { x with misses := [] } } } } := by
  show execAccordMissSecond tm s = _
  simp [execAccordMissSecond, on_next, hup, hready, hdue, forAll_raise]

/-! ### The clock of the Almanac (R186, R192, R198, R201) -/

theorem exec_almanacPeriod {tm : Nat} (hup : mainUp s.dev = true) (hdue : s.dev.alm.periodAt + 2000000 ≤ tm) :
    exec (.almanacPeriod tm) s = .next { s with dev := { tick tm s.dev with alm := { s.dev.alm with
      periodAt := tm / 2000000 * 2000000, rbUsed := []
      dies := tmap s.dev.alm.dies fun _ x => { x with busyLast := x.busy, busy := 0, used := [] } } } } := by
  show execAlmanacPeriod tm s = _
  simp [execAlmanacPeriod, on_next, hup, hdue]

theorem exec_almanacSlot {tm : Nat} (hup : mainUp s.dev = true) (hdue : s.dev.alm.slotAt + 250000 ≤ tm) :
    exec (.almanacSlot tm) s = .next { s with dev := almanacSlot tm (tick tm s.dev) } := by
  show execAlmanacSlot tm s = _
  simp [execAlmanacSlot, on_next, hup, hdue]

/-- A die with no operation of its own takes up none. -/
theorem almPump_idle {die : Nat} (h : ∀ x ∈ d.alm.ops, x.2.die ≠ die) : almPump die d = d := by
  have hw : waitingOps d die = [] := List.filter_eq_nil_iff.2 fun x hx => by simp [h x hx]
  have hr : runningOp d die = none := List.find?_eq_none.2 fun x hx => by simp [h x hx]
  have hs : suspendedOp d die = none := List.find?_eq_none.2 fun x hx => by simp [h x hx]
  unfold almPump
  rw [hw, hr, hs]
  split <;> rfl

/-- Without reads no read goes around its die. -/
theorem rcaCheck_noReads (cmd : Option Nat) (h : ∀ x ∈ d.alm.ops, x.2.kind ≠ .readPage) : rcaCheck cmd d = d := by
  have hl : (d.alm.ops.filter fun e => !e.2.sent && decide (e.2.kind = .readPage) && decide (e.2.level ≤ 4)) = [] :=
    List.filter_eq_nil_iff.2 fun x hx => by simp [h x hx]
  rw [rcaCheck, hl, forAll_nil]

/-- A die of no bound set has no others to examine. -/
theorem pumpSets_unbound {die : Nat} (h : ∀ x ∈ d.alm.bsets, x.2.contains die = false) : pumpSets die d = d := by
  have hl : (d.alm.bsets.filter fun e => e.2.contains die) = [] := List.filter_eq_nil_iff.2 fun x hx => by simp only [h x hx]; simp
  rw [pumpSets, hl]
  rfl

theorem exec_blockedTimeExpiry {die tm : Nat} {x : Die} (hup : mainUp s.dev = true) (hx : tget s.dev.alm.dies die = some x) (hne : x.blockedUntil ≠ 0) (hdue : x.blockedUntil ≤ tm)
    (hops : ∀ e ∈ s.dev.alm.ops, e.2.die ≠ die ∧ e.2.kind ≠ .readPage) (hsets : ∀ e ∈ s.dev.alm.bsets, e.2.contains die = false) :
    exec (.blockedTimeExpiry die tm) s = .next { s with dev := onDie die (fun x => { x with blockedUntil := 0 }) (tick tm s.dev) } := by
  have hup' : mainUp (tick tm s.dev) = true := hup
  have hp := pumpSets_unbound (d := onDie die (fun x => { x with blockedUntil := 0 }) (tick tm s.dev)) hsets
  have ha := almPump_idle (d := onDie die (fun x => { x with blockedUntil := 0 }) (tick tm s.dev)) fun e he => (hops e he).1
  have hc := rcaCheck_noReads (d := onDie die (fun x => { x with blockedUntil := 0 }) (tick tm s.dev)) none fun e he => (hops e he).2
  show execBlockedTimeExpiry die tm s = _
  simp [execBlockedTimeExpiry, on_next, hx, hne, hdue, hup, hp, ha, hc]

end

/-- Settles O13: each clock event by its effect on the part; what a slot boundary settles outlasts the work that it starts (`almanacSlot_slotMark`). -/
theorem periodReportsAndAlmanacComplete : Obligations.PeriodReportsAndAlmanacComplete := by
  unfold Obligations.PeriodReportsAndAlmanacComplete
  refine ⟨⟨?telem, ?full, ?miss⟩, ?period, ?slot, ?blocked⟩
  case telem =>
    intro s tm cq r f h hdue hS2 hring hr hten hb hh hbm hroom
    obtain ⟨act, e, hact, he, hx⟩ := exec_telemetryPeriod h hdue hS2 hring hten
    have hi : mayIssue (tick tm s.dev) r.bind = true := by rw [hb]; exact hbm
    rw [← hact] at hroom ⊢
    rw [writeRecord_room (d := tick tm s.dev) _ (by simp) hr hh hi (by simpa [Nat.add_comm] using hroom)] at he
    obtain ⟨q, hq⟩ := writeSlots_fn (d := tick tm s.dev) (t := tm) (deviceSlot (tick tm s.dev) s.dev.qm.telemSeq act.length)
      (act.map fun a => tenantSlot (tick tm s.dev) s.dev.qm.telemSeq a.1 a.2) hr hb
    rw [← he] at hq
    exact ⟨_, hx, rfl, rfl, hq.drop, hq.out.mem (List.mem_append_right _ (List.mem_singleton_self _)), fun _ hy => mem_clearPeriod hy⟩
  case full =>
    intro s tm cq r h hdue hS2 hring hr hten hh hi hroom
    obtain ⟨act, e, rfl, he, hx⟩ := exec_telemetryPeriod h hdue hS2 hring hten
    rw [writeRecord_full (d := tick tm s.dev) _ (by simp) hr hh hi (by simpa [Nat.add_comm] using hroom)] at he
    subst he
    exact ⟨_, hx, rfl, rfl, rfl, rfl⟩
  case miss =>
    intro s tm hup hready hdue
    refine ⟨_, exec_accordMissSecond hup hready hdue, rfl, fun e he => ?_, rfl⟩
    obtain ⟨y, -, rfl⟩ := List.mem_map.1 he
    rfl
  case period =>
    intro s tm hup hdue
    exact ⟨_, exec_almanacPeriod hup hdue, rfl⟩
  case slot =>
    intro s tm hup hdue
    have hm := almanacSlot_slotMark (tick tm s.dev) tm
    exact ⟨_, exec_almanacSlot hup hdue, congrArg SlotMark.start hm, congrArg SlotMark.bg hm⟩
  case blocked =>
    intro s die tm x hup hx hne hdue hops hsets
    refine ⟨_, exec_blockedTimeExpiry hup hx hne hdue hops hsets, tget_tmod_self _ hx, fun j hj => tget_tmod_ne _ _ hj, ?_, rfl⟩
    have hz : tget (onDie die (fun x => { x with blockedUntil := 0 }) (tick tm s.dev)).alm.dies die = some { x with blockedUntil := 0 } := tget_tmod_self _ hx
    simp only [blockedNow, hz, Nat.not_lt_zero, decide_false]
end Sys2Proof.Machine

/-!
The Smiast transport (spec/04_smiast_transport.md): what the device's own sending changes, packets received, timers, the commands on connections, and the interfaces beneath.
-/

namespace Sys2Proof.Machine
/-! ### What sending changes (R140-R160)

Sending on a connection changes that connection's sending side, buffers, what goes out, ports' idle times and Sillage's queue of records. `Traffic` says so once; whoever needs a field of
the connection names a view of it that sending leaves. -/

/-- A connection without what numbering and sealing control packets change. -/
def quietCtl (k : Conn) : Conn := { k with ctlTx := 0, sealedCtl := 0, lastTx := 0, psnDue := false }

/-- A connection without its sending side. -/
def quietTx (k : Conn) : Conn :=
  { k with queue := [], unacked := [], txNext := 0, sealedTx := 0, used := 0, lastTx := 0, psnDue := false, nextTicket := 0, ctlTx := 0, sealedCtl := 0,
           ackDue := 0, ackFrom := none, gapFrom := none, ceSeen := false, granted := 0, told := 0 }

/-- A connection without its sending side and its reads of remote memory. -/
def quietIo (k : Conn) : Conn := { quietTx k with reqs := [], reqQueue := [], nextReq := 0 }

/-- A part without what sending, the time told and the use of a connection's context change. -/
def still (d : Dev) : Dev :=
  { d with smt := { d.smt with conns := [], cache := [], miss := 0, gcm := [] }, bpm := {}, pwr := {}, sil := { d.sil with inboxMain := [] },
           io := { d.io with now := 0, out := [], stood := [], picks := 0 } }

/-- From one part to another there was traffic on a connection alone, and what a view shows of the connection stayed. -/
structure Traffic {α : Type} (v : Conn → α) (i : Nat) (d e : Dev) : Prop where
  still : still e = still d
  conn : ∀ k, tget d.smt.conns i = some k → ∃ k', tget e.smt.conns i = some k' ∧ v k' = v k
  others : ∀ j, j ≠ i → tget e.smt.conns j = tget d.smt.conns j
  inbox : d.sil.inboxMain <+: e.sil.inboxMain

section
variable {α : Type} {v : Conn → α} {i : Nat} {d e f : Dev} {k : Conn}

theorem still_qm (h : still e = still d) : e.qm = d.qm := (congrArg Dev.qm h :)
theorem still_maps (h : still e = still d) : e.maps = d.maps := (congrArg Dev.maps h :)
theorem still_links (h : still e = still d) : e.smt.links = d.smt.links := (congrArg (fun x : Dev => x.smt.links) h :)
theorem still_retx (h : still e = still d) : e.smt.retx = d.smt.retx := (congrArg (fun x : Dev => x.smt.retx) h :)
theorem still_dropAuth (h : still e = still d) : e.smt.dropAuth = d.smt.dropAuth := (congrArg (fun x : Dev => x.smt.dropAuth) h :)
theorem still_dropOther (h : still e = still d) : e.smt.dropOther = d.smt.dropOther := (congrArg (fun x : Dev => x.smt.dropOther) h :)

theorem onConn_get_self (f : Conn → Conn) (h : tget d.smt.conns i = some k) : tget (onConn i f d).smt.conns i = some (f k) := tget_tmod_self f h

/-- An effect whose result is known. -/
theorem on_eq {s : State} {f : Dev → Dev} (h : f s.dev = e) : s.on f = .next { s with dev := e } := by rw [on_next, h]

namespace Traffic

theorem refl (v : Conn → α) (i : Nat) (d : Dev) : Traffic v i d d := ⟨rfl, fun k hk => ⟨k, hk, rfl⟩, fun _ _ => rfl, List.prefix_rfl⟩

theorem trans (h : Traffic v i d e) (g : Traffic v i e f) : Traffic v i d f where
  still := g.still.trans h.still
  conn k hk := by
    obtain ⟨k', hk', hv⟩ := h.conn k hk
    obtain ⟨k'', hk'', hv'⟩ := g.conn k' hk'
    exact ⟨k'', hk'', hv'.trans hv⟩
  others j hj := (g.others j hj).trans (h.others j hj)
  inbox := h.inbox.trans g.inbox

/-- The later step first, whose parts a goal names. -/
theorem after (g : Traffic v i e f) (h : Traffic v i d e) : Traffic v i d f := h.trans g

/-- What shows less of the connection stayed as well. -/
theorem mono {β : Type} {w : Conn → β} (h : Traffic v i d e) (hw : ∀ k k', v k' = v k → w k' = w k) : Traffic w i d e where
  still := h.still
  conn k hk := (h.conn k hk).imp fun k' hk' => ⟨hk'.1, hw k k' hk'.2⟩
  others := h.others
  inbox := h.inbox

/-- A step that leaves every connection. -/
theorem of_same (h : Machine.still e = Machine.still d) (hc : e.smt.conns = d.smt.conns) (hi : d.sil.inboxMain <+: e.sil.inboxMain) : Traffic v i d e :=
  ⟨h, fun k hk => ⟨k, hc ▸ hk, rfl⟩, fun _ _ => by rw [hc], hi⟩

/-- A change of the connection that the view does not show. -/
theorem onConn (f : Conn → Conn) (d : Dev) (hf : ∀ k, v (f k) = v k := by intro k; simp only [quietIo, quietTx, quietCtl]) : Traffic v i d (onConn i f d) where
  still := rfl
  conn k hk := ⟨f k, tget_tmod_self f hk, hf k⟩
  others _ hj := tget_tmod_ne _ f hj
  inbox := List.prefix_rfl

theorem raise (ty : EvType) (ps : List Nat) (d : Dev) : Traffic v i d (raise ty ps d) := of_same rfl rfl (List.prefix_append _ _)
theorem send (o : Out) (d : Dev) : Traffic v i d (send o d) := of_same rfl rfl List.prefix_rfl
theorem touchPort (u : ParkUnit) (t : Nat) (d : Dev) : Traffic v i d (touchPort u t d) := of_same rfl rfl List.prefix_rfl
theorem askBuffer (n : Nat) (u : BufUser) (d : Dev) : Traffic v i d (askBuffer n u d) := of_same rfl rfl List.prefix_rfl

theorem forAll {β : Type} {f : β → Dev → Dev} (hf : ∀ a d, Traffic v i d (f a d)) (l : List β) (d : Dev) : Traffic v i d (forAll l f d) :=
  forAll_keeps (P := Traffic v i d) l d (refl v i d) fun a _ _ h => h.trans (hf a _)

/-- Rounds of an effect, whose number alone counts. -/
theorem rounds {g : Dev → Dev} (hg : ∀ d, Traffic v i d (g d)) (n : Nat) (d : Dev) : Traffic v i d ((List.range n).foldl (fun d _ => g d) d) :=
  forAll (f := fun _ => g) (fun _ => hg) (List.range n) d

theorem ite {c : Prop} [Decidable c] (he : Traffic v i d e) (hf : Traffic v i d f) : Traffic v i d (if c then e else f) := by
  split
  · exact he
  · exact hf

end Traffic

/-- A returned buffer adds to Sillage's queue at most, and leaves the connections. -/
theorem returnBuffer_traffic (pool ptr : Nat) (d : Dev) : Traffic v i d (returnBuffer pool ptr d) := by
  unfold returnBuffer
  split
  · exact .refl v i d
  · split
    · exact .of_same rfl rfl (List.prefix_append _ _)
    · exact .of_same rfl rfl List.prefix_rfl

theorem freeBuffers_traffic (p : BufUser → Bool) (d : Dev) : Traffic v i d (freeBuffers p d) :=
  .after (.forAll (fun g : BufUser × Nat × Nat => returnBuffer_traffic g.2.1 g.2.2) _ _) (.of_same rfl rfl List.prefix_rfl)

theorem stagingDone_traffic (cmd : Option Nat) (d : Dev) : Traffic v i d (stagingDone cmd d) := by
  unfold stagingDone
  split
  · exact .ite (.refl v i d) (freeBuffers_traffic _ d)
  · exact .refl v i d

theorem smtEmit_traffic (k : Conn) (bytes : List Byte) (d : Dev) : Traffic v i d (smtEmit k bytes d) := .ite (.refl v i d) (.send _ d)

theorem rekeyDue_traffic (hv : ∀ k, v { k with psnDue := true } = v k) (space old new : Nat) (k : Conn) (d : Dev) : Traffic v i d (rekeyDue i space old new k d) :=
  .ite (.after (.raise _ _ _) (.onConn _ d hv)) (.refl v i d)

theorem smtControl_traffic (ty flags : Nat) (pay : List Byte) (d : Dev) : Traffic quietCtl i d (smtControl i ty flags pay d) := by
  unfold smtControl
  split
  · exact .refl _ i d
  · split
    · exact .refl _ i d
    · exact .ite (.refl _ i d) (.after (rekeyDue_traffic (fun _ => rfl) _ _ _ _ _) (.after (.onConn _ _) (smtEmit_traffic _ _ d)))

/-- What shows nothing of the rest of the sending side either. -/
theorem Traffic.tx (h : Traffic quietCtl i d e) : Traffic quietTx i d e := h.mono fun _ _ hv => (congrArg quietTx hv :)

theorem smtAck_traffic (d : Dev) : Traffic quietTx i d (smtAck i d) := by
  unfold smtAck
  split
  · exact .refl _ i d
  · exact .after (.onConn _ _) (smtControl_traffic _ _ _ d).tx

theorem smtCredCheck_traffic (d : Dev) : Traffic quietTx i d (smtCredCheck i d) := by
  unfold smtCredCheck
  split
  · exact .refl _ i d
  · exact .ite (.after (.onConn _ _) (smtControl_traffic _ _ _ d).tx) (.refl _ i d)

theorem smtSendOne_traffic (d : Dev) : Traffic quietTx i d (smtSendOne i d) := by
  unfold smtSendOne
  split
  · exact .refl _ i d
  · split
    · refine .ite (.refl _ i d) (.after (stagingDone_traffic _ _) (.after (rekeyDue_traffic (fun _ => rfl) _ _ _ _ _) ?_))
      exact .after (.onConn _ _) (.after (.touchPort _ _ _) (smtEmit_traffic _ _ d))
    · exact .refl _ i d

theorem smtPump_traffic (d : Dev) : Traffic quietTx i d (smtPump i d) := by
  unfold smtPump
  split
  · exact .rounds smtSendOne_traffic _ d
  · exact .refl _ i d

theorem smtEnqueue_traffic (q : TxReq) (d : Dev) : Traffic quietTx i d (smtEnqueue i q d) := by
  unfold smtEnqueue
  split
  · exact .refl _ i d
  · exact .after (.askBuffer _ _ _) (.onConn _ d)

/-- What shows nothing of the reads either. -/
theorem Traffic.io (h : Traffic quietTx i d e) : Traffic quietIo i d e :=
  h.mono fun _ _ hv => congrArg (fun k : Conn => { k with reqs := [], reqQueue := [], nextReq := 0 }) hv

theorem smtReqOne_traffic (d : Dev) : Traffic quietIo i d (smtReqOne i d) := by
  unfold smtReqOne
  split
  · exact .refl _ i d
  · split
    · exact .refl _ i d
    · exact .ite (.refl _ i d) (.after (smtPump_traffic _).io (.after (smtEnqueue_traffic _ _).io (.onConn _ d)))

theorem smtReqPump_traffic (d : Dev) : Traffic quietIo i d (smtReqPump i d) := by
  unfold smtReqPump
  split
  · exact .after (smtCredCheck_traffic _).io (.rounds smtReqOne_traffic _ d)
  · exact .refl _ i d

theorem smtWrite_traffic (addr rkey : Nat) (fence : Bool) (l : List Byte) (completes cmd : Option Nat) (d : Dev) :
    Traffic quietIo i d (smtWrite i addr rkey fence l completes cmd d) := by
  unfold smtWrite
  split
  · exact .refl _ i d
  · refine .ite (.refl _ i d) (.after (smtPump_traffic _).io (.after (.io (.forAll (fun _ => smtEnqueue_traffic _) _ _)) ?_))
    exact .onConn _ d

/-- Using a connection's context changes the caches alone. -/
theorem useContext_traffic (j : Nat) (d : Dev) : Traffic v i d (useContext j d) := by
  unfold useContext
  rw [loadGcm_frame]
  refine .of_same ?_ ?_ List.prefix_rfl
  · rw [onSmt]
    split <;> rfl
  · rw [onSmt]
    split <;> rfl

end
end Sys2Proof.Machine

namespace Sys2Proof.Machine
/-! ### Datagrams that verify (R142) -/

section
variable {d e : Dev} {p : RxPkt} {ty i t : Nat} {k : Conn} {pay : List Byte}

/-- A connection after a datagram of it has been heard: the time, and what a mark of congestion changes. -/
def Heard (t : Nat) (k k' : Conn) : Prop := ∃ seen n at_ w h, k' = { k with lastRx := t, ceSeen := seen, ceCount := n, ceAt := at_, window := w, halvedAt := h }

theorem noteCe_heard (h : tget d.smt.conns i = some { k with lastRx := t }) : ∃ k', Heard t k k' ∧ tget (noteCe i t d).smt.conns i = some k' := by
  refine ⟨_, ?_, tget_tmod_self _ h⟩
  show Heard t k (if _ then _ else _)
  split
  · exact ⟨_, _, _, _, _, rfl⟩
  · exact ⟨_, _, _, _, _, rfl⟩

/-- The connection that an id names is there. -/
theorem connNamed_conn {cid : Nat} (h : connNamed d cid = some (i, k)) : tget d.smt.conns i = some k := by
  unfold connNamed at h
  split at h
  · next hk =>
    split at h
    · cases h
      exact hk
    · cases h
  · cases h

theorem Verified.conn (h : Verified d p ty i k pay) : tget d.smt.conns i = some k := by
  obtain ⟨-, -, -, -, -, -, -, hnamed, -⟩ := h
  exact connNamed_conn hnamed

theorem Verified.isOpen (h : Verified d p ty i k pay) : k.st = .isOpen := by
  obtain ⟨-, -, -, -, -, -, -, -, hst, -⟩ := h
  exact hst

theorem Verified.type (h : Verified d p ty i k pay) : (rxHdr p.bytes).ty = ty := by
  obtain ⟨-, -, -, -, -, -, hty, -⟩ := h
  exact hty

/-- A datagram that passes every check is taken by its connection, whose context is in use. -/
theorem smtReceive_verified (h : Verified d p ty i k pay) : smtReceive p t d = authentic i k (rxHdr p.bytes) p pay t (useContext i d) := by
  obtain ⟨-, hcs, hvl, hmtu, hport, hver, hty, hnamed, hst, hsrc, hlen, hfl, key, hkey, hopen⟩ := h
  subst hty
  rw [hsrc, hlen] at hmtu
  simp [smtReceive, hcs, hvl, Nat.not_lt.2 hmtu, hport, hver, hnamed, hst, hsrc, hkey, hlen, hfl, hopen]

/-- A datagram as its row of the table receives it, at a part whose time and port have been told. -/
theorem rxTyped_verified (h : Verified d p ty i k pay) :
    rxTyped ty p t d = authentic i k (rxHdr p.bytes) p pay t (useContext i (touchPort (.eth (p.iface / 8)) t (tick t d))) := by
  have hv : Verified (touchPort (.eth (p.iface / 8)) t (tick t d)) p ty i k pay := h
  have hrx : rxOk (tick t d) p.iface = true := h.1
  rw [← smtReceive_verified hv, rxTyped, h.type, decide_eq_true rfl, onlyIf_true, rxFrame, hrx, onlyIf_true]

/-- Once a datagram has been heard, its connection stands with the time and the marks told, and nothing else but caches changed. -/
structure Hears (i t : Nat) (k k' : Conn) (d e : Dev) : Prop where
  still : still e = still d
  conn : tget e.smt.conns i = some k'
  heard : Heard t k k'
  out : e.io.out = d.io.out

theorem authentic_hears (h : tget d.smt.conns i = some k) (hd : RxHdr) : ∃ e k', Hears i t k k' d e ∧
    authentic i k hd p pay t d = if hd.ty = 1 ∨ hd.ty = 3 ∨ hd.ty = 8 then acceptData i k' hd pay t e
      else if hd.ty = 5 ∨ hd.ty = 6 ∨ hd.ty = 7 then acceptControl i k' hd pay t e else dropOther e := by
  have h1 : tget (onConn i (fun k => { k with lastRx := t }) d).smt.conns i = some { k with lastRx := t } := tget_tmod_self _ h
  obtain ⟨e, he, hst, hout, k', hk', hc⟩ : ∃ e, e = (if p.ecn = 3 then noteCe i t (onConn i (fun k => { k with lastRx := t }) d) else onConn i (fun k => { k with lastRx := t }) d) ∧
      still e = still d ∧ e.io.out = d.io.out ∧ ∃ k', Heard t k k' ∧ tget e.smt.conns i = some k' := by
    refine ⟨_, rfl, ?_⟩
    split
    · exact ⟨rfl, rfl, noteCe_heard h1⟩
    · exact ⟨rfl, rfl, _, ⟨_, _, _, _, _, rfl⟩, h1⟩
  refine ⟨e, k', ⟨hst, hc, hk', hout⟩, ?_⟩
  unfold authentic
  simp only [← he, hc, Option.getD_some]

/-- What a datagram that verifies comes to. -/
theorem rxTyped_hears (h : Verified d p ty i k pay) : ∃ e k', Hears i t k k' d e ∧
    rxTyped ty p t d = if ty = 1 ∨ ty = 3 ∨ ty = 8 then acceptData i k' (rxHdr p.bytes) pay t e
      else if ty = 5 ∨ ty = 6 ∨ ty = 7 then acceptControl i k' (rxHdr p.bytes) pay t e else dropOther e := by
  have hu : Traffic id i (touchPort (.eth (p.iface / 8)) t (tick t d)) _ := useContext_traffic i _
  obtain ⟨k1, hk1, hv⟩ := hu.conn k h.conn
  cases hv
  obtain ⟨e, k', he, heq⟩ := authentic_hears (p := p) (pay := pay) (t := t) hk1 (rxHdr p.bytes)
  rw [h.type] at heq
  refine ⟨e, k', ⟨he.still.trans hu.still, he.conn, he.heard, he.out.trans ?_⟩, (rxTyped_verified h).trans heq⟩
  rw [useContext, loadGcm_frame]
  rfl

end
end Sys2Proof.Machine

namespace Sys2Proof.Machine
/-! ### Datagrams that are dropped (R122, R142) -/

section
variable {s : State} {d : Dev} {p : RxPkt} {i t tm iface : Nat} {k : Conn}

/-- Using a connection's context changes the caches, the count of misses and the choices of evictions alone. -/
theorem useContext_eq (i : Nat) (d : Dev) : ∃ cache miss gcm picks,
    useContext i d = { d with smt := { d.smt with cache := cache, miss := miss, gcm := gcm }, io := { d.io with picks := picks } } := by
  unfold useContext
  rw [loadGcm_frame, onSmt]
  split
  · exact ⟨_, _, _, _, rfl⟩
  · exact ⟨_, _, _, _, rfl⟩

/-- Each received type has its own row, and all rows receive alike. -/
theorem exec_receive {c : Instr} (h : (rxHdr p.bytes).ty = 1 ∧ c = .smtBell p tm ∨ (rxHdr p.bytes).ty = 3 ∧ c = .smtRresp p tm ∨ (rxHdr p.bytes).ty = 5 ∧ c = .smtAckRx p tm ∨
    (rxHdr p.bytes).ty = 6 ∧ c = .smtCredRx p tm ∨ (rxHdr p.bytes).ty = 7 ∧ c = .smtKeepRx p tm ∨ (rxHdr p.bytes).ty = 8 ∧ c = .smtCloseRx p tm) :
    exec c s = .next { s with dev := rxTyped (rxHdr p.bytes).ty p tm s.dev } := by
  obtain ⟨hty, rfl⟩ | ⟨hty, rfl⟩ | ⟨hty, rfl⟩ | ⟨hty, rfl⟩ | ⟨hty, rfl⟩ | ⟨hty, rfl⟩ := h <;> (rw [hty]; rfl)

/-- A frame reaches an interface that can receive after its port has been touched. -/
theorem rxFrame_ok (f : Dev → Dev) (h : rxOk d iface = true) : rxFrame iface t f d = f (touchPort (.eth (iface / 8)) t d) := by
  rw [rxFrame, h, onlyIf_true]

theorem rxTyped_ok (h : rxOk d p.iface = true) : rxTyped (rxHdr p.bytes).ty p t d = smtReceive p t (touchPort (.eth (p.iface / 8)) t (tick t d)) := by
  have hrx : rxOk (tick t d) p.iface = true := h
  rw [rxTyped, decide_eq_true rfl, onlyIf_true, rxFrame_ok _ hrx]

/-! The checks read the registers and the engine alone, so that a port's idle time and the time told do not matter to them. -/

section
variable {e : Dev} (hr : e.rf = d.rf) (hs : e.smt = d.smt)
include hr

theorem rd_congr (off : Nat) : rd e off = rd d off := by rw [rd, hr]; rfl
theorem ifTag_congr (i : Nat) : ifTag e i = ifTag d i := by simp only [ifTag, rd_congr hr]
theorem vlanOk_congr (i : Nat) (vlan : Option Nat) : vlanOk e i vlan = vlanOk d i vlan := by
  rw [vlanOk, ifTag_congr hr]
  rfl

theorem ifMtu_congr (i : Nat) : ifMtu e i = ifMtu d i := by simp only [ifMtu, rd_congr hr]
theorem udpPort_congr : udpPort e = udpPort d := by simp only [udpPort, rd_congr hr]

include hs

theorem csumOk_congr (p : RxPkt) : csumOk e p = csumOk d p := by
  have h4 : ifV4 e p.iface = ifV4 d p.iface := rd_congr hr _
  have h6 : ifV6 e p.iface = ifV6 d p.iface := by rw [ifV6, hs]; rfl
  rw [csumOk, h4, h6]
  rfl

end

theorem connNamed_congr {e : Dev} (hs : e.smt = d.smt) (cid : Nat) : connNamed e cid = connNamed d cid := by
  unfold connNamed
  rw [hs]

/-- A tag that does not verify is counted after the context was looked up, and nothing else comes of the datagram. -/
theorem smtReceive_badTag {key : BitVec 256} (hcs : csumOk d p = true) (hvl : vlanOk d p.iface p.vlan = true) (hmtu : ipBytes p.src p.bytes.length ≤ ifMtu d p.iface)
    (hport : p.dport = udpPort d) (hver : (rxHdr p.bytes).ver = 1) (hnamed : connNamed d (rxHdr p.bytes).cid = some (i, k)) (hst : k.st = .isOpen ∨ k.st = .closing)
    (hsrc : p.src = k.peer) (hkey : keyOf k (rxHdr p.bytes).kgen = some key) (hlen : p.bytes.length = 48 + (rxHdr p.bytes).len) (hfl : bit (rxHdr p.bytes).flags 0 = false)
    (hopen : gcmOpen key (smtNonce k.salt (if (rxHdr p.bytes).ty = 5 ∨ (rxHdr p.bytes).ty = 6 ∨ (rxHdr p.bytes).ty = 7 ∨ (rxHdr p.bytes).ty = 9 then 2 else 0) (rxHdr p.bytes).psn)
      (p.bytes.take 32) (slice p.bytes 32 (rxHdr p.bytes).len) (p.bytes.drop (32 + (rxHdr p.bytes).len)) = none) {e : Dev} (hr : e.rf = d.rf) (hs : e.smt = d.smt) :
    smtReceive p t e = onSmt (fun s => { s with dropAuth := satInc 16 s.dropAuth }) (useContext i e) := by
  have hlive : ¬ (k.st ≠ .isOpen ∧ k.st ≠ .closing) := fun h => hst.elim h.1 h.2
  rw [hsrc, hlen] at hmtu
  rw [← csumOk_congr hr hs] at hcs
  rw [← vlanOk_congr hr] at hvl
  rw [← ifMtu_congr hr] at hmtu
  rw [← udpPort_congr hr] at hport
  rw [← connNamed_congr hs] at hnamed
  simp [smtReceive, hcs, hvl, Nat.not_lt.2 hmtu, hport, hver, hnamed, hlive, hsrc, hkey, hlen, hfl, hopen]

/-- A datagram of a connection that no one has is counted in SMT_DROP.OTHER, whatever else is wrong with it. -/
theorem smtReceive_unnamed (hcs : csumOk d p = true) (hnamed : connNamed d (rxHdr p.bytes).cid = none) {e : Dev} (hr : e.rf = d.rf) (hs : e.smt = d.smt) :
    smtReceive p t e = dropOther e := by
  rw [← csumOk_congr hr hs] at hcs
  rw [← connNamed_congr hs] at hnamed
  unfold smtReceive
  simp only [hcs, hnamed]
  simp

theorem exec_frameDrop_none (h : rxOk s.dev iface = true) :
    exec (.smtFrameDrop iface none tm) s = .next { s with dev := dropOther (touchPort (.eth (iface / 8)) tm (tick tm s.dev)) } := by
  have hrx : rxOk (tick tm s.dev) iface = true := h
  show execSmtFrameDrop iface none tm s = _
  rw [execSmtFrameDrop, on_next, rxFrame_ok _ hrx]

theorem exec_frameDrop_some (hty : (rxHdr p.bytes).ty ∉ [1, 3, 5, 6, 7, 8]) (h : rxOk s.dev p.iface = true) :
    exec (.smtFrameDrop iface (some p) tm) s = .next { s with dev := rxTyped (rxHdr p.bytes).ty p tm s.dev } := by
  have hrx : rxOk (tick tm s.dev) p.iface = true := h
  show execSmtFrameDrop iface (some p) tm s = _
  rw [rxTyped_ok h]
  simp only [execSmtFrameDrop, on_next, List.contains_eq_mem, hty, decide_false, Bool.not_false, onlyIf_true, rxFrame_ok _ hrx]

end

/-- Settles O23: a forged datagram ends at its tag, and one of no connection, or of a type that no client sends, at SMT_DROP.OTHER. -/
theorem smiastForgedPacketsChangeNothing : Obligations.SmiastForgedPacketsChangeNothing := by
  unfold Obligations.SmiastForgedPacketsChangeNothing
  refine ⟨?forged, ?frame, ?unnamed, ?nakc⟩
  case forged =>
    intro s p tm c i k key hc hrx hcs hvl hmtu hport hver hnamed hst hsrc hkey hlen hfl hopen
    obtain ⟨cache, miss, gcm, picks, hu⟩ := useContext_eq i (touchPort (.eth (p.iface / 8)) tm (tick tm s.dev))
    refine ⟨_, exec_receive hc, ?_⟩
    rw [rxTyped_ok hrx, smtReceive_badTag (e := touchPort (.eth (p.iface / 8)) tm (tick tm s.dev)) hcs hvl hmtu hport hver hnamed hst hsrc hkey hlen hfl hopen rfl rfl, hu]
    exact ⟨rfl, rfl⟩
  case frame => exact fun s iface tm hrx => ⟨_, exec_frameDrop_none hrx, rfl⟩
  case unnamed =>
    intro s iface p tm hty hrx hcs hnamed
    have hx : exec (.smtFrameDrop iface (some p) tm) s = .next { s with dev := dropOther (touchPort (.eth (p.iface / 8)) tm (tick tm s.dev)) } := by
      rw [exec_frameDrop_some hty hrx, rxTyped_ok hrx, smtReceive_unnamed (e := touchPort (.eth (p.iface / 8)) tm (tick tm s.dev)) hcs hnamed rfl rfl]
    exact ⟨_, hx, rfl⟩
  case nakc =>
    intro s iface p tm i k pay h
    obtain ⟨e, k', he, heq⟩ := rxTyped_hears (t := tm) h
    have hrx : rxOk s.dev p.iface = true := h.1
    have hdrop : rxTyped 9 p tm s.dev = dropOther e := heq
    have hx := exec_frameDrop_some (s := s) (iface := iface) (tm := tm) (by simp [h.type]) hrx
    rw [h.type, hdrop] at hx
    refine ⟨_, hx, ?_, (still_dropAuth he.still :), (still_qm he.still :), (still_maps he.still :)⟩
    show satInc 16 e.smt.dropOther = _
    rw [still_dropOther he.still]
end Sys2Proof.Machine

namespace Sys2Proof.Machine
/-! ### The interfaces (R14, R121, R122) -/

section
variable {s : State} {d e : Dev} {iface tm : Nat} {vlan : Option Nat}

/-- A frame with its interface's tag is taken, after its port has been touched. -/
theorem rxTagged_ok (f : Dev → Dev) (hrx : rxOk d iface = true) (hv : vlanOk d iface vlan = true) :
    rxTagged iface tm vlan f (tick tm d) = f (touchPort (.eth (iface / 8)) tm (tick tm d)) := by
  have hrx' : rxOk (tick tm d) iface = true := hrx
  have hv' : vlanOk (touchPort (.eth (iface / 8)) tm (tick tm d)) iface vlan = true := (vlanOk_congr rfl iface vlan).trans hv
  rw [rxTagged, rxFrame_ok _ hrx', if_pos hv']

/-! The interface's own addresses and tag, once the time and its port have been told. -/

theorem ifV4_touched (u : ParkUnit) (i : Nat) : ifV4 (touchPort u tm (tick tm d)) i = ifV4 d i := rd_congr rfl _
theorem ifV6_touched (u : ParkUnit) (i : Nat) : ifV6 (touchPort u tm (tick tm d)) i = ifV6 d i := (rfl)
theorem ifTag_touched (u : ParkUnit) (i : Nat) : ifTag (touchPort u tm (tick tm d)) i = ifTag d i := ifTag_congr rfl i
theorem ifMac_congr (hr : e.rf = d.rf) (i : Nat) : ifMac e i = ifMac d i := by simp only [ifMac, rd_congr hr]
theorem ifMac_touched (u : ParkUnit) (i : Nat) : ifMac (touchPort u tm (tick tm d)) i = ifMac d i := ifMac_congr rfl i

theorem exec_arpRequest {mac spa tpa : Nat} (hrx : rxOk s.dev iface = true) (hv : vlanOk s.dev iface vlan = true) (htpa : ifV4 s.dev iface = tpa) (hne : tpa ≠ 0) :
    exec (.smtArpRequest iface ⟨mac, vlan⟩ spa tpa tm) s = .next { s with
      dev := send (.eth iface (ifTag s.dev iface) 0 mac ([0, 1, 8, 0, 6, 4, 0, 2] ++ beBytes 6 (ifMac s.dev iface) ++ beBytes 4 tpa ++ beBytes 6 mac ++ beBytes 4 spa))
        (touchPort (.eth (iface / 8)) tm (tick tm s.dev)) } := by
  show execSmtArpRequest iface ⟨mac, vlan⟩ spa tpa tm s = _
  rw [execSmtArpRequest, on_next, rxTagged_ok _ hrx hv, ifV4_touched, if_pos ⟨htpa, hne⟩, ifTag_touched, ifMac_touched]

theorem exec_neighborSolicit {mac src target : Nat} (hrx : rxOk s.dev iface = true) (hv : vlanOk s.dev iface vlan = true) (htarget : ifV6 s.dev iface = target) (hne : target ≠ 0) :
    exec (.smtNeighborSolicit iface ⟨mac, vlan⟩ src target tm) s = .next { s with
      dev := send (.eth iface (ifTag s.dev iface) 1 mac (beBytes 16 target ++ beBytes 6 (ifMac s.dev iface) ++ beBytes 16 src)) (touchPort (.eth (iface / 8)) tm (tick tm s.dev)) } := by
  show execSmtNeighborSolicit iface ⟨mac, vlan⟩ src target tm s = _
  rw [execSmtNeighborSolicit, on_next, rxTagged_ok _ hrx hv, ifV6_touched, if_pos ⟨htarget, hne⟩, ifTag_touched, ifMac_touched]

/-- The answers given in the last second are counted first; the thousand-and-first echo is dropped. -/
theorem exec_icmpEcho {mac src dst : Nat} {body : List Byte} (hrx : rxOk s.dev iface = true) (hv : vlanOk s.dev iface vlan = true)
    (hown : if isV4 dst = true then ifV4 s.dev iface = dst % 2 ^ 32 ∧ dst % 2 ^ 32 ≠ 0 else ifV6 s.dev iface = dst ∧ dst ≠ 0) :
    ∃ echoes, exec (.smtIcmpEcho iface ⟨mac, vlan⟩ src dst body tm) s = .next { s with
      dev := if ((tgetD s.dev.smt.echoes iface []).filter fun a => decide (tm < a + 1000000000)).length < 1000
      then send (.eth iface (ifTag s.dev iface) 2 mac (beBytes 16 dst ++ beBytes 16 src ++ body))
        (onSmt (fun s => { s with echoes := echoes }) (touchPort (.eth (iface / 8)) tm (tick tm s.dev)))
      else dropOther (touchPort (.eth (iface / 8)) tm (tick tm s.dev)) } := by
  refine ⟨tset s.dev.smt.echoes iface (tm :: (tgetD s.dev.smt.echoes iface []).filter fun a => decide (tm < a + 1000000000)), ?_⟩
  have hown' : (if isV4 dst = true then decide (ifV4 s.dev iface = dst % 2 ^ 32) && decide (dst % 2 ^ 32 ≠ 0) else decide (ifV6 s.dev iface = dst) && decide (dst ≠ 0)) = true := by
    split at hown
    · next h4 => rw [if_pos h4, decide_eq_true hown.1, decide_eq_true hown.2, Bool.and_self]
    · next h6 => rw [if_neg h6, decide_eq_true hown.1, decide_eq_true hown.2, Bool.and_self]
  show execSmtIcmpEcho iface ⟨mac, vlan⟩ src dst body tm s = _
  rw [execSmtIcmpEcho, on_next, rxTagged_ok _ hrx hv]
  simp only [ifV4_touched, ifV6_touched, ifTag_touched, hown', Bool.true_and, touchPort_smt, tick_smt]
  split
  · next hn =>
    rw [if_pos (of_decide_eq_true hn)]
    rfl
  · next hn => rw [if_neg fun h => hn (decide_eq_true h)]

theorem exec_ethLinkStateChange {speed : Nat} (hup : mainUp s.dev = true) (hi : ifPresent s.dev iface = true)
    (hspeed : speed = 0 ∨ speed = 4 - fld (rd s.dev (0x20020 + 4 * (iface / 8))) 0 2) :
    exec (.ethLinkStateChange iface speed) s = .next { s with
      dev := onSmt (fun m => { m with links := tsetD m.links iface (if ethHeld s.dev (iface / 8) || inS2 s.dev then 0 else speed) 0 }) s.dev } := by
  have hsp : (decide (speed = 0) || decide (speed = 4 - fld (rd s.dev (0x20020 + 4 * (iface / 8))) 0 2)) = true := by simpa using hspeed
  show execEthLinkStateChange iface speed s = _
  rw [execEthLinkStateChange, on_next, hup, hi, hsp]
  rfl

theorem exec_ipv6LastWrite {path : Path} {v : Word} (hlt : iface < 64) (hreach : reachable s.dev path (0x2101C + 0x40 * iface) = true) (hi : ifPresent s.dev iface = true) :
    exec (.smtIfIpv6LastWrite path iface v) s = .next { s with dev := touchPath path (ipv6Last iface v.toNat s.dev) } := by
  show execSmtIfIpv6LastWrite path iface v s = _
  simp [execSmtIfIpv6LastWrite, onReg_next, hlt, hreach, hi]

/-- The last word makes the whole address, from the three stored ones and itself. -/
theorem ipv6Last_address (v : Nat) (h : d.rf.lock = false) : ∃ x, tget (ipv6Last iface v d).smt.ipv6 iface = some x ∧
    x.toNat = (((rd d (0x21010 + 0x40 * iface) * 2 ^ 32 + rd d (0x21014 + 0x40 * iface)) * 2 ^ 32 + rd d (0x21018 + 0x40 * iface)) * 2 ^ 32 + v) % 2 ^ 128 := by
  have hb : ∀ n, 0x21000 + 0x40 * iface + n = 0x21000 + n + 0x40 * iface := fun n => by omega
  simp only [ipv6Last, h, Bool.false_eq_true, if_false, onSmt_smt, tget_tset_self, hb]
  exact ⟨_, rfl, BitVec.toNat_ofNat _ _⟩

end

/-- Settles O26, by what each frame, link change and address write makes of the part. -/
theorem interfaceFramesComplete : Obligations.InterfaceFramesComplete := by
  unfold Obligations.InterfaceFramesComplete
  refine ⟨?arp, ?neighbor, ?echo, ?link, ?address⟩
  case arp => exact fun s iface mac spa tpa tm vlan hrx hv htpa hne => ⟨_, exec_arpRequest hrx hv htpa hne, rfl, rfl⟩
  case neighbor => exact fun s iface mac src target tm vlan hrx hv ht hne => ⟨_, exec_neighborSolicit hrx hv ht hne, rfl, rfl⟩
  case echo =>
    intro s iface mac src dst body tm vlan hrx hv hown
    obtain ⟨echoes, hx⟩ := exec_icmpEcho hrx hv hown
    refine ⟨_, hx, ?_⟩
    split
    · exact ⟨rfl, rfl⟩
    · exact ⟨rfl, rfl⟩
  case link =>
    intro s iface speed hup hi hspeed
    refine ⟨_, exec_ethLinkStateChange hup hi hspeed, rfl, fun h => ?_, fun hne hheld hs2 => ?_⟩
    · have hz : (if ethHeld s.dev (iface / 8) || inS2 s.dev then 0 else speed) = 0 := by
        obtain h | h | h := h <;> simp [h]
      simp only [onSmt_smt, hz, tsetD, if_true]
    · simp only [onSmt_smt, hheld, hs2, Bool.or_false, Bool.false_eq_true, if_false, tsetD, if_neg hne, tget_tset_self]
  case address =>
    intro s path iface v hlt hreach hi
    refine ⟨_, exec_ipv6LastWrite hlt hreach hi, fun hl => ?_, fun hl => ?_⟩
    · rw [ipv6Last, hl]
      exact touchPath_eq path s.dev
    · rw [touchPath_field (fun x : Dev => x.smt) fun _ _ => rfl]
      exact ipv6Last_address v.toNat hl
end Sys2Proof.Machine

namespace Sys2Proof.Machine
/-! ### What goes out (R137, R138, R140, R156) -/

section
variable {d : Dev} {i : Nat} {k : Conn}

theorem beBytes_length (n v : Nat) : (beBytes n v).length = n := by rw [beBytes, List.length_reverse, leBytes_length]

theorem smtHeader_length (ty flags kgen cid psn reqId addr rkey len seg : Nat) : (smtHeader ty flags kgen cid psn reqId addr rkey len seg).length = 32 := by
  simp [smtHeader, beBytes_length]

/-- Sealing adds a tag of 16 bytes at most. -/
theorem smtSeal_length (key : BitVec 256) (salt space psn : Nat) (hdr pay : List Byte) : (smtSeal key salt space psn hdr pay).length ≤ hdr.length + pay.length + 16 := by
  have htag : ∀ ks n a ct, (toBytes (gcmTag ks n a ct)).length ≤ 16 := fun ks n a ct => by
    simp only [toBytes, gcmTag, xorL, beNats, toNats, List.length_map, List.length_zipWith, beBytes_length]
    exact Nat.min_le_left _ _
  have hct : ∀ ks n, (toBytes (gcmCtr ks n (toNats pay))).length ≤ pay.length := fun ks n => by
    simp only [toBytes, gcmCtr, List.length_map, List.length_take]
    refine (Nat.min_le_left _ _).trans_eq ?_
    simp [toNats]
  simp only [smtSeal, gcmSeal, List.length_append]
  exact Nat.add_le_add (Nat.add_le_add_left (hct _ _) _) (htag _ _ _ _)

theorem ifMtu_least (d : Dev) (i : Nat) : 1280 ≤ ifMtu d i := by
  unfold ifMtu clampN
  split
  · exact Nat.le_refl _
  · split
    · decide
    · omega

/-- A packet that any MTU admits leaves an interface whose link is up. -/
theorem smtEmit_out {bytes : List Byte} (hup : ifUp d k.iface = true) (hlen : bytes.length ≤ 1000) : (smtEmit k bytes d).io.out.length = d.io.out.length + 1 := by
  have hmtu : ¬ ifMtu d k.iface < ipBytes k.peer bytes.length := by
    have := ifMtu_least d k.iface
    unfold ipBytes
    split <;> omega
  simp [smtEmit, hup, hmtu, send]

@[simp] theorem smtEmit_smt (k : Conn) (bytes : List Byte) (d : Dev) : (smtEmit k bytes d).smt = d.smt := by
  unfold smtEmit
  split <;> rfl

@[simp] theorem smtEmit_now (k : Conn) (bytes : List Byte) (d : Dev) : (smtEmit k bytes d).io.now = d.io.now := by
  unfold smtEmit
  split <;> rfl

@[simp] theorem rekeyDue_io (space old new : Nat) (c : Conn) (d : Dev) : (rekeyDue i space old new c d).io = d.io := by
  unfold rekeyDue
  split <;> rfl

/-- A count of seals may make a rekey due, and changes nothing else of its connection. -/
theorem rekeyDue_conn (space old new : Nat) (c : Conn) (hk : tget d.smt.conns i = some k) :
    ∃ due, tget (rekeyDue i space old new c d).smt.conns i = some { k with psnDue := due } := by
  unfold rekeyDue
  split
  · exact ⟨true, tget_tmod_self _ hk⟩
  · exact ⟨k.psnDue, hk⟩

section
variable {key : BitVec 256} (hk : tget d.smt.conns i = some k) (hkey : k.key = some key) (hlim : k.sealedCtl < sealLimit) (hst : k.st ≠ .failed ∧ k.st ≠ .shut)
include hk hkey hlim hst

/-- A control packet under a held key is sealed, counted and handed to the interface. -/
theorem smtControl_eq (ty flags : Nat) (pay : List Byte) : smtControl i ty flags pay d =
    rekeyDue i 3 k.sealedCtl (k.sealedCtl + 1) k (onConn i (fun k => { k with ctlTx := (k.ctlTx + 1) % 2 ^ 32, sealedCtl := k.sealedCtl + 1, lastTx := d.io.now })
      (smtEmit k (smtSeal key k.salt 3 k.ctlTx (smtHeader ty flags k.kgen (connId i k) k.ctlTx 0 0 0 pay.length 0) pay) d)) := by
  simp [smtControl, hk, hkey, Nat.not_le.2 hlim, hst]

theorem smtControl_conn (ty flags : Nat) (pay : List Byte) : ∃ due, tget (smtControl i ty flags pay d).smt.conns i =
    some { k with ctlTx := (k.ctlTx + 1) % 2 ^ 32, sealedCtl := k.sealedCtl + 1, lastTx := d.io.now, psnDue := due } := by
  rw [smtControl_eq hk hkey hlim hst]
  exact rekeyDue_conn _ _ _ _ (onConn_get_self (k := k) _ (by rw [smtEmit_smt, hk]))

theorem smtControl_out (ty flags : Nat) {pay : List Byte} (hup : ifUp d k.iface = true) (hlen : pay.length ≤ 100) :
    (smtControl i ty flags pay d).io.out.length = d.io.out.length + 1 := by
  rw [smtControl_eq hk hkey hlim hst, rekeyDue_io, onConn_io]
  refine smtEmit_out hup ((smtSeal_length _ _ _ _ _ _).trans ?_)
  rw [smtHeader_length]
  omega

theorem smtAck_out (hup : ifUp d k.iface = true) : (smtAck i d).io.out.length = d.io.out.length + 1 := by
  simp only [smtAck, hk, onConn_io]
  refine smtControl_out hk hkey hlim hst _ _ hup ?_
  simp [beBytes_length, sackBytes, leBytes_length]

end

theorem smtControl_now (ty flags : Nat) (pay : List Byte) : (smtControl i ty flags pay d).io.now = d.io.now := by
  unfold smtControl
  split
  · rfl
  · split
    · rfl
    · split
      · rfl
      · rw [rekeyDue_io, onConn_io, smtEmit_now]

/-- After an ACK nothing waits to be acknowledged; but for the control packet the rest of the connection stays. -/
theorem smtAck_conn (hk : tget d.smt.conns i = some k) : ∃ k', quietCtl k' = quietCtl k ∧ tget (smtAck i d).smt.conns i =
    some { k' with ackDue := 0, ackFrom := none, gapFrom := none, ceSeen := false, granted := grantOf k', told := grantOf k' } := by
  simp only [smtAck, hk]
  obtain ⟨k', hk', hv⟩ := (smtControl_traffic _ _ _ d).conn k hk
  exact ⟨k', hv, tget_tmod_self _ hk'⟩

end
end Sys2Proof.Machine

namespace Sys2Proof.Machine
/-! ### Packets accepted (R151, R156, R164) -/

section
variable {s : State} {d e : Dev} {p : RxPkt} {i t tm : Nat} {k k' k'' : Conn} {pay : List Byte}

/-- A connection after the seals that its client made have been counted. -/
def SealsCounted (k k' : Conn) : Prop := ∃ rx rxc old oldc due, k' = { k with rxSealed := rx, rxSealedCtl := rxc, oldSealed := old, oldSealedCtl := oldc, psnDue := due }

/-- Seals within the limit are counted, and the packet is not dropped. -/
theorem countSeal_within {space step : Nat} {current : Bool} {c : Conn} (hk : tget d.smt.conns i = some k)
    (hlim : (if current then (if space = 0 then c.rxSealed else c.rxSealedCtl) else if space = 0 then c.oldSealed else c.oldSealedCtl) + step ≤ sealLimit) (hstep : 1 ≤ step) :
    ∃ e k', countSeal i c space current step d = (false, e) ∧ still e = still d ∧ e.io.out = d.io.out ∧ tget e.smt.conns i = some k' ∧ SealsCounted k k' := by
  unfold countSeal
  extract_lets old new
  have hnew : ¬ sealLimit < new := by
    have hle : new ≤ old + step := by
      show old + (if old = 0 then 1 else step) ≤ old + step
      split <;> omega
    exact Nat.not_lt.2 (hle.trans hlim)
  rw [if_neg hnew]
  split
  · set f : Conn → Conn := fun k => if space = 0 then { k with rxSealed := new } else { k with rxSealedCtl := new } with hf
    obtain ⟨due, hdue⟩ := rekeyDue_conn space old new c (onConn_get_self f hk)
    refine ⟨_, _, rfl, (rekeyDue_traffic (v := quietCtl) (fun _ => rfl) space old new c (onConn i f d)).still, by rw [rekeyDue_io, onConn_io], hdue, ?_⟩
    rw [hf]
    dsimp only
    split
    · exact ⟨_, _, _, _, _, rfl⟩
    · exact ⟨_, _, _, _, _, rfl⟩
  · refine ⟨_, _, rfl, rfl, rfl, onConn_get_self _ hk, ?_⟩
    split
    · exact ⟨_, _, _, _, _, rfl⟩
    · exact ⟨_, _, _, _, _, rfl⟩

/-- A connection that took a packet: what was heard of it, and the seals counted. -/
def Accepted (t : Nat) (k k'' : Conn) : Prop := ∃ k', Heard t k k' ∧ SealsCounted k' k''

/-- A control packet in its turn has its number noted, and its type decides the rest. -/
theorem acceptControl_later {h : RxHdr} (hk : tget d.smt.conns i = some k) (hne : (h.psn + 2 ^ 32 - k.ctlRx) % 2 ^ 32 ≠ 0) (hlt : (h.psn + 2 ^ 32 - k.ctlRx) % 2 ^ 32 < 2 ^ 31)
    (hlim : (if h.kgen = k.kgen then k.rxSealedCtl else k.oldSealedCtl) + (h.psn + 2 ^ 32 - k.ctlRx) % 2 ^ 32 ≤ sealLimit) :
    ∃ e k', still e = still d ∧ e.io.out = d.io.out ∧ tget e.smt.conns i = some { k' with ctlRx := h.psn } ∧ SealsCounted k k' ∧
      acceptControl i k h pay t d = if h.ty = 5 then ackRx i pay t e
        else if h.ty = 6 then smtPump i (onConn i (fun k => { k with limit := beAt pay 0 4 }) e) else smtAck i e := by
  generalize hstep : (h.psn + 2 ^ 32 - k.ctlRx) % 2 ^ 32 = step at hne hlt hlim
  obtain ⟨e, k', hc, hst, hout, hk', hs⟩ := countSeal_within (space := 2) (step := step) (current := decide (h.kgen = k.kgen)) (c := k) hk
    (by simpa using hlim) (Nat.one_le_iff_ne_zero.2 hne)
  refine ⟨onConn i (fun k => { k with ctlRx := h.psn }) e, k', hst, hout, onConn_get_self _ hk', hs, ?_⟩
  have hin : ¬ (step = 0 ∨ 2 ^ 31 ≤ step) := fun hor => hor.elim hne (Nat.not_le.2 hlt)
  simp only [acceptControl, hstep, hc, if_neg hin]
  rfl

/-- What a verified control packet in its turn comes to. -/
theorem rxTyped_control {ty : Nat} (h : Verified d p ty i k pay) (hl : LaterControl p k) (hty : ty = 5 ∨ ty = 6 ∨ ty = 7) :
    ∃ e k', still e = still d ∧ e.io.out = d.io.out ∧ Accepted t k k' ∧ tget e.smt.conns i = some { k' with ctlRx := (rxHdr p.bytes).psn } ∧
      rxTyped ty p t d = if ty = 5 then ackRx i pay t e
        else if ty = 6 then smtPump i (onConn i (fun k => { k with limit := beAt pay 0 4 }) e) else smtAck i e := by
  obtain ⟨e, k', he, heq⟩ := rxTyped_hears (t := t) h
  have hdata : ¬ (ty = 1 ∨ ty = 3 ∨ ty = 8) := by omega
  rw [if_neg hdata, if_pos hty] at heq
  obtain ⟨hne, hlt, hlim⟩ : LaterControl p k' := by
    obtain ⟨_, _, _, _, _, rfl⟩ := he.heard
    exact hl
  obtain ⟨e', k'', hst, hout, hk', hs, hacc⟩ := acceptControl_later (pay := pay) (t := t) he.conn hne hlt hlim
  rw [h.type] at hacc
  exact ⟨e', k'', hst.trans he.still, hout.trans he.out, ⟨k', he.heard, hs⟩, hk', heq.trans hacc⟩

/-! ### An ACK (R78, R153, R158) -/

/-- A completion that becomes visible leaves the Smiast engine and the maps. -/
theorem counted_leaves (cq t : Nat) (d : Dev) : (counted cq t d).smt = d.smt ∧ (counted cq t d).maps = d.maps := by
  have hirq : ∀ d : Dev, (raiseIrq cq d).smt = d.smt ∧ (raiseIrq cq d).maps = d.maps := fun d => by
    unfold raiseIrq
    split
    · next r _ =>
      split
      · next f _ =>
        obtain ⟨pcx, l, hr⟩ := raiseMsix_eq f r.vector (onCq cq (fun r => { r with sinceIrq := 0, firstAt := none }) d)
        rw [hr]
        exact ⟨rfl, rfl⟩
      · exact ⟨rfl, rfl⟩
    · exact ⟨rfl, rfl⟩
  have hco : ∀ d : Dev, (coalesce cq t d).smt = d.smt ∧ (coalesce cq t d).maps = d.maps := fun d => by
    unfold coalesce
    split
    · dsimp only
      split
      · exact hirq _
      · exact ⟨rfl, rfl⟩
    · exact ⟨rfl, rfl⟩
  unfold counted
  split
  · next r _ =>
    obtain ⟨cmds, hw⟩ := satisfyWaits_eq cq (r.count + 1) (coalesce cq t (onCq cq (fun r => { r with count := r.count + 1 }) d))
    rw [hw]
    exact hco _
  · exact ⟨rfl, rfl⟩

theorem counteds_leave (l : List Nat) (t : Nat) (d : Dev) : (forAll l (fun cq => counted cq t) d).smt = d.smt ∧ (forAll l (fun cq => counted cq t) d).maps = d.maps :=
  forAll_keeps (P := fun e => e.smt = d.smt ∧ e.maps = d.maps) l d ⟨rfl, rfl⟩ fun cq _ e h => ⟨(counted_leaves cq t e).1.trans h.1, (counted_leaves cq t e).2.trans h.2⟩

/-- An unacknowledged packet sent again. -/
def again (psn t : Nat) (x : TxPkt) : TxPkt := if x.psn = psn then { x with retries := x.retries + 1, rto := min (2 * x.rto) 1000000, timerFrom := t, retxAt := some t } else x

theorem smtEmit_leaves (k : Conn) (bytes : List Byte) (d : Dev) : (smtEmit k bytes d).qm = d.qm ∧ (smtEmit k bytes d).maps = d.maps :=
  have h := (smtEmit_traffic (v := quietCtl) (i := 0) k bytes d).still
  ⟨still_qm h, still_maps h⟩

/-- A packet whose key is held goes again, and is counted. -/
theorem retransmit_spec {x : TxPkt} {key : BitVec 256} (hk : tget d.smt.conns i = some k) (hkey : keyOf k x.kgen = some key) :
    (retransmit i x t d).smt = { d.smt with conns := tmod d.smt.conns i fun k => { k with lastTx := t, unacked := k.unacked.map (again x.psn t) }, retx := satInc 32 d.smt.retx } ∧
    (retransmit i x t d).qm = d.qm ∧ (retransmit i x t d).maps = d.maps := by
  obtain ⟨hqm, hmaps⟩ := smtEmit_leaves k (smtSeal key k.salt 1 x.psn x.hdr x.pay) d
  simp only [retransmit, hk, hkey, onSmt_smt, onSmt_qm, onSmt_maps, onConn, touchPort_qm, touchPort_maps, touchPort_smt, smtEmit_smt, hqm, hmaps, and_true]
  rfl

/-- Without a previous key there is none to drain. -/
theorem drainCheck_none (hk : tget d.smt.conns i = some k) (hp : k.prevKey = none) : drainCheck i t d = d := by simp [drainCheck, hk, hp]

/-- Freed buffers let other connections send; one that has nothing queued stays. -/
theorem smtPumpAll_idle (hk : tget d.smt.conns i = some k) (hq : k.queue = []) : still (smtPumpAll d) = still d ∧ tget (smtPumpAll d).smt.conns i = some k := by
  refine forAll_keeps (P := fun e => still e = still d ∧ tget e.smt.conns i = some k) _ d ⟨rfl, hk⟩ fun j _ e ⟨hs, he⟩ => ?_
  by_cases hj : i = j
  · subst hj
    have hid : smtPump i e = e := by simp [smtPump, he, hq]
    rw [hid]
    exact ⟨hs, he⟩
  · exact ⟨(smtPump_traffic e).still.trans hs, ((smtPump_traffic e).others i hj).trans he⟩

/-- Does an ACK cover an unacknowledged packet, and how many above it does it show as received? -/
def ackCovers (pay : List Byte) (x : TxPkt) : Bool := covers (beAt pay 0 4) (leNat (slice pay 4 32)) x.psn
def ackAbove (pay : List Byte) (x : TxPkt) : Nat := higher (beAt pay 0 4) (leNat (slice pay 4 32)) x.psn

/-- The part once an ACK's packets have left their buffers and the completions they carried have been counted. -/
def acked (i : Nat) (pay : List Byte) (t : Nat) (k : Conn) (d : Dev) : Dev :=
  forAll ((k.unacked.filter (ackCovers pay)).filterMap (·.completes)) (fun cq => counted cq t)
    (freeBuffers (fun u => (k.unacked.filter (ackCovers pay)).any fun p => decide (u = .packet i p.ticket))
      (onConn i (fun c => { c with unacked := k.unacked.filter fun p => !ackCovers pay p, limit := beAt pay 36 4 }) d))

theorem acked_leaves (hk : tget d.smt.conns i = some k) : (acked i pay t k d).maps = d.maps ∧ (acked i pay t k d).smt.retx = d.smt.retx ∧
    tget (acked i pay t k d).smt.conns i =
      some { k with unacked := k.unacked.filter fun p => !ackCovers pay p, limit := beAt pay 36 4 } := by
  obtain ⟨hsmt, hmaps⟩ := counteds_leave ((k.unacked.filter (ackCovers pay)).filterMap (·.completes)) t
    (freeBuffers (fun u => (k.unacked.filter (ackCovers pay)).any fun p => decide (u = .packet i p.ticket))
      (onConn i (fun c => { c with unacked := k.unacked.filter fun p => !ackCovers pay p, limit := beAt pay 36 4 }) d))
  have hf := freeBuffers_traffic (v := id) (i := i) (fun u => (k.unacked.filter (ackCovers pay)).any fun p => decide (u = .packet i p.ticket))
    (onConn i (fun c => { c with unacked := k.unacked.filter fun p => !ackCovers pay p, limit := beAt pay 36 4 }) d)
  obtain ⟨k', hk', rfl⟩ := hf.conn _ (onConn_get_self _ hk)
  rw [acked, hsmt, hmaps]
  exact ⟨still_maps hf.still, still_retx hf.still, hk'⟩

/-- What an ACK comes to on a connection that no CONN_DELETE waits for. -/
theorem ackRx_eq (hk : tget d.smt.conns i = some k) (hdel : k.deleting = none) : ackRx i pay t d =
    smtPumpAll (drainCheck i t (forAll ((k.unacked.filter fun p => !ackCovers pay p).filter fun p =>
      decide (3 ≤ ackAbove pay p) && !p.retxAt.any fun a => decide (t < a + rtoInit (acked i pay t k d)))
      (fun p => retransmit i p t) (acked i pay t k d))) := by
  simp only [ackRx, hk, hdel]
  rfl

/-- An ACK that shows no gap of three sends nothing again. -/
theorem ackRx_noGap (hk : tget d.smt.conns i = some k) (hdel : k.deleting = none) (hprev : k.prevKey = none) (hq : k.queue = [])
    (hgap : ∀ x ∈ k.unacked, ackCovers pay x = false → ackAbove pay x < 3) :
    (ackRx i pay t d).maps = d.maps ∧ tget (ackRx i pay t d).smt.conns i =
      some { k with unacked := k.unacked.filter fun p => !ackCovers pay p, limit := beAt pay 36 4 } := by
  obtain ⟨hmaps, -, hc⟩ := acked_leaves (pay := pay) (t := t) hk
  have hnone : ((k.unacked.filter fun p => !ackCovers pay p).filter fun p =>
      decide (3 ≤ ackAbove pay p) && !p.retxAt.any fun a => decide (t < a + rtoInit (acked i pay t k d))) = [] := by
    refine List.filter_eq_nil_iff.2 fun x hx => ?_
    obtain ⟨hx, hcov⟩ := List.mem_filter.1 hx
    simp [Nat.not_le.2 (hgap x hx (by simpa using hcov))]
  rw [ackRx_eq hk hdel, hnone, forAll_nil, drainCheck_none hc hprev]
  obtain ⟨hst, hc'⟩ := smtPumpAll_idle hc hq
  exact ⟨(still_maps hst).trans hmaps, hc'⟩

/-- The one packet that an ACK shows missing below three received ones goes again, unless it went again just before. -/
theorem ackRx_gap {x : TxPkt} {key : BitVec 256} (hk : tget d.smt.conns i = some k) (hdel : k.deleting = none) (hprev : k.prevKey = none) (hq : k.queue = [])
    (hx : k.unacked = [x]) (hcov : ackCovers pay x = false) (hgap : 3 ≤ ackAbove pay x)
    (hfirst : x.retxAt = none) (hkey : keyOf k x.kgen = some key) :
    (ackRx i pay t d).smt.retx = satInc 32 d.smt.retx ∧ ∃ k', tget (ackRx i pay t d).smt.conns i = some k' ∧
      k'.unacked = [{ x with retries := x.retries + 1, rto := min (2 * x.rto) 1000000, timerFrom := t, retxAt := some t }] := by
  obtain ⟨-, hretx, hc⟩ := acked_leaves (pay := pay) (t := t) hk
  have hleft : (k.unacked.filter fun p => !ackCovers pay p) = [x] := by simp [hx, hcov]
  have hone : ([x].filter fun p => decide (3 ≤ ackAbove pay p) &&
      !p.retxAt.any fun a => decide (t < a + rtoInit (acked i pay t k d))) = [x] := by simp [hgap, hfirst]
  rw [hleft] at hc
  rw [ackRx_eq hk hdel, hleft, hone, forAll_cons, forAll_nil]
  obtain ⟨hsmt, -, -⟩ := retransmit_spec (x := x) (t := t) hc hkey
  have hc' : tget (retransmit i x t (acked i pay t k d)).smt.conns i = some { k with limit := beAt pay 36 4, lastTx := t, unacked := [x].map (again x.psn t) } := by
    rw [hsmt]
    exact tget_tmod_self _ hc
  rw [drainCheck_none hc' hprev]
  obtain ⟨hst, hp⟩ := smtPumpAll_idle hc' hq
  refine ⟨(still_retx hst).trans ?_, _, hp, ?_⟩
  · rw [hsmt, hretx]
  · simp [again]

end

/-- Settles O22: a control packet in its turn comes to its own effect (`rxTyped_control`): an ACK's by its buffers, a CRED's by sending alone, a KEEP's by the ACK that answers it. -/
theorem smiastControlPacketsComplete : Obligations.SmiastControlPacketsComplete := by
  unfold Obligations.SmiastControlPacketsComplete
  refine ⟨?ack, ?gap, ?cred, ?keep⟩
  case ack =>
    intro s p tm i k pay h hl hq hprev hdel hgap
    obtain ⟨e, k', hst, -, ⟨_, ⟨_, _, _, _, _, rfl⟩, ⟨_, _, _, _, _, rfl⟩⟩, hk, hx⟩ := rxTyped_control (t := tm) h hl (.inl rfl)
    rw [if_pos rfl] at hx
    obtain ⟨hmaps, hc⟩ := ackRx_noGap (pay := pay) (t := tm) hk hdel hprev hq hgap
    refine ⟨{ s with dev := ackRx i pay tm e }, _, on_eq hx, hc, rfl, rfl, rfl, rfl, hmaps.trans (still_maps hst)⟩
  case gap =>
    intro s p tm i k pay x key h hl hq hprev hdel hx hcov hgap hfirst hkey
    obtain ⟨e, k', hst, -, ⟨_, ⟨_, _, _, _, _, rfl⟩, ⟨_, _, _, _, _, rfl⟩⟩, hk, heq⟩ := rxTyped_control (t := tm) h hl (.inl rfl)
    rw [if_pos rfl] at heq
    obtain ⟨hretx, k', hc, hun⟩ := ackRx_gap (pay := pay) (t := tm) hk hdel hprev hq hx hcov hgap hfirst hkey
    refine ⟨{ s with dev := ackRx i pay tm e }, k', on_eq heq, hc, hun, ?_⟩
    rw [← still_retx hst]
    exact hretx
  case cred =>
    intro s p tm i k pay h hl
    obtain ⟨e, k', hst, -, ⟨_, ⟨_, _, _, _, _, rfl⟩, ⟨_, _, _, _, _, rfl⟩⟩, hk, hx⟩ := rxTyped_control (t := tm) h hl (.inr (.inl rfl))
    rw [if_neg (by decide), if_pos rfl] at hx
    have hp := smtPump_traffic (i := i) (onConn i (fun k => { k with limit := beAt pay 0 4 }) e)
    obtain ⟨k', hk', hv⟩ := hp.conn _ (onConn_get_self _ hk)
    exact ⟨{ s with dev := smtPump i (onConn i (fun k => { k with limit := beAt pay 0 4 }) e) }, k', on_eq hx, hk', (congrArg Conn.limit hv :),
      (congrArg Conn.ctlRx hv :), (congrArg Conn.lastRx hv :), (still_maps hp.still).trans (still_maps hst), (still_qm hp.still).trans (still_qm hst)⟩
  case keep =>
    intro s p tm i k pay h hl
    obtain ⟨e, k', hst, hout, ⟨_, ⟨_, _, _, _, _, rfl⟩, ⟨_, _, _, _, _, rfl⟩⟩, hk, hx⟩ := rxTyped_control (t := tm) h hl (.inr (.inr rfl))
    rw [if_neg (by decide), if_neg (by decide)] at hx
    obtain ⟨k', hv, hk'⟩ := smtAck_conn hk
    have ha := smtAck_traffic (i := i) e
    refine ⟨{ s with dev := smtAck i e }, _, on_eq hx, hk', (congrArg Conn.ctlRx hv :), (congrArg Conn.lastRx hv :), rfl, rfl,
      (congrArg Conn.unacked hv :), (still_maps ha.still).trans (still_maps hst), (still_qm ha.still).trans (still_qm hst), fun hup hkey hlim => ?_⟩
    obtain ⟨key, hkey⟩ := Option.isSome_iff_exists.1 hkey
    rw [← hout]
    refine smtAck_out hk hkey hlim ?_ ?_
    · exact ⟨by simp [h.isOpen], by simp [h.isOpen]⟩
    · rw [ifUp, still_links hst]
      exact hup
end Sys2Proof.Machine

namespace Sys2Proof.Machine
/-! ### A connection's timers (R129, R152-R154, R157, R160, R162) -/

section
variable {s : State} {d : Dev} {i t tm : Nat} {k c : Conn}

/-- A timer that runs has its effect once the time has been told. -/
theorem onTimer_eq {f : Conn → Dev → Dev} (hk : tget d.smt.conns i = some k) (ht : timersRun d k = true) : onTimer i t f d = f k (tick t d) := by
  rw [onTimer, hk, withSome_some, ht, onlyIf_true]

/-! The limits are registers, which the time told leaves. -/

theorem retryMax_tick : retryMax (tick t d) = retryMax d := by simp only [retryMax, rd_congr (tick_rf d t)]
theorem ackDelay_tick : ackDelay (tick t d) = ackDelay d := by simp only [ackDelay, rd_congr (tick_rf d t)]
theorem ecnHold_tick : ecnHold (tick t d) = ecnHold d := by simp only [ecnHold, rd_congr (tick_rf d t)]
theorem winOf_tick : winOf (tick t d) = winOf d := by simp only [winOf, rd_congr (tick_rf d t)]

/-! #### Packets sent again (R153) -/

/-- Packets whose keys are held go again one after another, which leaves the rest of their connection but the time of sending. -/
theorem retransmits_spec (t : Nat) : ∀ (l : List TxPkt) {d : Dev} {k : Conn}, tget d.smt.conns i = some k → (∀ x ∈ l, ∃ key, keyOf k x.kgen = some key) →
    (forAll l (fun x => retransmit i x t) d).qm = d.qm ∧ (forAll l (fun x => retransmit i x t) d).maps = d.maps ∧
    (∀ j, j ≠ i → tget (forAll l (fun x => retransmit i x t) d).smt.conns j = tget d.smt.conns j) ∧
    ∃ last, tget (forAll l (fun x => retransmit i x t) d).smt.conns i = some { k with lastTx := last, unacked := k.unacked.map fun x => l.foldl (fun x p => again p.psn t x) x }
  | [], _, k, hk, _ => ⟨rfl, rfl, fun _ _ => rfl, k.lastTx, by simpa using hk⟩
  | x :: l, d, k, hk, hkeys => by
    obtain ⟨key, hkey⟩ := hkeys x (by simp)
    obtain ⟨hsmt, hqm, hmaps⟩ := retransmit_spec (t := t) hk hkey
    have hk' : tget (retransmit i x t d).smt.conns i = some { k with lastTx := t, unacked := k.unacked.map (again x.psn t) } := by
      rw [hsmt]
      exact tget_tmod_self _ hk
    obtain ⟨hqm', hmaps', hother, last, hc⟩ := retransmits_spec t l hk' fun y hy => hkeys y (by simp [hy])
    refine ⟨hqm'.trans hqm, hmaps'.trans hmaps, fun j hj => (hother j hj).trans ?_, last, hc.trans ?_⟩
    · rw [hsmt]
      exact tget_tmod_ne _ _ hj
    · simp [List.map_map, Function.comp_def]

theorem again_psn (n t : Nat) (x : TxPkt) : (again n t x).psn = x.psn := by
  unfold again
  split <;> rfl

/-- Among packets of different numbers, one goes again once when its own number is among them, and stays otherwise. -/
theorem agains_eq (t : Nat) : ∀ (l : List TxPkt) (x : TxPkt), (l.map (·.psn)).Nodup →
    l.foldl (fun x p => again p.psn t x) x = if x.psn ∈ l.map (·.psn) then again x.psn t x else x
  | [], x, _ => by simp
  | p :: l, x, hnd => by
    obtain ⟨hp, hnd⟩ := List.nodup_cons.1 (List.map_cons ▸ hnd)
    rw [List.foldl_cons, agains_eq t l _ hnd, again_psn]
    by_cases hx : x.psn = p.psn
    · have hout : x.psn ∉ l.map (·.psn) := by simpa [hx] using hp
      rw [if_neg hout, if_pos (by simp [hx]), hx]
    · have hsame : again p.psn t x = x := if_neg hx
      simp [hsame, hx]

/-- All late packets go again and the others stay. -/
theorem agains_late {l : List TxPkt} (hnd : (l.map (·.psn)).Nodup) (late : TxPkt → Bool) (t : Nat) :
    (l.map fun x => (l.filter late).foldl (fun x p => again p.psn t x) x) =
      l.map fun x => if late x then { x with retries := x.retries + 1, rto := min (2 * x.rto) 1000000, timerFrom := t, retxAt := some t } else x := by
  refine List.map_congr_left fun x hx => ?_
  have hin : x.psn ∈ (l.filter late).map (·.psn) ↔ late x = true := by
    constructor
    · intro h
      obtain ⟨y, hy, hxy⟩ := List.mem_map.1 h
      obtain ⟨hy, hl⟩ := List.mem_filter.1 hy
      rw [← List.inj_on_of_nodup_map hnd hy hx hxy]
      exact hl
    · exact fun h => List.mem_map.2 ⟨x, List.mem_filter.2 ⟨hx, h⟩, rfl⟩
  rw [agains_eq t _ _ (hnd.sublist (List.filter_sublist.map _)), again, if_pos rfl]
  simp only [hin]

/-! #### A connection that sends and fetches no more -/

theorem freeBuffers_smt (p : BufUser → Bool) (d : Dev) : (freeBuffers p d).smt = d.smt := by
  refine forAll_keeps (P := fun e => e.smt = d.smt) _ _ rfl fun g _ e he => ?_
  rw [← he, returnBuffer]
  (repeat' split) <;> rfl

theorem freeBuffers_maps (p : BufUser → Bool) (d : Dev) : (freeBuffers p d).maps = d.maps := still_maps (freeBuffers_traffic (v := id) (i := 0) p d).still

/-- What fails with a read of remote memory is the commands' and the rings' alone. -/
theorem failUse_leaves (u : ReqUse) (d : Dev) : (failUse u d).smt = d.smt ∧ (failUse u d).maps = d.maps := by
  have hcmd : ∀ id : Nat, (finishField id 0xFE (cancel id d)).smt = d.smt ∧ (finishField id 0xFE (cancel id d)).maps = d.maps := fun id =>
    ⟨freeBuffers_smt _ _, freeBuffers_maps _ _⟩
  have hfail : ∀ id : Nat, (failUse (.list id) d).smt = d.smt ∧ (failUse (.list id) d).maps = d.maps := fun id => by
    unfold failUse
    dsimp only
    split
    · split
      · exact ⟨rfl, rfl⟩
      · exact hcmd id
    · exact ⟨rfl, rfl⟩
  cases u with
  | descs sq from_ n =>
    unfold failUse
    dsimp only
    split
    · next r _ =>
      obtain ⟨sqs, cmds, he⟩ := endDeletion_eq sq (onCq r.cq (fun q => { q with reserved := q.reserved - n }) d)
      rw [he]
      exact ⟨rfl, rfl⟩
    · exact ⟨rfl, rfl⟩
  | data id _ => exact hfail id
  | tags id _ _ => exact hfail id
  | list id => exact hfail id
  | params id => exact hfail id

theorem failUses_leave (l : List ReqUse) (d : Dev) : (forAll l failUse d).smt = d.smt ∧ (forAll l failUse d).maps = d.maps :=
  forAll_keeps (P := fun e => e.smt = d.smt ∧ e.maps = d.maps) l d ⟨rfl, rfl⟩ fun u _ e h => ⟨(failUse_leaves u e).1.trans h.1, (failUse_leaves u e).2.trans h.2⟩

/-- A quiet connection holds nothing that it would send or fetch. -/
theorem quiet_conn (hc : tget d.smt.conns i = some c) (k : Conn) : tget (quiet i k d).smt.conns i =
    some { c with unacked := [], queue := [], reqs := [], reqQueue := [], ackFrom := none, gapFrom := none } := by
  rw [quiet, (failUses_leave _ _).1, freeBuffers_smt]
  exact onConn_get_self _ hc

theorem smtFail_spec (hk : tget d.smt.conns i = some k) (reason : Nat) : ⟨.smtFail, [connId i k, reason]⟩ ∈ (smtFail i k reason d).sil.inboxMain ∧
    ∃ k', tget (smtFail i k reason d).smt.conns i = some k' ∧ k'.st = .failed ∧ k'.reason = reason ∧ k'.unacked = [] ∧ k'.queue = [] :=
  ⟨by simp [smtFail], _, quiet_conn (onConn_get_self _ hk) k, rfl, rfl, rfl, rfl⟩

theorem smtShut_spec (hk : tget d.smt.conns i = some k) : ⟨.smtClose, [connId i k]⟩ ∈ (smtShut i k d).sil.inboxMain ∧
    ∃ k', tget (smtShut i k d).smt.conns i = some k' ∧ k'.st = .shut ∧ k'.unacked = [] ∧ k'.queue = [] :=
  ⟨by simp [smtShut], _, quiet_conn (onConn_get_self _ hk) k, rfl, rfl, rfl⟩

/-! #### The previous key (R162) -/

/-- The previous key goes, and no CONN_KEY waited for that: what is unacknowledged is sealed anew. -/
theorem dropPrev_spec (hk : tget d.smt.conns i = some k) (hw : k.waitKey = none) : (dropPrev i t d).qm = d.qm ∧ ∃ due, tget (dropPrev i t d).smt.conns i = some { k with
    prevKey := none, unacked := k.unacked.map (reseal k), sealedTx := k.sealedTx + (k.unacked.filter fun p => decide (p.kgen ≠ k.kgen)).length, psnDue := due } := by
  unfold dropPrev
  rw [hk]
  dsimp only
  split
  · next w hw' => cases hw.symm.trans hw'
  · exact ⟨still_qm (rekeyDue_traffic (v := quietCtl) (fun _ => rfl) _ _ _ _ _).still, rekeyDue_conn (k := { k with
      prevKey := none, unacked := k.unacked.map (reseal k), sealedTx := k.sealedTx + (k.unacked.filter fun p => decide (p.kgen ≠ k.kgen)).length }) _ _ _ _ (onConn_get_self _ hk)⟩

/-! #### What each timer comes to -/

section
variable (hk : tget s.dev.smt.conns i = some k) (ht : timersRun s.dev k = true)
include hk ht

theorem exec_rtoExpiry (hst : k.st = .isOpen ∨ k.st = .closing)
    (hlate : ∀ x ∈ k.unacked, x.timerFrom + x.rto ≤ tm → x.retries < retryMax s.dev) :
    exec (.smtRtoExpiry i tm) s = .next { s with
      dev := forAll (k.unacked.filter fun p => decide (p.timerFrom + p.rto ≤ tm)) (fun p => retransmit i p tm) (tick tm s.dev) } := by
  have hlive : ¬ (k.st ≠ .isOpen ∧ k.st ≠ .closing) := fun h => hst.elim h.1 h.2
  have hlate' : ∀ x ∈ k.unacked.filter fun p => decide (p.timerFrom + p.rto ≤ tm), x.retries < retryMax s.dev := fun x hx => by
    obtain ⟨hx, hl⟩ := List.mem_filter.1 hx
    exact hlate x hx (of_decide_eq_true hl)
  have hno : ¬ (k.st = .isOpen ∧ ((k.unacked.filter fun p => decide (p.timerFrom + p.rto ≤ tm)).any fun p => decide (retryMax s.dev ≤ p.retries)) = true) := by
    rintro ⟨-, h⟩
    obtain ⟨x, hx, hr⟩ := List.any_eq_true.1 h
    exact absurd (of_decide_eq_true hr) (Nat.not_le.2 (hlate' x hx))
  have hall : ((k.unacked.filter fun p => decide (p.timerFrom + p.rto ≤ tm)).filter fun p => decide (p.retries < retryMax s.dev)) =
      k.unacked.filter fun p => decide (p.timerFrom + p.rto ≤ tm) := List.filter_eq_self.2 fun x hx => decide_eq_true (hlate' x hx)
  refine on_eq ((onTimer_eq hk ht).trans ?_)
  simp only [retryMax_tick, if_neg hlive, if_neg hno, hall]

theorem exec_rtoLimit {x : TxPkt} (hst : k.st = .isOpen) (hx : x ∈ k.unacked) (hlate : x.timerFrom + x.rto ≤ tm) (hmax : retryMax s.dev ≤ x.retries) :
    exec (.smtRtoExpiry i tm) s = .next { s with dev := smtFail i k 1 (tick tm s.dev) } := by
  have hany : ((k.unacked.filter fun p => decide (p.timerFrom + p.rto ≤ tm)).any fun p => decide (retryMax s.dev ≤ p.retries)) = true :=
    List.any_eq_true.2 ⟨x, List.mem_filter.2 ⟨hx, decide_eq_true hlate⟩, decide_eq_true hmax⟩
  refine on_eq ((onTimer_eq hk ht).trans ?_)
  simp [retryMax_tick, hst, hany]

theorem exec_deadTimer (hst : k.st = .isOpen) (hon : fld (rd s.dev 0x2000C) 16 8 ≠ 0) (hdead : k.lastRx + 1000000000 * fld (rd s.dev 0x2000C) 16 8 ≤ tm) :
    exec (.smtDeadTimer i tm) s = .next { s with dev := smtFail i k 2 (tick tm s.dev) } := by
  show execSmtDeadTimer i tm s = _
  rw [execSmtDeadTimer, on_next, onTimer_eq hk ht]
  dsimp only
  rw [rd_congr (tick_rf s.dev tm), decide_eq_true hst, decide_eq_true hon, decide_eq_true hdead, Bool.and_true, Bool.and_true, onlyIf_true]

theorem exec_ackDelayTimer {a : Nat} (ha : k.ackFrom = some a) (hdue : a + ackDelay s.dev ≤ tm) :
    exec (.smtAckDelayTimer i tm) s = .next { s with dev := smtAck i (tick tm s.dev) } := by
  refine on_eq ((onTimer_eq hk ht).trans ?_)
  simp [ackDelay_tick, ha, hdue]

theorem exec_keepIdle (hst : k.st = .isOpen) (hidle : k.lastTx + 1000000 * zeroAsOne (fld (rd s.dev 0x2000C) 0 16) ≤ tm) :
    exec (.smtKeepIdle i tm) s = .next { s with dev := smtControl i 7 0 [] (tick tm s.dev) } := by
  refine on_eq ((onTimer_eq hk ht).trans ?_)
  simp [rd_congr (tick_rf s.dev tm), hst, hidle]

theorem exec_ecnHold (hst : k.st = .isOpen) (hdue : k.ecnAt + ecnHold s.dev ≤ tm) :
    exec (.smtEcnHold i tm) s = .next { s with
      dev := smtReqPump i (onConn i (fun k => { k with ecnAt := tm, window := if k.ceAt.any (fun a => decide (k.ecnAt ≤ a)) then k.window else min (winOf s.dev) (k.window + 1) }) (tick tm s.dev)) } := by
  refine on_eq ((onTimer_eq hk ht).trans ?_)
  simp only [ecnHold_tick, winOf_tick, hst, hdue, decide_true, Bool.and_self, onlyIf_true]

theorem exec_keyDrainTimer {key : BitVec 256} {a : Nat} (hp : k.prevKey = some (key, a)) (hdue : a + 2000000 ≤ tm) :
    exec (.smtKeyDrainTimer i tm) s = .next { s with dev := dropPrev i tm (tick tm s.dev) } := by
  show execSmtKeyDrainTimer i tm s = _
  rw [execSmtKeyDrainTimer, on_next, onTimer_eq hk ht, hp, Option.any_some, decide_eq_true hdue, onlyIf_true]

theorem exec_closeTimer (hst : k.st = .closing) (hdel : k.deleting = none)
    (hdue : (k.closeAt.any fun a => decide (a + 1000000 ≤ tm)) = true ∨ (k.unacked = [] ∧ k.queue = [])) :
    exec (.smtCloseTimer i tm) s = .next { s with dev := smtShut i k (tick tm s.dev) } := by
  refine on_eq ((onTimer_eq hk ht).trans ?_)
  simp only [hdel]
  exact if_pos ⟨hst, hdue⟩

end
end

/-- Settles O24: late packets go again in turn (`retransmits_spec`, `agains_late`); the other timers by what each comes to. -/
theorem smiastTimersAndRetransmissionComplete : Obligations.SmiastTimersAndRetransmissionComplete := by
  unfold Obligations.SmiastTimersAndRetransmissionComplete
  refine ⟨⟨?again, ?limit, ?dead⟩, ?ack, ?keep, ?ecn, ?drain, ?close⟩
  case again =>
    intro s i tm k hk ht hst hnd hlate
    obtain ⟨hqm, hmaps, hother, last, hc⟩ := retransmits_spec tm (k.unacked.filter fun p => decide (p.timerFrom + p.rto ≤ tm)) (d := tick tm s.dev) hk fun x hx => by
      obtain ⟨hx, hl⟩ := List.mem_filter.1 hx
      exact (hlate x hx (of_decide_eq_true hl)).2
    refine ⟨_, _, exec_rtoExpiry hk ht hst fun x hx hl => (hlate x hx hl).1, hc, ?_, rfl, rfl, hqm, hmaps, hother⟩
    simpa using agains_late hnd (fun p => decide (p.timerFrom + p.rto ≤ tm)) tm
  case limit =>
    intro s i tm k x hk ht hst hx hlate hmax
    obtain ⟨hev, k', hc, hfailed, hreason, hun, hq⟩ := smtFail_spec (d := tick tm s.dev) hk 1
    exact ⟨_, k', exec_rtoLimit hk ht hst hx hlate hmax, hc, hfailed, hreason, hun, hq, hev⟩
  case dead =>
    intro s i tm k hk ht hst hon hdead
    obtain ⟨hev, k', hc, hfailed, hreason, hun, hq⟩ := smtFail_spec (d := tick tm s.dev) hk 2
    exact ⟨_, k', exec_deadTimer hk ht hst hon hdead, hc, hfailed, hreason, hun, hq, hev⟩
  case ack =>
    intro s i tm k a hk ht ha hdue
    obtain ⟨k', -, hc⟩ := smtAck_conn (d := tick tm s.dev) hk
    refine ⟨_, _, exec_ackDelayTimer hk ht ha hdue, hc, rfl, rfl, rfl, fun hup hkey hlim hst => ?_⟩
    obtain ⟨key, hkey⟩ := Option.isSome_iff_exists.1 hkey
    exact smtAck_out (d := tick tm s.dev) hk hkey hlim ⟨by simp [hst], by simp [hst]⟩ hup
  case keep =>
    intro s i tm k key hk ht hst hkey hlim hidle
    have hlive : k.st ≠ .failed ∧ k.st ≠ .shut := ⟨by simp [hst], by simp [hst]⟩
    obtain ⟨due, hc⟩ := smtControl_conn (d := tick tm s.dev) hk hkey hlim hlive 7 0 []
    exact ⟨_, _, exec_keepIdle hk ht hst hidle, hc, rfl, (smtControl_now 7 0 []).symm, rfl, fun hup => smtControl_out (d := tick tm s.dev) hk hkey hlim hlive 7 0 hup (by decide)⟩
  case ecn =>
    intro s i tm k hk ht hst hdue
    obtain ⟨k', hc, hv⟩ := (smtReqPump_traffic (i := i) _).conn _ (onConn_get_self (d := tick tm s.dev)
      (fun k => { k with ecnAt := tm, window := if k.ceAt.any (fun a => decide (k.ecnAt ≤ a)) then k.window else min (winOf s.dev) (k.window + 1) }) hk)
    exact ⟨_, k', exec_ecnHold hk ht hst hdue, hc, (congrArg Conn.ecnAt hv :), (congrArg Conn.window hv :)⟩
  case drain =>
    intro s i tm k key a hk ht hp hdue hw
    obtain ⟨hqm, due, hc⟩ := dropPrev_spec (d := tick tm s.dev) (t := tm) hk hw
    exact ⟨_, exec_keyDrainTimer hk ht hp hdue, ⟨_, hc, rfl⟩, hqm⟩
  case close =>
    intro s i tm k hk ht hst hdel hdue
    obtain ⟨hev, k', hc, hshut, hun, hq⟩ := smtShut_spec (d := tick tm s.dev) hk
    exact ⟨_, k', exec_closeTimer hk ht hst hdel hdue, hc, hshut, hun, hq, hev⟩
end Sys2Proof.Machine

namespace Sys2Proof.Machine
/-! ### Data-space packets in order (R129, R139, R143, R144, R146, R151) -/

section
variable {d e : Dev} {p : RxPkt} {i t cid : Nat} {k c : Conn} {pay : List Byte} {h : RxHdr}

/-- A connection that has nothing received above a gap does not advance. -/
theorem advance_nil : ∀ (n : Nat) {k : Conn}, k.rxSet = [] → advance n k = k
  | 0, _, _ => rfl
  | _ + 1, k, hk => by simp [advance, hk]

/-- One that has received the next packet alone advances by it. -/
theorem advance_next (n : Nat) (hk : k.rxSet = [k.rxCum]) : advance (n + 1) k = { k with rxSet := [], rxCum := (k.rxCum + 1) % 2 ^ 32 } := by
  have hin : k.rxSet.contains k.rxCum = true := by simp [hk]
  have hout : (k.rxSet.filter fun x => decide (x ≠ k.rxCum)) = [] := by simp [hk]
  rw [advance, if_pos hin, hout]
  exact advance_nil n rfl

/-- What answers a packet accepted: an ACK when enough are due, else a CRED when one is. -/
def answered (i : Nat) (d : Dev) : Dev := match tget d.smt.conns i with
  | some k => if ackCount d ≤ k.ackDue then smtAck i d else smtCredCheck i d
  | none => d

theorem answered_traffic (d : Dev) : Traffic quietTx i d (answered i d) := by
  unfold answered
  split
  · exact .ite (smtAck_traffic d) (smtCredCheck_traffic d)
  · exact .refl _ i d

/-- The end of accepting a packet: the cumulative PSN advances from n, and what is held below it is applied. -/
def delivered (i cid n t : Nat) (d : Dev) : Dev :=
  let d := onConn i (advance 256) d
  let cum := match tget d.smt.conns i with | some k => k.rxCum | none => 0
  let below := fun (e : Nat × Nat × List Byte) => decide (2 ^ 31 ≤ (e.1 + 2 ^ 32 - cum) % 2 ^ 32)
  let now := match tget d.smt.conns i with | some k => k.held.filter below | none => []
  let d := onConn i (fun k => { k with held := k.held.filter fun e => !below e }) d
  answered i (applyHeld i cid t (sortBy (fun a b => decide ((a.1 + 2 ^ 32 - n) % 2 ^ 32 < (b.1 + 2 ^ 32 - n) % 2 ^ 32)) now) d)

/-- The next packet is received alone: what it brought to be applied, if anything, is applied at once. -/
theorem delivered_next (n : Nat) (hc : tget d.smt.conns i = some c) (hset : c.rxSet = [c.rxCum]) (hlt : c.rxCum < 2 ^ 32)
    (hheld : c.held = [] ∨ ∃ x, c.held = [(c.rxCum, x)]) :
    ∃ e, e.qm = d.qm ∧ e.maps = d.maps ∧ e.sil = d.sil ∧ tget e.smt.conns i = some { c with rxSet := [], rxCum := (c.rxCum + 1) % 2 ^ 32, held := [] } ∧
      delivered i cid n t d = answered i (applyHeld i cid t c.held e) := by
  have hc' : tget (onConn i (advance 256) d).smt.conns i = some { c with rxSet := [], rxCum := (c.rxCum + 1) % 2 ^ 32 } := by
    rw [onConn_get_self _ hc, advance_next 255 hset]
  have hbelow : decide (2 ^ 31 ≤ (c.rxCum + 2 ^ 32 - (c.rxCum + 1) % 2 ^ 32) % 2 ^ 32) = true := decide_eq_true (by omega)
  have hnow : c.held.filter (fun e => decide (2 ^ 31 ≤ (e.1 + 2 ^ 32 - (c.rxCum + 1) % 2 ^ 32) % 2 ^ 32)) = c.held := by
    obtain hn | ⟨x, hx⟩ := hheld
    · rw [hn, List.filter_nil]
    · rw [hx, List.filter_cons, if_pos hbelow, List.filter_nil]
  have hleft : c.held.filter (fun e => !decide (2 ^ 31 ≤ (e.1 + 2 ^ 32 - (c.rxCum + 1) % 2 ^ 32) % 2 ^ 32)) = [] :=
    List.filter_eq_nil_iff.2 fun e he => by simpa using (List.filter_eq_self.1 hnow) e he
  have hsort : ∀ lt, sortBy lt c.held = c.held := fun lt => by
    obtain hn | ⟨x, hx⟩ := hheld
    · rw [hn]
      rfl
    · rw [hx]
      rfl
  refine ⟨onConn i (fun k => { k with held := k.held.filter fun e => !decide (2 ^ 31 ≤ (e.1 + 2 ^ 32 - (c.rxCum + 1) % 2 ^ 32) % 2 ^ 32) }) (onConn i (advance 256) d),
    rfl, rfl, rfl, ?_, ?_⟩
  · rw [onConn_get_self _ hc']
    dsimp only
    rw [hleft]
  · simp only [delivered, hc', hnow, hsort]

/-- A connection once the packet n has been received, the next of its data space. -/
def received (n ty t : Nat) (pay : List Byte) (k : Conn) : Conn :=
  { k with rxSet := [n], ackDue := k.ackDue + 1, ackFrom := some (k.ackFrom.getD t), held := if ty = 3 then [] else [(n, ty, pay)] }

/-- The next packet in order is received, and counted; a response of a read acts at once. -/
theorem acceptData_next (hk : tget d.smt.conns i = some k) (hpsn : h.psn = k.rxCum) (hset : k.rxSet = []) (hheld : k.held = [])
    (hseal : (if h.kgen = k.kgen then k.rxSealed else k.oldSealed) < sealLimit) :
    ∃ e k', still e = still d ∧ SealsCounted k k' ∧ tget e.smt.conns i = some (received k.rxCum h.ty t pay k') ∧
      acceptData i k h pay t d = delivered i (connId i k) k.rxCum t (if h.ty = 3 then rresp i (connId i k) h pay t e else e) := by
  have hoff : (h.psn + 2 ^ 32 - k.rxCum) % 2 ^ 32 = 0 := by
    rw [hpsn]
    omega
  obtain ⟨e, k', hcount, hst, -, hk', hs⟩ := countSeal_within (space := 0) (step := 1) (current := decide (h.kgen = k.kgen)) (c := k) hk (by simpa using hseal) (Nat.le_refl 1)
  refine ⟨onConn i (fun k => { k with
    rxSet := k.rxSet ++ [h.psn], ackDue := k.ackDue + 1, ackFrom := some (k.ackFrom.getD t), gapFrom := k.gapFrom
    held := if h.ty = 3 then k.held else k.held ++ [(h.psn, h.ty, pay)] }) e, k', hst, hs, ?_, ?_⟩
  · obtain ⟨_, _, _, _, _, rfl⟩ := hs
    rw [onConn_get_self _ hk']
    simp only [received, hset, hheld, hpsn, List.nil_append]
  · have hnew : ¬ (2 ^ 31 ≤ 0 ∨ k.rxSet.contains h.psn = true) := by simp [hset]
    simp only [acceptData, hoff, hcount, if_neg hnew]
    rfl

/-- What a verified data-space packet in order comes to. -/
theorem rxTyped_data {ty : Nat} (hv : Verified d p ty i k pay) (ho : InOrder p k) (hty : ty = 1 ∨ ty = 3 ∨ ty = 8) :
    ∃ e k', still e = still d ∧ Accepted t k k' ∧ tget e.smt.conns i = some (received k.rxCum ty t pay k') ∧
      rxTyped ty p t d = delivered i (connId i k) k.rxCum t (if ty = 3 then rresp i (connId i k) (rxHdr p.bytes) pay t e else e) := by
  obtain ⟨e, k1, he, heq⟩ := rxTyped_hears (t := t) hv
  rw [if_pos hty] at heq
  obtain ⟨hst, hconn, hheard, -⟩ := he
  obtain ⟨hpsn, -, hset, hheld, hseal⟩ := ho
  obtain ⟨seen, n, at_, w, hv', rfl⟩ := hheard
  obtain ⟨e', k', hst', hs, hk', hacc⟩ := acceptData_next (h := rxHdr p.bytes) (pay := pay) (t := t) hconn hpsn hset hheld hseal
  rw [hv.type] at hk' hacc
  exact ⟨e', k', hst'.trans hst, ⟨_, ⟨seen, n, at_, w, hv', rfl⟩, hs⟩, hk', heq.trans hacc⟩

/-- A bell or a close in its turn is applied at once, and answered. -/
theorem rxTyped_applied {ty : Nat} (hv : Verified d p ty i k pay) (ho : InOrder p k) (hty : ty = 1 ∨ ty = 8) :
    ∃ e c, e.qm = d.qm ∧ e.maps = d.maps ∧ tget e.smt.conns i = some c ∧ c.st = .isOpen ∧ c.rxCum = (k.rxCum + 1) % 2 ^ 32 ∧ c.lastRx = t ∧
      rxTyped ty p t d = answered i (applyHeld i (connId i k) t [(k.rxCum, ty, pay)] e) := by
  obtain ⟨e, k', hst, ⟨_, ⟨_, _, _, _, _, rfl⟩, ⟨_, _, _, _, _, rfl⟩⟩, hk', hx⟩ := rxTyped_data (t := t) hv ho (by omega)
  have hne : ty ≠ 3 := by omega
  rw [if_neg hne] at hx
  rw [received, if_neg hne] at hk'
  obtain ⟨e', hqm, hmaps, -, hc, hdel⟩ := delivered_next (cid := connId i k) (t := t) k.rxCum hk' rfl ho.2.1 (.inr ⟨_, rfl⟩)
  exact ⟨e', _, hqm.trans (still_qm hst), hmaps.trans (still_maps hst), hc, hv.isOpen, rfl, rfl, hx.trans hdel⟩

/-- A BELL of one entry rings once. -/
theorem applyHeld_bell (n : Nat) (hlen : pay.length = 8) : applyHeld i cid t [(n, 1, pay)] d = bellEntry cid t pay d := by
  have hs : slice pay 0 8 = pay := by rw [slice, List.drop_zero, List.take_of_length_le hlen.le]
  simp [applyHeld, forAll, hlen, hs]

/-- A connection whose closing starts: its queued reads and requests do not go out any more. -/
def closingFrom (t : Nat) (unsent : List TxReq) (k : Conn) : Conn := { k with
  st := .closing, closeAt := some t, reqQueue := [], queue := k.queue.filter fun q => decide (q.ty ≠ 2)
  reqs := tfilter k.reqs fun r _ => !unsent.any fun q => decide (q.reqId = r) }

/-- A CLOSE on an open connection starts its closing, and its reads still to be sent fail; it is acknowledged. -/
theorem applyClose_open (hc : tget d.smt.conns i = some c) (hst : c.st = .isOpen) : ∃ uses p unsent,
    applyClose i t d = smtPump i (smtAck i (forAll uses failUse (freeBuffers p (onConn i (closingFrom t unsent) d)))) := by
  unfold applyClose
  rw [hc]
  dsimp only
  rw [if_pos hst]
  exact ⟨_, _, c.queue.filter fun q => decide (q.ty = 2), rfl⟩

theorem applyHeld_close (n : Nat) (hc : tget d.smt.conns i = some c) (hst : c.st = .isOpen) :
    (applyHeld i cid t [(n, 8, pay)] d).maps = d.maps ∧ ∃ c', tget (applyHeld i cid t [(n, 8, pay)] d).smt.conns i = some c' ∧ c'.st = .closing ∧ c'.closeAt = some t ∧
      c'.reqQueue = [] ∧ c'.rxCum = c.rxCum := by
  have happly : applyHeld i cid t [(n, 8, pay)] d = applyClose i t d := rfl
  obtain ⟨uses, p, unsent, hclose⟩ := applyClose_open (t := t) hc hst
  rw [happly, hclose]
  obtain ⟨hsmt, hmaps⟩ := failUses_leave uses (freeBuffers p (onConn i (closingFrom t unsent) d))
  have hc1 : tget (forAll uses failUse (freeBuffers p (onConn i (closingFrom t unsent) d))).smt.conns i = some (closingFrom t unsent c) := by
    rw [hsmt, freeBuffers_smt]
    exact onConn_get_self _ hc
  have ht : Traffic quietTx i (forAll uses failUse (freeBuffers p (onConn i (closingFrom t unsent) d))) _ := .trans (smtAck_traffic _) (smtPump_traffic _)
  obtain ⟨c', hc', hv⟩ := ht.conn _ hc1
  exact ⟨(still_maps ht.still).trans (hmaps.trans (freeBuffers_maps _ _)), c', hc', (congrArg Conn.st hv :), (congrArg Conn.closeAt hv :), (congrArg Conn.reqQueue hv :),
    (congrArg Conn.rxCum hv :)⟩

/-! A response spends a unit of the client's credit (R158); one that ends its read takes the read from its connection. -/

def spent (k : Conn) : Conn := { k with clientUsed := (k.clientUsed + 1) % 2 ^ 32 }
def without (r : Nat) (k : Conn) : Conn := { k with reqs := tdel k.reqs r }

section
variable {q : Req} (hc : tget d.smt.conns i = some c) (hq : tget c.reqs h.reqId = some q)
include hc hq

/-- A refusal ends the read that the response names. -/
theorem rresp_of_refused (hbad : bit h.flags 3 = true) :
    rresp i cid h pay t d = smtReqPump i (readRefused cid q.use (onConn i (without h.reqId) (onConn i spent d))) := by
  have hc' : tget (onConn i spent d).smt.conns i = some (spent c) := onConn_get_self _ hc
  have hq' : tget (spent c).reqs h.reqId = some q := hq
  show (match tget (onConn i spent d).smt.conns i with | none => _ | some k => _) = _
  simp only [hc', hq', hbad, if_true]
  rfl

/-- A segment that completes its read, of one segment, brings the read's bytes. -/
theorem rresp_of_whole (hsegs : q.segs = []) (hpos : 0 < q.len) (hone : q.len ≤ psizeOf c) (hok : bit h.flags 3 = false) (hseg : h.seg = 0) (hlen : pay.length = q.len)
    (haddr : h.addr = q.addr) (hkey : h.rkey = q.rkey) :
    rresp i cid h pay t d = smtReqPump i (readDone q.use pay t (onConn i (without h.reqId) (onConn i spent d))) := by
  have hc' : tget (onConn i spent d).smt.conns i = some (spent c) := onConn_get_self _ hc
  have hq' : tget (spent c).reqs h.reqId = some q := hq
  have hcd : cdiv q.len (psizeOf (spent c)) = 1 := by
    have hp : psizeOf (spent c) = psizeOf c := rfl
    rw [hp, cdiv, Nat.div_eq_of_lt_le] <;> omega
  have hfits : 0 < cdiv q.len (psizeOf (spent c)) ∧ pay.length = min (psizeOf (spent c)) (q.len - 0 * psizeOf (spent c)) ∧ h.addr = q.addr + 0 * psizeOf (spent c) ∧ h.rkey = q.rkey ∧
      (!thas q.segs 0) = true := by
    rw [hcd, hsegs, Nat.zero_mul, Nat.sub_zero, hlen]
    exact ⟨Nat.one_pos, (Nat.min_eq_right hone).symm, haddr, hkey, rfl⟩
  show (match tget (onConn i spent d).smt.conns i with | none => _ | some k => _) = _
  simp only [hc', hq', hok, Bool.false_eq_true, if_false, hseg, if_pos hfits]
  simp only [hsegs, hcd, tset, List.length_singleton, if_true, List.map_cons, List.map_nil, List.flatten_cons, List.flatten_nil, List.append_nil]
  rfl

end

/-- A refused fetch of descriptors faults its ring, and the ring's completion slots come free. -/
theorem readRefused_descs {sq from_ n : Nat} {r : SubRing} (hr : tget d.qm.sqs sq = some r) (hdel : r.deleting = none) : readRefused cid (.descs sq from_ n) d =
    raise .smtRingFault [sq, cid] (onSq sq (fun r => { r with fault := true }) (onCq r.cq (fun q => { q with reserved := q.reserved - n }) d)) := by
  simp [readRefused, failUse, hr, endDeletion, hdel]

/-- What follows a response: the connection moves on by it, and asks for more or answers. -/
theorem response_moves {g : Dev} (n : Nat) (hc : tget g.smt.conns i = some c) (hset : c.rxSet = [c.rxCum]) (hlt : c.rxCum < 2 ^ 32) (hheld : c.held = []) :
    let e := delivered i cid n t (smtReqPump i g)
    e.qm = g.qm ∧ e.maps = g.maps ∧ g.sil.inboxMain <+: e.sil.inboxMain ∧ ∃ c', tget e.smt.conns i = some c' ∧ c'.clientUsed = c.clientUsed := by
  have hr := smtReqPump_traffic (i := i) g
  obtain ⟨c1, hc1, hv⟩ := hr.conn c hc
  have hset1 : c1.rxSet = c.rxSet := (congrArg Conn.rxSet hv :)
  have hcum1 : c1.rxCum = c.rxCum := (congrArg Conn.rxCum hv :)
  have hheld1 : c1.held = [] := (congrArg Conn.held hv :).trans hheld
  obtain ⟨e, hqm, hmaps, hsil, hc2, he⟩ := delivered_next (cid := cid) (t := t) n hc1 (by rw [hset1, hset, hcum1]) (by rw [hcum1]; exact hlt) (.inl hheld1)
  have hnone : applyHeld i cid t c1.held e = e := by
    rw [hheld1]
    rfl
  have ha := answered_traffic (i := i) e
  obtain ⟨c3, hc3, hv3⟩ := ha.conn _ hc2
  rw [he, hnone]
  exact ⟨(still_qm ha.still).trans (hqm.trans (still_qm hr.still)), (still_maps ha.still).trans (hmaps.trans (still_maps hr.still)), hr.inbox.trans (hsil ▸ ha.inbox), c3, hc3,
    (congrArg Conn.clientUsed hv3 :).trans (congrArg Conn.clientUsed hv :)⟩

end

/-- Settles O21: what is next in order is applied at once (`rxTyped_applied`), and a response as its read asked (`rresp_data`, `rresp_refused`). -/
theorem smiastBellsAndReadResponsesComplete : Obligations.SmiastBellsAndReadResponsesComplete := by
  unfold Obligations.SmiastBellsAndReadResponsesComplete
  refine ⟨⟨?head, ?tail, ?close⟩, ?data, ?refused⟩
  case head =>
    intro s p tm i k pay r hv ho hlen hkind hr hb hh hval
    obtain ⟨e, c, hqm, hmaps, hc, -, hcum, hrx, hx⟩ := rxTyped_applied (t := tm) hv ho (.inl rfl)
    rw [← hqm] at hr
    have hbell : bellEntry (connId i k) tm pay e = onCq (beAt pay 0 2) (fun r => { r with head := beAt pay 4 2 }) e := by
      simp [bellEntry, hkind, cqBell_valid hr hb hh hval]
    rw [applyHeld_bell _ hlen, hbell] at hx
    have ha := answered_traffic (i := i) (onCq (beAt pay 0 2) (fun r => { r with head := beAt pay 4 2 }) e)
    obtain ⟨c', hc', hview⟩ := ha.conn c hc
    have haqm := still_qm ha.still
    refine ⟨_, c', on_eq hx, ?_, ?_, ?_, (still_maps ha.still).trans hmaps, hc', (congrArg Conn.rxCum hview :).trans hcum, (congrArg Conn.lastRx hview :).trans hrx⟩
    · rw [haqm]
      exact tget_tmod_self _ hr
    · rw [haqm, ← hqm, onCq_sqs]
    · rw [haqm, ← hqm, onCq_cmds]
  case tail =>
    intro s p tm i k pay r hv ho hlen hkind hr hb hh hval
    obtain ⟨e, c, hqm, hmaps, -, -, -, -, hx⟩ := rxTyped_applied (t := tm) hv ho (.inl rfl)
    rw [← hqm] at hr
    obtain ⟨await, htail⟩ := setTail_eq (beAt pay 0 2) (beAt pay 4 2) e
    obtain ⟨pwr, hwake⟩ := wakeForCommand_eq tm (setTail (beAt pay 0 2) (beAt pay 4 2) e)
    have hbell : bellEntry (connId i k) tm pay e = { setTail (beAt pay 0 2) (beAt pay 4 2) e with pwr := pwr } := by
      simp [bellEntry, hkind, sqBell_valid hr hb hh hval, hwake]
    rw [applyHeld_bell _ hlen, hbell, htail] at hx
    have ha := answered_traffic (i := i) { { e with qm := { e.qm with sqs := tmod e.qm.sqs (beAt pay 0 2) fun r => { r with tail := beAt pay 4 2 }, adminAwait := await } } with pwr := pwr }
    have haqm := still_qm ha.still
    refine ⟨_, on_eq hx, ?_, ?_, ?_, (still_maps ha.still).trans hmaps⟩
    · rw [haqm]
      exact tget_tmod_self _ hr
    · rw [haqm, ← hqm]
    · rw [haqm, ← hqm]
  case close =>
    intro s p tm i k pay hv ho
    obtain ⟨e, c, -, hmaps, hc, hst, hcum, -, hx⟩ := rxTyped_applied (t := tm) hv ho (.inr rfl)
    obtain ⟨hmaps', c', hc', hst', hat, hreq, hcum'⟩ := applyHeld_close (cid := connId i k) (t := tm) (pay := pay) k.rxCum hc hst
    have ha := answered_traffic (i := i) (applyHeld i (connId i k) tm [(k.rxCum, 8, pay)] e)
    obtain ⟨c'', hc'', hview⟩ := ha.conn c' hc'
    exact ⟨_, c'', on_eq hx, hc'', (congrArg Conn.st hview :).trans hst', (congrArg Conn.closeAt hview :).trans hat, (congrArg Conn.reqQueue hview :).trans hreq,
      (congrArg Conn.rxCum hview :).trans (hcum'.trans hcum), (still_maps ha.still).trans (hmaps'.trans hmaps)⟩
  case data =>
    intro s p tm i k pay q id off c hv ho hq huse hsegs hpos hone hok hseg hlen haddr hkey hcmd
    obtain ⟨e, k', hst, ⟨_, ⟨_, _, _, _, _, rfl⟩, ⟨_, _, _, _, _, rfl⟩⟩, hk', hx⟩ := rxTyped_data (t := tm) hv ho (.inr (.inl rfl))
    rw [if_pos rfl, rresp_of_whole hk' hq hsegs hpos hone hok hseg hlen haddr hkey, huse] at hx
    obtain ⟨hqm, hmaps, -, c', hc', hused⟩ := response_moves (cid := connId i k) (t := tm) k.rxCum
      (g := stageBytes id off pay (onConn i (without (rxHdr p.bytes).reqId) (onConn i spent e))) (onConn_get_self _ (onConn_get_self _ hk')) rfl ho.2.1 rfl
    refine ⟨_, c', on_eq hx, ?_, hc', hused, Eq.trans (b := e.maps) hmaps (still_maps hst)⟩
    rw [← still_qm hst] at hcmd
    exact (congrArg (fun q => tget q.cmds id) hqm :).trans (onCmd_get_self _ hcmd)
  case refused =>
    intro s p tm i k pay q sq from_ n r hv ho hq huse hbad hr hdel
    obtain ⟨e, k', hst, ⟨_, ⟨_, _, _, _, _, rfl⟩, ⟨_, _, _, _, _, rfl⟩⟩, hk', hx⟩ := rxTyped_data (t := tm) hv ho (.inr (.inl rfl))
    rw [← still_qm hst] at hr
    have hbadq : readRefused (connId i k) (.descs sq from_ n) (onConn i (without (rxHdr p.bytes).reqId) (onConn i spent e)) = _ := readRefused_descs hr hdel
    rw [if_pos rfl, rresp_of_refused hk' hq hbad, huse, hbadq] at hx
    obtain ⟨hqm, -, hinbox, c', hc', hused⟩ := response_moves (cid := connId i k) (t := tm) k.rxCum
      (g := raise .smtRingFault [sq, connId i k] (onSq sq (fun r => { r with fault := true }) (onCq r.cq (fun q => { q with reserved := q.reserved - n })
        (onConn i (without (rxHdr p.bytes).reqId) (onConn i spent e))))) (onConn_get_self _ (onConn_get_self _ hk')) rfl ho.2.1 rfl
    refine ⟨_, c', on_eq hx, ?_, hinbox.subset (by simp), hc', hused⟩
    exact (congrArg (fun q => tget q.sqs sq) hqm :).trans (tget_tmod_self _ hr)
end Sys2Proof.Machine

namespace Sys2Proof.Machine
/-! ### The commands on connections (R124, R125, R127, R129, R136, R161, R162, R419) -/

section
variable {s : State} {d e : Dev} {id opc i n : Nat} {c : Cmd} {k : Conn} {blk l : List Byte}

/-- Traffic on whichever connection leaves its view of each. -/
theorem Traffic.view {α : Type} {v : Conn → α} {j : Nat} (h : Traffic v j d e) (hk : tget d.smt.conns i = some k) : ∃ k', tget e.smt.conns i = some k' ∧ v k' = v k := by
  by_cases hj : i = j
  · subst hj
    exact h.conn k hk
  · exact ⟨k, (h.others i hj).trans hk, rfl⟩

/-- An admin command whose turn it is has its effect. -/
theorem adminCmd_turn (h : AdminTurn s id opc c) (f : Cmd → Dev → Dev) : adminCmd id opc f s.dev = f c s.dev := by
  obtain ⟨hout, hturn, hup⟩ := h
  rw [adminCmd, hout.fresh, withSome_some, hturn, hup, Bool.and_true, onlyIf_true]

theorem freeBuffers_frame (p : BufUser → Bool) (d : Dev) : ∃ bpm sil, freeBuffers p d = { d with bpm := bpm, sil := sil } := by
  refine forAll_keeps (P := fun e => ∃ bpm sil, e = { d with bpm := bpm, sil := sil }) _ _ ⟨_, _, rfl⟩ ?_
  rintro g - _ ⟨bpm, sil, rfl⟩
  exact ⟨_, _, returnBuffer_frame _ _ _⟩

theorem takeBlock_frame (id n : Nat) (d : Dev) : ∃ bpm, takeBlock id n d = { d with bpm := bpm } := by
  unfold takeBlock
  split
  · exact ⟨_, rfl⟩
  · split
    · exact ⟨_, rfl⟩
    · exact ⟨_, rfl⟩

/-- A command whose block has come is carried out with it; its buffer has come back, and the read of a PCIe ring's block stands among what went out (R115, R563). -/
theorem withBlk_got (f : List Byte → Dev → Dev) (hbuf : BlockBuffer s id n c) (hgot : readBlk s.dev c n blk = .got l) :
    ∃ bpm sil out, withBlk id c n blk f s.dev = f l { s.dev with bpm := bpm, sil := sil, io := { s.dev.io with out := out } } := by
  have hfree : ∃ bpm sil out, f l (freeBlock id s.dev) = f l { s.dev with bpm := bpm, sil := sil, io := { s.dev.io with out := out } } := by
    obtain ⟨bpm, sil, hf⟩ := freeBuffers_frame (fun u => decide (u = .block id)) s.dev
    exact ⟨bpm, sil, _, by rw [freeBlock, hf]⟩
  unfold withBlk
  rw [hgot]
  dsimp only
  cases hb : bindOf s.dev c with
  | none => exact hfree
  | some b =>
    cases b with
    | mailbox => exact hfree
    | conn => exact hfree
    | fn fn =>
      dsimp only
      obtain ⟨bpm, ht⟩ := takeBlock_frame id n s.dev
      have hask : askBlk id c n (takeBlock id n s.dev) = send (.dmaRead fn (dDptr c.desc) n) { s.dev with bpm := bpm } := by
        have hb' : bindOf { s.dev with bpm := bpm } c = some (.fn fn) := hb
        rw [ht, askBlk, hb']
      obtain ⟨bpm', sil, hf⟩ := freeBuffers_frame (fun u => decide (u = .block id)) (send (.dmaRead fn (dDptr c.desc) n) { s.dev with bpm := bpm })
      rw [if_pos (hbuf fn hb), hask, freeBlock, hf]
      exact ⟨_, _, _, rfl⟩

/-! #### CONN_CREATE -/

/-- The block's answer goes to the mailbox or to the client's memory; commands, maps and what matters of the connections stay. -/
theorem writeBack_leaves (l : List Byte) (d : Dev) : (writeBack c l d).qm = d.qm ∧ (writeBack c l d).maps = d.maps ∧
    ∀ i k, tget d.smt.conns i = some k → ∃ k', tget (writeBack c l d).smt.conns i = some k' ∧ quietIo k' = quietIo k := by
  have hwrite : (hostWrite d c none (dDptr c.desc + 32) (dRkey c.desc) l).qm = d.qm ∧ (hostWrite d c none (dDptr c.desc + 32) (dRkey c.desc) l).maps = d.maps ∧
      ∀ i k, tget d.smt.conns i = some k → ∃ k', tget (hostWrite d c none (dDptr c.desc + 32) (dRkey c.desc) l).smt.conns i = some k' ∧ quietIo k' = quietIo k := by
    unfold hostWrite
    split
    · exact ⟨rfl, rfl, fun _ k hk => ⟨k, hk, rfl⟩⟩
    · split
      · exact ⟨rfl, rfl, fun _ k hk => ⟨k, hk, rfl⟩⟩
      · next j _ =>
        have ht := smtWrite_traffic (i := fld j 0 18) (dDptr c.desc + 32) (dRkey c.desc) false l none none d
        exact ⟨still_qm ht.still, still_maps ht.still, fun _ _ hk => ht.view hk⟩
      · exact ⟨rfl, rfl, fun _ k hk => ⟨k, hk, rfl⟩⟩
  unfold writeBack
  split
  · exact ⟨rfl, rfl, fun _ k hk => ⟨k, hk, rfl⟩⟩
  · exact hwrite

/-- A new connection waits for its key, with what its block says. -/
theorem connMake_spec (ten : Nat) (hc : tget d.qm.cmds id = some c) : (connMake id c ten i l d).maps = d.maps ∧ ∃ k, tget (connMake id c ten i l d).smt.conns i = some k ∧
    k.st = .pending ∧ k.tenant = ten ∧ k.peer = beAt l 0 16 ∧ k.port = leAt l 16 2 ∧ k.limit = leAt l 28 4 ∧ k.regions = cbRegions l ∧ k.gen = tgetD d.smt.gens i 0 ∧
    tget (connMake id c ten i l d).qm.cmds id = some { c with stage := .done, status := .ok, result := BitVec.ofNat 64 (connId i k), field := 0xFF } := by
  unfold connMake
  extract_lets salt isnD isnC w k made
  obtain ⟨hqm, hmaps, hview⟩ := writeBack_leaves (c := c) (beBytes 7 salt ++ [0] ++ leBytes 4 isnD ++ leBytes 4 isnC) made
  have hk : tget made.smt.conns i = some k := tget_tset_self _ _ _
  obtain ⟨k', hk', hv⟩ := hview i k hk
  have hgen : k'.gen = k.gen := (congrArg Conn.gen hv :)
  have hid : connId i k' = connId i k := by rw [connId, connId, hgen]
  refine ⟨hmaps, k', hk', (congrArg Conn.st hv :), (congrArg Conn.tenant hv :), (congrArg Conn.peer hv :), (congrArg Conn.port hv :), (congrArg Conn.limit hv :),
    (congrArg Conn.regions hv :), hgen, ?_⟩
  rw [hid]
  exact onCmd_get_self _ ((congrArg (fun q => tget q.cmds id) hqm :).trans hc)

/-- The checks of a connection block read the registers and the interfaces' addresses alone. -/
theorem cbFault_congr (hr : e.rf = d.rf) (hs : e.smt = d.smt) : cbFault e l = cbFault d l := by
  have h4 : ∀ j, ifV4 e j = ifV4 d j := fun j => rd_congr hr _
  have h6 : ∀ j, ifV6 e j = ifV6 d j := fun j => by
    rw [ifV6, hs]
    rfl
  simp only [cbFault, h4, h6]

/-! #### CONN_DELETE -/

/-- An entry just written goes as the old one would. -/
theorem tdel_tset_self {α : Type} (v : α) (n : Nat) : ∀ t : Tbl α, tdel (tset t n v) n = tdel t n
  | [] => by simp [tset, tdel]
  | (j, w) :: t => by
    unfold tset
    split
    · next hlt => simp [tdel, hlt, Nat.ne_of_lt hlt]
    · split
      · next heq => simp [tdel, heq]
      · next hlt heq => simp [tdel, hlt, heq, tdel_tset_self v n t]

theorem tdel_tmod_self {α : Type} (f : α → α) (n : Nat) (t : Tbl α) : tdel (tmod t n f) n = tdel t n := by
  unfold tmod
  split
  · rfl
  · exact tdel_tset_self _ n t

/-- A connection that waits for no read goes with its context alone, and its index to the next generation. -/
theorem smtDestroy_spec (hreqs : k.reqs = []) (hqueue : k.reqQueue = []) : (smtDestroy i k d).qm = d.qm ∧ (smtDestroy i k d).smt.conns = tdel d.smt.conns i ∧
    tget (smtDestroy i k d).smt.gens i = some ((k.gen + 1) % 256) := by
  have hsmt : (quiet i k d).smt.conns = tmod d.smt.conns i fun k => { k with unacked := [], queue := [], reqs := [], reqQueue := [], ackFrom := none, gapFrom := none } := by
    rw [quiet, (failUses_leave _ _).1, freeBuffers_smt]
    rfl
  have hqm : (quiet i k d).qm = d.qm := by
    simp only [quiet, hreqs, hqueue, List.map_nil, List.append_nil, forAll_nil, freeBuffers_qm, onConn_qm]
  refine ⟨hqm, ?_, tget_tset_self _ _ _⟩
  rw [smtDestroy, onSmt_smt]
  dsimp only
  rw [hsmt, tdel_tmod_self]

section
variable (h : AdminTurn s id 0x8B c) (hsmt : hasSmt s.dev = true) (hn : connNamed s.dev (dArg c.desc 0) = some (i, k)) (hb : connBound s.dev (dArg c.desc 0) = false)
include h hsmt hn hb

theorem exec_connDelete_closed (hst : k.st ≠ .isOpen) : exec (.connDelete id) s = .next { s with dev := finishOk id 0 (smtDestroy i k s.dev) } := by
  refine on_eq ((adminCmd_turn h _).trans ?_)
  simp [connDelete, hsmt, hn, hb, hst]

theorem exec_connDelete_open (hst : k.st = .isOpen) : exec (.connDelete id) s = .next { s with
    dev := smtPump i (smtEnqueue i { ty := 8, flags := 0, reqId := 0, addr := 0, rkey := 0, pay := [0, 0, 0, 0], seg := 0, completes := none }
      (onConn i (fun k => { k with deleting := some id, closeAt := some s.dev.io.now }) (onCmd id (fun c => { c with stage := .committed, past := true }) s.dev))) } := by
  refine on_eq ((adminCmd_turn h _).trans ?_)
  simp [connDelete, hsmt, hn, hb, hst]

end

/-! #### CONN_KEY -/

/-- A key that is installed, as the first or as the next (R129, R161). -/
def keyed (key : BitVec 256) (t : Nat) (k : Conn) : Conn :=
  if k.st = .pending then { k with st := .isOpen, key := some key, kgen := 0, lastRx := t, lastTx := t, ecnAt := t }
  else { k with
    key := some key, kgen := (k.kgen + 1) % 256, prevKey := if k.unacked = [] then none else k.key.map fun o => (o, t)
    sealedTx := 0, sealedCtl := 0, rxSealed := 0, rxSealedCtl := 0, oldSealed := k.rxSealed, oldSealedCtl := k.rxSealedCtl, psnDue := false, waitKey := none }

/-- Of a change of a connection, only what it makes of that connection counts. -/
theorem onConn_congr {f g : Conn → Conn} (hk : tget d.smt.conns i = some k) (h : f k = g k) : onConn i f d = onConn i g d := by simp [onConn, tmod, hk, h]

/-- Installing a key ends its command, and what waited for the key is sent. -/
theorem installKey_eq (key : BitVec 256) (t : Nat) (hk : tget d.smt.conns i = some k) :
    installKey i id key t d = smtReqPump i (smtPump i (finishOk id 0 (onConn i (keyed key t) d))) := by
  unfold installKey
  rw [hk]
  dsimp only
  rw [onConn_congr (g := keyed key t) hk]
  rw [keyed]
  by_cases hp : k.st = .pending
  · rw [if_pos (decide_eq_true hp), if_pos hp]
  · rw [if_neg (by simpa using hp), if_neg hp]
    cases k.key with
    | none => simp
    | some o => rfl

/-- Sending leaves the key, and the command's end. -/
theorem installKey_spec (key : BitVec 256) (t : Nat) (hk : tget d.smt.conns i = some k) :
    ∃ k', tget (installKey i id key t d).smt.conns i = some k' ∧ quietIo k' = quietIo (keyed key t k) ∧ (installKey i id key t d).qm = (finishOk id 0 d).qm := by
  rw [installKey_eq key t hk]
  have ht : Traffic quietIo i (finishOk id 0 (onConn i (keyed key t) d)) _ := .trans (smtPump_traffic _).io (smtReqPump_traffic _)
  obtain ⟨k', hk', hv⟩ := ht.conn _ (onConn_get_self (keyed key t) hk)
  exact ⟨k', hk', hv, (still_qm ht.still :)⟩

/-- A key waits while the previous one is held, and so does its command. -/
theorem connKeyWith_wait {key : BitVec 256} (hu : unwrapKey (kekConn d) (l.take 40) = some key) (hk : tget d.smt.conns i = some k) (hp : k.prevKey.isSome = true) :
    connKeyWith id i l d = onConn i (fun k => { k with waitKey := some (id, key) }) (onCmd id (fun c => { c with stage := .committed, past := true }) d) := by
  simp [connKeyWith, hu, hk, hp]

theorem connKeyWith_install {key : BitVec 256} (hu : unwrapKey (kekConn d) (l.take 40) = some key) (hk : tget d.smt.conns i = some k) (hp : k.prevKey = none) :
    connKeyWith id i l d = installKey i id key d.io.now d := by
  simp [connKeyWith, hu, hk, hp]

theorem connKeyWith_bad (hu : unwrapKey (kekConn d) (l.take 40) = none) : connKeyWith id i l d = finishErr id .keyUnwrap d := by
  simp [connKeyWith, hu]

/-- The connection that an id names stands at the index that the id holds. -/
theorem exec_connKey (h : AdminTurn s id 0x8C c) (hbuf : BlockBuffer s id 40 c) (hsmt : hasSmt s.dev = true) (hn : connNamed s.dev (dArg c.desc 0) = some (i, k))
    (hgot : readBlk s.dev c 40 blk = .got l) (hst : k.st = .pending ∧ fld (dArg c.desc 1) 0 8 = 0 ∨ k.st = .isOpen ∧ fld (dArg c.desc 1) 0 8 = (k.kgen + 1) % 256) :
    ∃ bpm sil out, exec (.connKey id blk) s = .next { s with dev := connKeyWith id i l { s.dev with bpm := bpm, sil := sil, io := { s.dev.io with out := out } } } := by
  obtain ⟨bpm, sil, out, hw⟩ := withBlk_got (connKeyWith id i) hbuf hgot
  refine ⟨bpm, sil, out, on_eq ((adminCmd_turn h _).trans (Eq.trans ?_ hw))⟩
  have hlive : ¬ (k.st ≠ .pending ∧ k.st ≠ .isOpen) := fun hno => hst.elim (fun hp => hno.1 hp.1) fun ho => hno.2 ho.1
  have hgen : fld (dArg c.desc 1) 0 8 = if k.st = .pending then 0 else (k.kgen + 1) % 256 := by
    obtain ⟨hp, hg⟩ | ⟨ho, hg⟩ := hst
    · rw [if_pos hp, hg]
    · rw [if_neg (by simp [ho]), hg]
  simp [connKey, hsmt, hn, hlive, hgen]

/-- A block that passes every check of R136 makes a connection at the lowest free index. -/
theorem exec_connCreate {x : Tenant} (h : AdminTurn s id 0x8A c) (hbuf : BlockBuffer s id 320 c) (hgot : readBlk s.dev c 320 blk = .got l) (hrange : cbRange l = none)
    (hsmt : hasSmt s.dev = true) (hif : ifPresent s.dev (leAt l 18 1) = true) (hx : tget s.dev.maps.tenants (fld (dArg c.desc 0) 0 12) = some x) (hrng : s.dev.sec.rngReady = true)
    (hfault : cbFault s.dev l = none) (hroom : (s.dev.smt.conns.filter fun e => decide (e.2.tenant = fld (dArg c.desc 0) 0 12)).length < x.grants.conns)
    (hfree : freeConn s.dev = some i) :
    ∃ bpm sil out, exec (.connCreate id blk) s = .next { s with
      dev := connMake id c (fld (dArg c.desc 0) 0 12) i l { s.dev with bpm := bpm, sil := sil, io := { s.dev.io with out := out } } } := by
  obtain ⟨bpm, sil, out, hw⟩ := withBlk_got (connCreate id c) hbuf hgot
  refine ⟨bpm, sil, out, on_eq ((adminCmd_turn h _).trans (hw.trans ?_))⟩
  generalize he : ({ s.dev with bpm := bpm, sil := sil, io := { s.dev.io with out := out } } : Dev) = e
  have hsmt' : hasSmt e = true := he ▸ hsmt
  have hif' : ifPresent e (leAt l 18 1) = true := he ▸ hif
  have hx' : tget e.maps.tenants (fld (dArg c.desc 0) 0 12) = some x := he ▸ hx
  have hrng' : e.sec.rngReady = true := he ▸ hrng
  have hfault' : cbFault e l = none := (cbFault_congr (by rw [← he]) (by rw [← he])).trans hfault
  have hroom' : (e.smt.conns.filter fun e => decide (e.2.tenant = fld (dArg c.desc 0) 0 12)).length < x.grants.conns := he ▸ hroom
  have hfree' : freeConn e = some i := he ▸ hfree
  simp [connCreate, hrange, hsmt', hif', hx', hrng', hfault', Nat.not_le.2 hroom', hfree']

end

/-- Settles O25: each command's effect once its checks have passed (`exec_connCreate`, `exec_connDelete_closed`, `exec_connDelete_open`, `exec_connKey`). -/
theorem connectionCommandsComplete : Obligations.ConnectionCommandsComplete := by
  unfold Obligations.ConnectionCommandsComplete
  refine ⟨?create, ?delete, ?key⟩
  case create =>
    intro s id c blk l i x h hbuf hgot hrange hsmt hif hx hrng hfault hroom hfree
    obtain ⟨bpm, sil, out, hexec⟩ := exec_connCreate h hbuf hgot hrange hsmt hif hx hrng hfault hroom hfree
    obtain ⟨hmaps, k, hk, hst, hten, hpeer, hport, hlim, hreg, hgen, hend⟩ := connMake_spec (i := i) (l := l) (d := { s.dev with bpm := bpm, sil := sil, io := { s.dev.io with out := out } })
      (fld (dArg c.desc 0) 0 12) h.1.cmd
    exact ⟨_, k, hexec, hk, hst, hten, hpeer, hport, hlim, hreg, hgen, hend, hmaps⟩
  case delete =>
    intro s id c i k h hsmt hn hb
    refine ⟨fun hst hreqs hqueue => ?_, fun hst => ?_⟩
    · obtain ⟨hqm, hconns, hgens⟩ := smtDestroy_spec (d := s.dev) (i := i) hreqs hqueue
      exact ⟨_, exec_connDelete_closed h hsmt hn hb hst, onCmd_get_self _ ((congrArg (fun q => tget q.cmds id) hqm :).trans h.1.cmd), hconns, hgens⟩
    · have ht : Traffic quietTx i (onConn i (fun k => { k with deleting := some id, closeAt := some s.dev.io.now }) (onCmd id (fun c => { c with stage := .committed, past := true }) s.dev)) _ :=
        .trans (smtEnqueue_traffic { ty := 8, flags := 0, reqId := 0, addr := 0, rkey := 0, pay := [0, 0, 0, 0], seg := 0, completes := none } _) (smtPump_traffic _)
      obtain ⟨k', hk', hv⟩ := ht.conn _ (onConn_get_self (d := onCmd id (fun c => { c with stage := .committed, past := true }) s.dev) _ (connNamed_conn hn))
      exact ⟨_, k', exec_connDelete_open h hsmt hn hb hst, (congrArg (fun q => tget q.cmds id) (still_qm ht.still) :).trans (onCmd_get_self _ h.1.cmd), hk',
        (congrArg Conn.deleting hv :), (congrArg Conn.closeAt hv :)⟩
  case key =>
    intro s id c blk i k l h hbuf hsmt hn hgot hst
    obtain ⟨bpm, sil, out, hexec⟩ := exec_connKey h hbuf hsmt hn hgot hst
    refine ⟨_, hexec, ?_⟩
    generalize he : ({ s.dev with bpm := bpm, sil := sil, io := { s.dev.io with out := out } } : Dev) = e
    have hkek : kekConn e = kekConn s.dev := by rw [← he]; rfl
    have hc : tget e.qm.cmds id = some c := he ▸ h.1.cmd
    have hk : tget e.smt.conns i = some k := he ▸ connNamed_conn hn
    have hnow : e.io.now = s.dev.io.now := by rw [← he]
    split
    · next hu =>
      rw [← hkek] at hu
      rw [connKeyWith_bad hu]
      exact ⟨onCmd_get_self _ hc, by rw [← he]; rfl⟩
    · next key hu =>
      rw [← hkek] at hu
      cases hp : k.prevKey with
      | some old =>
        rw [connKeyWith_wait hu hk (by rw [hp]; rfl)]
        exact ⟨_, onConn_get_self _ hk, by simp, by simp, fun _ => ⟨onCmd_get_self _ hc, rfl, rfl⟩⟩
      | none =>
        rw [connKeyWith_install hu hk hp, hnow]
        obtain ⟨k', hk', hv, hqm⟩ := installKey_spec (id := id) key s.dev.io.now hk
        have hend : Ended { s with dev := installKey i id key s.dev.io.now e } id c .ok 0 0xFF := (congrArg (fun q => tget q.cmds id) hqm :).trans (onCmd_get_self _ hc)
        refine ⟨k', hk', fun hpend _ => ?_, fun hopen _ => ?_, by simp⟩
        · rw [keyed, if_pos hpend] at hv
          exact ⟨hend, (congrArg Conn.st hv :), (congrArg Conn.key hv :), (congrArg Conn.kgen hv :)⟩
        · rw [keyed, if_neg (by simp [hopen])] at hv
          exact ⟨hend, (congrArg Conn.key hv :), (congrArg Conn.kgen hv :), (congrArg Conn.prevKey hv :)⟩
end Sys2Proof.Machine

/-!
The PCIe ports (spec/05_pcie_ports.md): failed transfers, training, Bus Master Enable, and the resets of functions and links.
-/

namespace Sys2Proof.Machine

section
variable {s : State} {d : Dev} {fn l id sq : Nat} {kind : DmaFail} {c : Cmd} {r : SubRing}

/-! ### A link's entry -/

@[simp] theorem tgetD_tset_self {α : Type} (t : Tbl α) (k : Nat) (v e : α) : tgetD (tset t k v) k e = v := by simp [tgetD]

theorem onPcxLink_link (f : PcxLink → PcxLink) : tgetD (onPcxLink l f d).pcx.links l {} = f (tgetD d.pcx.links l {}) := tgetD_tset_self ..

/-- Giving a command up leaves everything but the lock table, the buffers, the Almanac's work, the decoder's queue and Sillage's records. -/
theorem cancel_frame (id : Nat) (d : Dev) : ∃ locks high bpm sil alm ecc, cancel id d = { d with qm := { d.qm with locks := locks, lockHigh := high }, bpm := bpm, sil := sil, alm := alm, ecc := ecc } := by
  obtain ⟨bpm, sil, hfree⟩ := freeBuffers_frame (fun u => decide (u = .copy id) || decide (u = .staging id) || decide (u = .block id)) (lockRelease id d)
  exact ⟨_, _, bpm, sil, _, _, by rw [cancel, hfree, lockRelease_frame]⟩

/-! ### Failed transfers (R100, R176, R177) -/

/-- A failure is counted on the function's link and shows in the function's AER. -/
def dmaLogged (fn l : Nat) (kind : DmaFail) (d : Dev) : Dev := aerLog fn kind (onPcxLink l (fun k => { k with dmaErr := satInc 32 k.dmaErr }) d)

theorem dmaLogged_count : (tgetD (dmaLogged fn l kind d).pcx.links l {}).dmaErr = satInc 32 (tgetD d.pcx.links l {}).dmaErr :=
  congrArg PcxLink.dmaErr (onPcxLink_link (d := d) fun k => { k with dmaErr := satInc 32 k.dmaErr })

theorem dmaLogged_aer : bit (cfgAt (dmaLogged fn l kind d) fn 0x104 0) (aerBit kind) = true := by
  have hlt : aerBit kind < 32 := by cases kind <;> decide
  have hset : (2 ^ aerBit kind % 2 ^ 32).testBit (aerBit kind) = true := by rw [Nat.mod_eq_of_lt (Nat.pow_lt_pow_right (by omega) hlt), Nat.testBit_two_pow_self]
  simpa [dmaLogged, aerLog, cfgAt, bit] using .inr hset

theorem exec_pcxDmaError {ring cmd : Option Nat} (hup : mainUp s.dev = true) (hl : linkKey s.dev fn = some l) (ht : kind = .timeout → timeoutOff s.dev fn = false)
    (hout : dmaOut s.dev fn ring cmd = true) :
    exec (.pcxDmaError fn kind ⟨ring, cmd⟩) s = .next { s with dev := dmaLogged fn l kind (withSome cmd (dmaFailCmd fn) (withSome ring (dmaFailRing fn) s.dev)) } := by
  have htold : (decide (kind = .timeout) && timeoutOff s.dev fn) = false := by
    rw [Bool.and_eq_false_imp]
    exact fun hk => ht (of_decide_eq_true hk)
  show execPcxDmaError fn kind ⟨ring, cmd⟩ s = _
  simp only [execPcxDmaError, on_next, hl, withSome_some, hup, hout, htold, Bool.and_self, Bool.not_false, onlyIf_true]
  rfl

/-- A fetch that fails puts its ring in fault; ERR is the owner admin ring's alone. -/
theorem dmaFailRing_eq (hne : sq ≠ 0) (hr : tget d.qm.sqs sq = some r) (hb : r.bind = .fn fn) (hf : canFetch d sq = true) :
    dmaFailRing fn sq d = raise .pcxRingFault [sq, fn / 1024, fn % 1024] (onSq sq (fun r => { r with fault := true }) d) := by
  simp [dmaFailRing, hr, hb, hf, hne]

theorem dmaFailCmd_eq (hc : tget d.qm.cmds id = some c) (hb : bindOf d c = some (.fn fn)) (hm : mayFail c = true) : dmaFailCmd fn id d = finishField id 0xFE (cancel id d) := by
  simp [dmaFailCmd, hc, hb, hm]

/-! ### Training, Bus Master Enable (R166, R168, R178) -/

/-- What training makes of a link. -/
def trained (lanes rate width : Nat) (k : PcxLink) : PcxLink :=
  { k with rate := rate, width := width, degraded := decide (rate ≤ 2 ∨ width < lanes), retrains := if k.rate = 0 then k.retrains else satInc 16 k.retrains }

theorem exec_pcxLinkTrained {e : Nat × Nat × Nat × Nat} {rate width : Nat} (hup : mainUp s.dev = true) (he : pcxEntry s.dev l = some e) (hheld : pcxHeld s.dev (l / 4) = false)
    (hlo : 1 ≤ rate) (hhi : rate ≤ 6) (hw : width ∈ [1, 2, 4, 8, 16]) (hlanes : width ≤ linkLanes s.dev l) :
    exec (.pcxLinkTrained l rate width) s = .next { s with
      dev := if rate ≤ 2 ∨ width < linkLanes s.dev l then raise .pcxDegraded [l / 4, l % 4, rate, width] (onPcxLink l (trained (linkLanes s.dev l) rate width) s.dev)
        else onPcxLink l (trained (linkLanes s.dev l) rate width) s.dev } := by
  show execPcxLinkTrained l rate width s = _
  have hw' : [1, 2, 4, 8, 16].contains width = true := by simpa using hw
  simp only [execPcxLinkTrained, on_next, hup, he, hheld, hlo, hhi, hw', hlanes, Option.isSome_some, Bool.not_false, decide_true, Bool.and_self, onlyIf_true, ← Bool.decide_or, decide_eq_true_eq]
  rfl

theorem exec_pcxBusMasterEnable (hup : mainUp s.dev = true) (hl : linkKey s.dev fn = some l) (hheld : pcxHeld s.dev (fn / 1024) = false) :
    exec (.pcxBusMasterEnable fn) s = .next { s with
      dev := onPcx (fun x => { x with master := if x.master.contains fn then x.master else x.master ++ [fn] }) s.dev } := by
  show execPcxBusMasterEnable fn s = _
  simp only [execPcxBusMasterEnable, on_next, hup, hl, hheld, Option.isSome_some, Bool.not_false, Bool.and_self, onlyIf_true]

end

/-- Settles O28: what each event does once its checks have passed (`exec_pcxDmaError`, `exec_pcxLinkTrained`, `exec_pcxBusMasterEnable`). -/
theorem pcieEventsComplete : Obligations.PcieEventsComplete := by
  unfold Obligations.PcieEventsComplete
  refine ⟨?ring, ?cmd, ?train, ?master⟩
  case ring =>
    intro s fn sq kind l r hup hl ht hne hr hb hf
    have hout : dmaOut s.dev fn (some sq) none = true := by simp [dmaOut, hr, hb, hf]
    refine ⟨_, exec_pcxDmaError hup hl ht hout, ?_⟩
    rw [withSome_none, withSome_some, dmaFailRing_eq hne hr hb hf]
    exact ⟨tget_tmod_self _ hr, rfl, dmaLogged_count, rfl, rfl, dmaLogged_aer⟩
  case cmd =>
    intro s fn id kind l c hup hl ht hc hb hm
    have hout : dmaOut s.dev fn none (some id) = true := by simp [dmaOut, hc, hb, hm]
    obtain ⟨_, _, _, _, _, _, hcancel⟩ := cancel_frame id s.dev
    refine ⟨_, exec_pcxDmaError hup hl ht hout, ?_⟩
    rw [withSome_some, withSome_none, dmaFailCmd_eq hc hb hm, hcancel]
    exact ⟨tget_tmod_self _ hc, rfl, dmaLogged_count, dmaLogged_aer, fun j hj => tget_tmod_ne _ _ hj⟩
  case train =>
    intro s link rate width e hup he hheld hlo hhi hw hlanes
    refine ⟨_, exec_pcxLinkTrained hup he hheld hlo hhi hw hlanes, ?_⟩
    split
    · exact ⟨onPcxLink_link _, rfl, rfl⟩
    · exact ⟨onPcxLink_link _, (List.append_nil _).symm, rfl⟩
  case master =>
    intro s fn l hup hl hheld
    refine ⟨_, exec_pcxBusMasterEnable hup hl hheld, ?_, fun f hf => ?_, rfl⟩
    · by_cases h : fn ∈ s.dev.pcx.master <;> simp [h]
    · by_cases h : fn ∈ s.dev.pcx.master <;> simp [h, hf]

end Sys2Proof.Machine

namespace Sys2Proof.Machine

section
variable {s : State} {p : Nat → Prop} {d e f : Dev} {i id l fn : Nat} {c : Cmd} {r : SubRing} {q : CompRing} {fns : List Nat}

/-! ### Tables, whatever the order of their keys -/

theorem tget_tmap {α β : Type} (g : Nat → α → β) (k : Nat) : ∀ t : Tbl α, tget (tmap t g) k = (tget t k).map (g k)
  | [] => rfl
  | (j, a) :: t => by
    have ih := tget_tmap g k t
    simp only [tmap, List.map_cons, tget] at ih ⊢
    split
    · next h => subst h; rfl
    · split
      · rfl
      · exact ih

/-- An entry that is there stays when another is removed. -/
theorem tget_tdel_of_some {α : Type} {a : α} {j k : Nat} (hj : j ≠ k) : ∀ {t : Tbl α}, tget t j = some a → tget (tdel t k) j = some a
  | (n, w) :: t, h => by
    simp only [tget] at h
    split at h
    · next hn =>
      rw [tdel, if_neg (show k ≠ n by omega)]
      split <;> simpa [tget, hn] using h
    · next hn =>
      split at h
      · cases h
      · next hlt =>
        have ih := tget_tdel_of_some hj h
        simp only [tdel]
        split
        · exact h
        · split <;> simp [tget, hn, hlt, h, ih]

/-! ### Commands given up (R178, R180) -/

/-- What giving commands up never touches. -/
def aside (d : Dev) : Dev := { d with qm := { adminOn := d.qm.adminOn }, bpm := {}, alm := {}, ecc := {}, sil := {}, scu := {} }

/-- Commands were given up or lost their completions, and nothing more: of the rings with these numbers, a submission ring that is not being deleted changes but for the WAIT that holds it, a completion ring but
for its reservations; a command past its commit point is still outstanding, and is still discarded if it was. -/
structure Ceased (p : Nat → Prop) (d e : Dev) : Prop where
  sq : ∀ i r, p i → tget d.qm.sqs i = some r → r.deleting = none → ∃ held, tget e.qm.sqs i = some { r with held := held }
  cq : ∀ i q, p i → tget d.qm.cqs i = some q → ∃ n, tget e.qm.cqs i = some { q with reserved := n }
  past : ∀ id c, tget d.qm.cmds id = some c → c.past = true → ∃ c', tget e.qm.cmds id = some c' ∧ c'.past = true ∧ (c.discard = true → c'.discard = true)
  rest : aside e = aside d

namespace Ceased

theorem of_same (hs : e.qm.sqs = d.qm.sqs) (hq : e.qm.cqs = d.qm.cqs) (hc : e.qm.cmds = d.qm.cmds) (hr : aside e = aside d) : Ceased p d e :=
  ⟨fun _ r _ h _ => ⟨r.held, hs ▸ h⟩, fun _ q _ h => ⟨q.reserved, hq ▸ h⟩, fun _ c h hp => ⟨c, hc ▸ h, hp, id⟩, hr⟩

theorem refl (d : Dev) : Ceased p d d := of_same rfl rfl rfl rfl

theorem trans (h : Ceased p d e) (g : Ceased p e f) : Ceased p d f where
  sq i r hi hr hdel := by
    obtain ⟨_, h1⟩ := h.sq i r hi hr hdel
    exact (g.sq i _ hi h1 hdel :)
  cq i q hi hq := by
    obtain ⟨_, h1⟩ := h.cq i q hi hq
    exact (g.cq i _ hi h1 :)
  past id c hc hp := by
    obtain ⟨c1, h1, hp1, hd1⟩ := h.past id c hc hp
    obtain ⟨c2, h2, hp2, hd2⟩ := g.past id c1 h1 hp1
    exact ⟨c2, h2, hp2, hd2 ∘ hd1⟩
  rest := g.rest.trans h.rest

theorem forAll {α : Type} {g : α → Dev → Dev} (hg : ∀ a d, Ceased p d (g a d)) (as : List α) (d : Dev) : Ceased p d (forAll as g d) :=
  forAll_keeps as d (refl d) fun a _ _ h => h.trans (hg a _)

/-- A change of one command that leaves it past its commit point and discarded, where it was. -/
theorem onCmd {g : Cmd → Cmd} (hp : ∀ c, (g c).past = c.past) (hd : ∀ c, c.discard = true → (g c).discard = true) (id : Nat) (d : Dev) : Ceased p d (onCmd id g d) where
  sq _ r _ h _ := ⟨r.held, h⟩
  cq _ q _ h := ⟨q.reserved, h⟩
  past j c hc hpast := by
    by_cases hj : j = id
    · subst hj
      exact ⟨g c, onCmd_get_self g hc, (hp c).trans hpast, hd c⟩
    · exact ⟨c, (onCmd_get_ne d g hj).trans hc, hpast, fun h => h⟩
  rest := rfl

end Ceased

theorem cancel_ceased (id : Nat) (d : Dev) : Ceased p d (cancel id d) := by
  obtain ⟨_, _, _, _, _, _, h⟩ := cancel_frame id d
  rw [h]
  exact .of_same rfl rfl rfl rfl

theorem dropCmd_ceased (hc : tget d.qm.cmds id = some c) (hp : c.past = false) : Ceased p d (dropCmd id d) where
  sq i r _ h _ := by
    have hmap : (dropCmd id d).qm.sqs = tmap d.qm.sqs fun _ r => if r.held = some id then { r with held := none } else r := rfl
    rw [hmap, tget_tmap, h]
    by_cases hh : r.held = some id
    · exact ⟨none, by simp [hh]⟩
    · exact ⟨r.held, by simp [hh]⟩
  cq i q _ h := ⟨q.reserved, h⟩
  past j c' h hp' := by
    have hj : j ≠ id := fun hj => by rw [hj, hc] at h; cases h; rw [hp] at hp'; cases hp'
    exact ⟨c', tget_tdel_of_some hj h, hp', fun h => h⟩
  rest := rfl

theorem onCq_reserved_ceased (i : Nat) (g : Nat → Nat) (d : Dev) : Ceased p d (onCq i (fun q => { q with reserved := g q.reserved }) d) where
  sq _ r _ h _ := ⟨r.held, h⟩
  cq j q _ h := by
    by_cases hj : j = i
    · subst hj
      exact ⟨_, tget_tmod_self _ h⟩
    · exact ⟨q.reserved, (tget_tmod_ne _ _ hj).trans h⟩
  past _ c h hp := ⟨c, h, hp, id⟩
  rest := rfl

theorem finishOk_ceased (id result : Nat) (d : Dev) : Ceased p d (finishOk id result d) :=
  .onCmd (g := fun c => { c with stage := .done, status := .ok, result := BitVec.ofNat 64 result, field := 0xFF }) (fun _ => rfl) (fun _ h => h) id d

theorem discard_ceased (id : Nat) (d : Dev) : Ceased p d (onCmd id (fun c => { c with discard := true }) d) :=
  .onCmd (g := fun c => { c with discard := true }) (fun _ => rfl) (fun _ _ => rfl) id d

theorem endDeletion_ceased (i : Nat) (d : Dev) : Ceased p d (endDeletion i d) := by
  unfold endDeletion
  split
  · next r hr =>
    split
    · next id hdel =>
      split
      · exact .refl d
      · have hgone : Ceased p d { d with qm := { d.qm with sqs := tdel d.qm.sqs i } } := by
          refine ⟨fun j x _ hx hx' => ⟨x.held, tget_tdel_of_some ?_ hx⟩, fun _ q _ h => ⟨q.reserved, h⟩, fun _ c h hp => ⟨c, h, hp, fun h => h⟩, rfl⟩
          rintro rfl
          rw [hr] at hx
          cases hx
          rw [hdel] at hx'
          cases hx'
        exact hgone.trans (finishOk_ceased id 0 _)
    · exact .refl d
  · exact .refl d

theorem not_past_of_beforeCommit (h : beforeCommit c = true) : c.past = false := by
  simp only [beforeCommit, Bool.and_eq_true, Bool.not_eq_true'] at h
  obtain ⟨⟨⟨hp, -⟩, -⟩, -⟩ := h
  exact hp

theorem giveUp_ceased (hc : tget d.qm.cmds id = some c) (hb : beforeCommit c = true) : Ceased p d (dropCmd id (cancel id d)) :=
  (cancel_ceased id d).trans (dropCmd_ceased ((congrArg (fun t => tget t id) (cancel_cmds id)).trans hc) (not_past_of_beforeCommit hb))

theorem haltCmd_ceased (id : Nat) (d : Dev) : Ceased p d (haltCmd id d) := by
  unfold haltCmd
  split
  · exact .refl d
  · next c hc =>
    split
    · next hb =>
      refine ((giveUp_ceased hc hb).trans ?_).trans (endDeletion_ceased ..)
      split
      · exact onCq_reserved_ceased _ (· - 1) _
      · exact .refl _
    · exact discard_ceased id d

theorem haltCmd_discards (hc : tget d.qm.cmds id = some c) (hp : c.past = true) : ∃ c', tget (haltCmd id d).qm.cmds id = some c' ∧ c'.past = true ∧ c'.discard = true := by
  have hb : beforeCommit c = false := by simp [beforeCommit, hp]
  have hh : haltCmd id d = onCmd id (fun c => { c with discard := true }) d := by simp [haltCmd, hc, hb]
  exact ⟨{ c with discard := true }, hh ▸ onCmd_get_self _ hc, hp, rfl⟩

theorem haltCmds_discard {ids : List Nat} (hm : id ∈ ids) (hc : tget d.qm.cmds id = some c) (hp : c.past = true) :
    ∃ c', tget (forAll ids haltCmd d).qm.cmds id = some c' ∧ c'.past = true ∧ c'.discard = true := by
  induction ids generalizing d c with
  | nil => cases hm
  | cons j ids ih =>
    by_cases hj : id = j
    · subst hj
      obtain ⟨c1, h1, hp1, hd1⟩ := haltCmd_discards hc hp
      obtain ⟨c2, h2, hp2, hd2⟩ := (Ceased.forAll (p := fun _ => True) haltCmd_ceased ids _).past id c1 h1 hp1
      exact ⟨c2, h2, hp2, hd2 hd1⟩
    · obtain ⟨c1, h1, hp1, -⟩ := (haltCmd_ceased (p := fun _ => True) j d).past id c hc hp
      exact ih ((List.mem_cons.1 hm).resolve_left hj) h1 hp1

theorem resetOwnerCmd_ceased (id : Nat) (d : Dev) : Ceased p d (resetOwnerCmd id d) := by
  unfold resetOwnerCmd
  split
  · exact .refl d
  · next c hc =>
    split
    · next hb => exact giveUp_ceased hc hb
    · exact discard_ceased id d

/-! ### Rings halted (R178) -/

/-- The commands of the rings bound to these functions. -/
def boundCmds (fns : List Nat) (d : Dev) : List Nat :=
  (tfilter d.qm.cmds fun _ c => match tget d.qm.sqs c.sq with | some r => boundIn fns c.sq r.bind | none => false).map (·.1)

theorem boundIn_fn (hi : i ≠ 0) (hm : fn ∈ fns) : boundIn fns i (.fn fn) = true := by simp [boundIn, hi, hm]

theorem mem_boundCmds (hc : tget d.qm.cmds id = some c) (hr : tget d.qm.sqs c.sq = some r) (hb : boundIn fns c.sq r.bind = true) : id ∈ boundCmds fns d :=
  List.mem_map.2 ⟨(id, c), List.mem_filter.2 ⟨mem_of_tget hc, by simp [hr, hb]⟩, rfl⟩

/-- The rings bound to these functions stand halted, and what configuration space held of the functions is at reset. -/
def haltRings (fns : List Nat) (d : Dev) : Dev :=
  { d with
    qm := { d.qm with
      sqs := tmap d.qm.sqs fun i r => if boundIn fns i r.bind then { r with halted := true } else r
      cqs := tmap d.qm.cqs fun i q => if boundIn fns i q.bind then { q with halted := true } else q }
    pcx := { d.pcx with
      master := d.pcx.master.filter fun f => !fns.contains f
      cfg := tfilter d.pcx.cfg fun k _ => !fns.contains (k / 4096) || stickyCfg (k % 4096)
      msix := tfilter d.pcx.msix fun k _ => !fns.contains (k / 2048) } }

/-- The commands end first; then the rings halt. -/
theorem haltFns_eq (fns : List Nat) (d : Dev) : ∃ e, Ceased p d e ∧ haltFns fns d = haltRings fns e :=
  ⟨forAll (boundCmds fns d) haltCmd d, .forAll haltCmd_ceased _ _, rfl⟩

theorem haltFns_sq (hr : tget d.qm.sqs i = some r) (hdel : r.deleting = none) :
    ∃ held, tget (haltFns fns d).qm.sqs i = some { r with held := held, halted := boundIn fns i r.bind || r.halted } := by
  obtain ⟨e, he, heq⟩ := haltFns_eq (p := fun _ => True) fns d
  obtain ⟨held, h⟩ := he.sq i r trivial hr hdel
  refine ⟨held, ?_⟩
  rw [heq, haltRings, tget_tmap, h]
  cases hb : boundIn fns i r.bind <;> simp [hb]

theorem haltFns_cq (hq : tget d.qm.cqs i = some q) : ∃ n, tget (haltFns fns d).qm.cqs i = some { q with reserved := n, halted := boundIn fns i q.bind || q.halted } := by
  obtain ⟨e, he, heq⟩ := haltFns_eq (p := fun _ => True) fns d
  obtain ⟨n, h⟩ := he.cq i q trivial hq
  refine ⟨n, ?_⟩
  rw [heq, haltRings, tget_tmap, h]
  cases hb : boundIn fns i q.bind <;> simp [hb]

theorem haltFns_discards (hc : tget d.qm.cmds id = some c) (hp : c.past = true) (hr : tget d.qm.sqs c.sq = some r) (hb : boundIn fns c.sq r.bind = true) :
    ∃ c', tget (haltFns fns d).qm.cmds id = some c' ∧ c'.past = true ∧ c'.discard = true := haltCmds_discard (mem_boundCmds hc hr hb) hc hp

theorem haltFns_rest (fns : List Nat) (d : Dev) :
    ∃ cfg msix, aside (haltFns fns d) = { aside d with pcx := { d.pcx with master := d.pcx.master.filter fun f => !fns.contains f, cfg := cfg, msix := msix } } := by
  obtain ⟨e, he, heq⟩ := haltFns_eq (p := fun _ => True) fns d
  have hpcx : e.pcx = d.pcx := (congrArg Dev.pcx he.rest :)
  rw [heq, ← hpcx, ← he.rest]
  exact ⟨_, _, rfl⟩

/-! ### The owner admin ring (R180) -/

theorem onSq_ceased (g : SubRing → SubRing) (d : Dev) : Ceased (· ≠ 0) d (onSq 0 g d) where
  sq _ r hi h _ := ⟨r.held, (tget_tmod_ne _ _ hi).trans h⟩
  cq _ q _ h := ⟨q.reserved, h⟩
  past _ c h hp := ⟨c, h, hp, fun h => h⟩
  rest := rfl

theorem onCq_ceased (g : CompRing → CompRing) (d : Dev) : Ceased (· ≠ 0) d (onCq 0 g d) where
  sq _ r _ h _ := ⟨r.held, h⟩
  cq _ q hi h := ⟨q.reserved, (tget_tmod_ne _ _ hi).trans h⟩
  past _ c h hp := ⟨c, h, hp, fun h => h⟩
  rest := rfl

/-- The owner admin ring's commands end; then it and its completion ring are rewound. -/
theorem resetOwnerRing_eq (d : Dev) : ∃ e, Ceased p d e ∧ resetOwnerRing d = if d.qm.adminOn = true then
    (let x := onCq 0 (fun q => { q with widx := 0, head := 0, phase := true, reserved := tcount e.qm.cmds fun _ c => decide (c.sq = 0), sinceIrq := 0, firstAt := none })
      (onSq 0 (fun r => { r with head := 0, tail := 0, held := none, fault := false }) e)
     { x with qm := { x.qm with adminAwait := true, adminErr := false } }) else e := by
  have hfree : Ceased p d (if d.scu.holder = 3 then scuFree d else d) := by
    split
    · exact .of_same rfl rfl rfl rfl
    · exact .refl d
  have hon : (if d.scu.holder = 3 then scuFree d else d).qm.adminOn = d.qm.adminOn := (congrArg (fun x : Dev => x.qm.adminOn) hfree.rest :)
  unfold resetOwnerRing
  cases h : d.qm.adminOn with
  | true => exact ⟨_, hfree.trans (.forAll resetOwnerCmd_ceased _ _), by simp only [hon, h]; rfl⟩
  | false => exact ⟨_, hfree, by simp only [hon, h]; rfl⟩

theorem resetOwnerRing_ceased (d : Dev) : Ceased (· ≠ 0) d (resetOwnerRing d) := by
  obtain ⟨e, he, heq⟩ := resetOwnerRing_eq (p := (· ≠ 0)) d
  rw [heq]
  split
  · exact ((he.trans (onSq_ceased _ e)).trans (onCq_ceased _ _)).trans (.of_same rfl rfl rfl rfl)
  · exact he

theorem resetOwnerRing_rewinds (hon : d.qm.adminOn = true) (hr : tget d.qm.sqs 0 = some r) (hdel : r.deleting = none) (hq : tget d.qm.cqs 0 = some q) :
    tget (resetOwnerRing d).qm.sqs 0 = some { r with head := 0, tail := 0, held := none, fault := false } ∧
    (∃ n, tget (resetOwnerRing d).qm.cqs 0 = some { q with widx := 0, head := 0, phase := true, reserved := n, sinceIrq := 0, firstAt := none }) ∧
    (resetOwnerRing d).qm.adminErr = false ∧ (resetOwnerRing d).qm.adminAwait = true := by
  obtain ⟨e, he, heq⟩ := resetOwnerRing_eq (p := fun _ => True) d
  obtain ⟨_, hr'⟩ := he.sq 0 r trivial hr hdel
  obtain ⟨_, hq'⟩ := he.cq 0 q trivial hq
  rw [heq, if_pos hon]
  exact ⟨(tget_tmod_self _ hr' :), ⟨_, (tget_tmod_self _ hq' :)⟩, rfl, rfl⟩

/-! ### Functions and links reset (R178, R180, R181) -/

/-- What a reset of these functions does to their rings, the owner admin ring apart, and leaves of everything else: a submission ring that is not being deleted and a completion ring are halted if they are one of theirs,
and otherwise change but for the WAIT that holds them and their reservations; none of the functions issues requests. -/
structure Halted (fns : List Nat) (d e : Dev) : Prop where
  sq : ∀ i r, i ≠ 0 → tget d.qm.sqs i = some r → r.deleting = none →
    ∃ held halted, tget e.qm.sqs i = some { r with held := held, halted := halted } ∧ (r.halted = true → halted = true) ∧ ∀ fn ∈ fns, r.bind = .fn fn → halted = true
  cq : ∀ i q, i ≠ 0 → tget d.qm.cqs i = some q →
    ∃ n halted, tget e.qm.cqs i = some { q with reserved := n, halted := halted } ∧ (q.halted = true → halted = true) ∧ ∀ fn ∈ fns, q.bind = .fn fn → halted = true
  master : ∀ fn ∈ e.pcx.master, fn ∈ d.pcx.master ∧ fn ∉ fns
  maps : e.maps = d.maps
  jnl : e.jnl = d.jnl

theorem Halted.refl (d : Dev) : Halted [] d d where
  sq _ r _ h _ := ⟨r.held, r.halted, h, fun h => h, by simp⟩
  cq _ q _ h := ⟨q.reserved, q.halted, h, fun h => h, by simp⟩
  master _ h := ⟨h, by simp⟩
  maps := rfl
  jnl := rfl

theorem Halted.trans {gns : List Nat} (h : Halted fns d e) (g : Halted gns e f) : Halted (fns ++ gns) d f where
  sq i r hi hr hdel := by
    obtain ⟨_, b1, h1, hk1, hm1⟩ := h.sq i r hi hr hdel
    obtain ⟨held, b2, h2, hk2, hm2⟩ := g.sq i _ hi h1 hdel
    exact ⟨held, b2, h2, hk2 ∘ hk1, fun fn hfn hb => (List.mem_append.1 hfn).elim (fun hf => hk2 (hm1 fn hf hb)) fun hg => hm2 fn hg hb⟩
  cq i q hi hq := by
    obtain ⟨_, b1, h1, hk1, hm1⟩ := h.cq i q hi hq
    obtain ⟨n, b2, h2, hk2, hm2⟩ := g.cq i _ hi h1
    exact ⟨n, b2, h2, hk2 ∘ hk1, fun fn hfn hb => (List.mem_append.1 hfn).elim (fun hf => hk2 (hm1 fn hf hb)) fun hg => hm2 fn hg hb⟩
  master fn hfn := by
    obtain ⟨he, hg⟩ := g.master fn hfn
    obtain ⟨hd, hf⟩ := h.master fn he
    exact ⟨hd, by simp [hf, hg]⟩
  maps := g.maps.trans h.maps
  jnl := g.jnl.trans h.jnl

/-- What touches neither rings, functions, maps nor journal. -/
theorem Halted.then_same (h : Halted fns d e) (hq : f.qm = e.qm) (hm : f.pcx.master = e.pcx.master) (hmaps : f.maps = e.maps) (hjnl : f.jnl = e.jnl) : Halted fns d f where
  sq := by rw [hq]; exact h.sq
  cq := by rw [hq]; exact h.cq
  master := by rw [hm]; exact h.master
  maps := hmaps.trans h.maps
  jnl := hjnl.trans h.jnl

theorem Halted.forAll {g : Nat → Dev → Dev} (hg : ∀ fn d, Halted [fn] d (g fn d)) (fns : List Nat) (d : Dev) : Halted fns d (forAll fns g d) := by
  induction fns generalizing d with
  | nil => exact .refl d
  | cons fn fns ih => exact (hg fn d).trans (ih _)

/-- The functions that a reset of one takes with it: a PF's VFs. -/
def resetScope (l fn : Nat) (d : Dev) : List Nat := if isPf (fn % 1024) then fn :: linkVfs d l else [fn]

theorem mem_resetScope (l fn : Nat) (d : Dev) : fn ∈ resetScope l fn d := by
  unfold resetScope
  split <;> simp

theorem haltFns_halted (hfn : fn ∈ fns) (d : Dev) : Halted [fn] d (haltFns fns d) := by
  obtain ⟨_, _, hrest⟩ := haltFns_rest fns d
  have hpcx : (haltFns fns d).pcx = _ := (congrArg Dev.pcx hrest :)
  refine ⟨fun i r hi hr hdel => ?_, fun i q hi hq => ?_, fun g hg => ?_, (congrArg Dev.maps hrest :), (congrArg Dev.jnl hrest :)⟩
  · obtain ⟨held, h⟩ := haltFns_sq (fns := fns) hr hdel
    exact ⟨held, _, h, by simp +contextual, by simp +contextual [boundIn_fn hi hfn]⟩
  · obtain ⟨n, h⟩ := haltFns_cq (fns := fns) hq
    exact ⟨n, _, h, by simp +contextual, by simp +contextual [boundIn_fn hi hfn]⟩
  · rw [hpcx] at hg
    have hg' : g ∈ d.pcx.master ∧ g ∉ fns := by simpa using hg
    exact ⟨hg'.1, fun h => hg'.2 (List.mem_singleton.1 h ▸ hfn)⟩

theorem Halted.then_ceased (h : Halted fns d e) (g : Ceased (· ≠ 0) e f) : Halted fns d f where
  sq i r hi hr hdel := by
    obtain ⟨_, b, h1, hk, hm⟩ := h.sq i r hi hr hdel
    obtain ⟨held, h2⟩ := g.sq i _ hi h1 hdel
    exact ⟨held, b, h2, hk, hm⟩
  cq i q hi hq := by
    obtain ⟨_, b, h1, hk, hm⟩ := h.cq i q hi hq
    obtain ⟨n, h2⟩ := g.cq i _ hi h1
    exact ⟨n, b, h2, hk, hm⟩
  master := by
    have hpcx : f.pcx = e.pcx := (congrArg Dev.pcx g.rest :)
    rw [hpcx]
    exact h.master
  maps := (congrArg Dev.maps g.rest :).trans h.maps
  jnl := (congrArg Dev.jnl g.rest :).trans h.jnl

/-- A reset halts, resets the owner admin ring where the function is the owner's, and is logged. -/
theorem resetFn_eq (l fn : Nat) (d : Dev) : ∃ e, Ceased (· ≠ 0) (haltFns (resetScope l fn d) d) e ∧ resetFn l fn d = logReset l fn e := by
  have howner : ∀ x, Ceased (· ≠ 0) x (if isOwnerFn x fn = true then resetOwnerRing x else x) := fun x => by
    split
    · exact resetOwnerRing_ceased x
    · exact .refl x
  exact ⟨_, howner _, rfl⟩

theorem resetFn_owner (l : Nat) (ho : isOwnerFn d fn = true) : resetFn l fn d = logReset l fn (resetOwnerRing (haltFns (resetScope l fn d) d)) := by
  obtain ⟨_, _, hrest⟩ := haltFns_rest (resetScope l fn d) d
  have hid : (haltFns (resetScope l fn d) d).id = d.id := (congrArg Dev.id hrest :)
  have ho' : isOwnerFn (haltFns (resetScope l fn d) d) fn = true := by rw [← ho, isOwnerFn, isOwnerFn, ownerMgt, ownerMgt, hid]
  exact congrArg (logReset l fn) (if_pos ho')

theorem resetFn_halted (l fn : Nat) (d : Dev) : Halted [fn] d (resetFn l fn d) := by
  obtain ⟨e, he, heq⟩ := resetFn_eq l fn d
  rw [heq]
  exact ((haltFns_halted (mem_resetScope l fn d) d).then_ceased he).then_same rfl rfl rfl rfl

theorem resetFn_discards (hc : tget d.qm.cmds id = some c) (hi : c.sq ≠ 0) (hr : tget d.qm.sqs c.sq = some r) (hb : r.bind = .fn fn) (hp : c.past = true) :
    ∃ c', tget (resetFn l fn d).qm.cmds id = some c' ∧ c'.discard = true := by
  obtain ⟨e, he, heq⟩ := resetFn_eq l fn d
  obtain ⟨c1, h1, hp1, hd1⟩ := haltFns_discards (fns := resetScope l fn d) hc hp hr (hb ▸ boundIn_fn hi (mem_resetScope l fn d))
  obtain ⟨c2, h2, -, hd2⟩ := he.past id c1 h1 hp1
  rw [heq]
  exact ⟨c2, h2, hd2 hd1⟩

theorem resetFn_link (l fn : Nat) (d : Dev) : tgetD (resetFn l fn d).pcx.links l {} =
    { tgetD d.pcx.links l {} with pend := true, flrCount := satInc 8 (tgetD d.pcx.links l {}).flrCount, flrLast := fn % 1024 } := by
  obtain ⟨e, he, heq⟩ := resetFn_eq l fn d
  obtain ⟨_, _, hrest⟩ := haltFns_rest (resetScope l fn d) d
  have hlinks : e.pcx.links = d.pcx.links := (congrArg (fun x : Dev => x.pcx.links) (he.rest.trans hrest) :)
  rw [heq, ← hlinks]
  exact onPcxLink_link (d := e) fun k => { k with pend := true, flrCount := satInc 8 k.flrCount, flrLast := fn % 1024 }

theorem resetFn_logged (l fn : Nat) (d : Dev) : ⟨.pcxFlr, [l / 4, l % 4, fn % 1024]⟩ ∈ (resetFn l fn d).sil.inboxMain := by
  obtain ⟨e, -, heq⟩ := resetFn_eq l fn d
  rw [heq, logReset, raise_inboxMain]
  simp

theorem resetLink_eq {pf : Nat} (h : linkPf d l = some pf) : resetLink l d = onPcx (fun x => { x with cfg := tfilter x.cfg fun k _ => linkKey d (k / 4096) ≠ some l })
    (onPcxLink l (fun k => { pend := k.pend, flrCount := k.flrCount, flrLast := k.flrLast }) (resetFn l pf d)) := by rw [resetLink, h]

theorem resetLink_halted {pf : Nat} (h : linkPf d l = some pf) : Halted [pf] d (resetLink l d) := by
  rw [resetLink_eq h]
  exact (resetFn_halted l pf d).then_same rfl rfl rfl rfl

theorem resetLink_link {pf : Nat} (h : linkPf d l = some pf) :
    tgetD (resetLink l d).pcx.links l {} = { pend := true, flrCount := satInc 8 (tgetD d.pcx.links l {}).flrCount, flrLast := pf % 1024 } := by
  rw [resetLink_eq h]
  refine (onPcxLink_link (d := resetFn l pf d) fun k => { pend := k.pend, flrCount := k.flrCount, flrLast := k.flrLast }).trans ?_
  rw [resetFn_link]

/-! #### The commands -/

theorem exec_pcxFlr (hup : mainUp s.dev = true) (hl : linkKey s.dev fn = some l) (hv : vfEnabled s.dev (fn / 1024) (fn % 1024) = true) :
    exec (.pcxFlr fn) s = .next { s with dev := resetFn l fn s.dev } := by
  show execPcxFlr fn s = _
  simp only [execPcxFlr, on_next, hl, withSome_some, pcxLive, hup, hv, Bool.and_self, onlyIf_true]

theorem exec_pcxOwnerFlr (hup : mainUp s.dev = true) (ho : isOwnerFn s.dev 0 = true) (hp : hasPcx s.dev 0 = true) : exec .pcxOwnerFlr s = .next { s with dev := resetFn 0 0 s.dev } := by
  show execPcxOwnerFlr s = _
  simp only [execPcxOwnerFlr, on_next, pcxLive, hup, ho, hp, Bool.and_self, onlyIf_true]

theorem exec_pcxVfDisable {x : Nat × Nat × Nat × Nat} (hup : mainUp s.dev = true) (hx : pcxEntry s.dev l = some x) : exec (.pcxVfDisable l) s = .next { s with dev := vfDisable l s.dev } := by
  show execPcxVfDisable l s = _
  simp only [execPcxVfDisable, on_next, pcxLive, hup, hx, Option.isSome_some, Bool.and_self, onlyIf_true]

theorem linkPf_entry {pf : Nat} (h : linkPf d l = some pf) : (pcxEntry d l).isSome = true := by
  unfold linkPf at h
  cases hx : pcxEntry d l with
  | none => simp [hx] at h
  | some x => rfl

theorem exec_pcxPerst {pf : Nat} (hup : mainUp s.dev = true) (hpf : linkPf s.dev l = some pf) :
    exec (.pcxPerst l) s = .next { s with dev := onPcxLink l (fun k => { k with flrCount := 0 }) (resetLink l s.dev) } := by
  show execPcxPerst l s = _
  simp only [execPcxPerst, on_next, pcxLive, hup, linkPf_entry hpf, Bool.and_self, onlyIf_true]

theorem exec_linkReset {pf : Nat} {i : Instr} (hi : i ∈ [Instr.pcxHotReset l, Instr.pcxDlDown l]) (hup : mainUp s.dev = true) (hpf : linkPf s.dev l = some pf) :
    exec i s = .next { s with dev := resetLink l s.dev } := by
  have hrun : s.on (fun d => onlyIf (pcxLive d && (pcxEntry d l).isSome) (resetLink l) d) = .next { s with dev := resetLink l s.dev } := by
    simp only [on_next, pcxLive, hup, linkPf_entry hpf, Bool.and_self, onlyIf_true]
  rcases List.mem_pair.1 hi with rfl | rfl <;> exact hrun

end

/-- O27's clause of PCX_FLR holds (R178, R182). -/
theorem pcxFlr_halts {s : State} {fn l : Nat} (hup : mainUp s.dev = true) (hl : linkKey s.dev fn = some l) (hv : vfEnabled s.dev (fn / 1024) (fn % 1024) = true) :
    ∃ t, exec (.pcxFlr fn) s = .next t ∧ Halted [fn] s.dev t.dev ∧
      (∀ id c r, tget s.dev.qm.cmds id = some c → c.sq ≠ 0 → tget s.dev.qm.sqs c.sq = some r → r.bind = .fn fn → c.past = true → ∃ c', tget t.dev.qm.cmds id = some c' ∧ c'.discard = true) ∧
      tgetD t.dev.pcx.links l {} = { tgetD s.dev.pcx.links l {} with pend := true, flrCount := satInc 8 (tgetD s.dev.pcx.links l {}).flrCount, flrLast := fn % 1024 } ∧
      ⟨.pcxFlr, [l / 4, l % 4, fn % 1024]⟩ ∈ t.dev.sil.inboxMain :=
  ⟨_, exec_pcxFlr hup hl hv, resetFn_halted l fn s.dev, fun _ _ _ hc hi hr hb hp => resetFn_discards hc hi hr hb hp, resetFn_link l fn s.dev, resetFn_logged l fn s.dev⟩

/-- O27's clause of PCX_OWNER_FLR holds (R180) of an owner admin ring whose deletion does not wait; RING_DELETE refuses id 0 (R94). -/
theorem pcxOwnerFlr_rewinds {s : State} {r : SubRing} {q : CompRing} (hup : mainUp s.dev = true) (ho : isOwnerFn s.dev 0 = true) (hp : hasPcx s.dev 0 = true) (hon : s.dev.qm.adminOn = true)
    (hr : tget s.dev.qm.sqs 0 = some r) (hq : tget s.dev.qm.cqs 0 = some q) (hdel : r.deleting = none) :
    ∃ t n, exec .pcxOwnerFlr s = .next t ∧ tget t.dev.qm.sqs 0 = some { r with head := 0, tail := 0, held := none, fault := false } ∧ t.dev.qm.adminErr = false ∧
      tget t.dev.qm.cqs 0 = some { q with widx := 0, head := 0, phase := true, reserved := n, sinceIrq := 0, firstAt := none } ∧ t.dev.qm.adminAwait = true ∧
      0 ∉ t.dev.pcx.master ∧ (tgetD t.dev.pcx.links 0 {}).pend = true ∧ t.dev.maps = s.dev.maps := by
  obtain ⟨_, _, hrest⟩ := haltFns_rest (resetScope 0 0 s.dev) s.dev
  have hon' : (haltFns (resetScope 0 0 s.dev) s.dev).qm.adminOn = true := (congrArg (fun x : Dev => x.qm.adminOn) hrest :).trans hon
  obtain ⟨_, hr'⟩ := haltFns_sq (fns := resetScope 0 0 s.dev) hr hdel
  obtain ⟨_, hq'⟩ := haltFns_cq (fns := resetScope 0 0 s.dev) hq
  obtain ⟨hsq, ⟨n, hcq⟩, herr, hawait⟩ := resetOwnerRing_rewinds hon' hr' hdel hq'
  have hhalt := resetFn_halted 0 0 s.dev
  have hlink := congrArg PcxLink.pend (resetFn_link 0 0 s.dev)
  have hqm : (resetFn 0 0 s.dev).qm = (resetOwnerRing (haltFns (resetScope 0 0 s.dev) s.dev)).qm := by rw [resetFn_owner 0 ho]; rfl
  refine ⟨_, n, exec_pcxOwnerFlr hup ho hp, ?_, hqm ▸ herr, ?_, hqm ▸ hawait, fun h => (hhalt.master 0 h).2 (by simp), hlink, hhalt.maps⟩
  · rw [hqm, hsq]
    rfl
  · rw [hqm, hcq]
    rfl

/-- O27's clause of PCX_VF_DISABLE holds (R181). -/
theorem pcxVfDisable_halts {s : State} {link : Nat} {x : Nat × Nat × Nat × Nat} (hup : mainUp s.dev = true) (hx : pcxEntry s.dev link = some x) :
    ∃ t, exec (.pcxVfDisable link) s = .next t ∧ (tgetD t.dev.pcx.links link {}).numVfs = 0 ∧ Halted (linkVfs s.dev link) s.dev t.dev :=
  ⟨_, exec_pcxVfDisable hup hx, congrArg PcxLink.numVfs (onPcxLink_link (d := forAll (linkVfs s.dev link) (resetFn link) s.dev) fun k => { k with numVfs := 0 }),
    (Halted.forAll (resetFn_halted link) (linkVfs s.dev link) s.dev).then_same rfl rfl rfl rfl⟩

/-- O27's clauses of PCX_PERST, PCX_HOT_RESET and PCX_DL_DOWN hold (R181): the first restarts the log's count. -/
theorem linkResets_clear {s : State} {link pf : Nat} (hup : mainUp s.dev = true) (hpf : linkPf s.dev link = some pf) :
    (∃ t, exec (.pcxPerst link) s = .next t ∧ Halted [pf] s.dev t.dev ∧ tgetD t.dev.pcx.links link {} = { pend := true, flrCount := 0, flrLast := pf % 1024 }) ∧
    ∀ i ∈ [Instr.pcxHotReset link, Instr.pcxDlDown link], ∃ t, exec i s = .next t ∧ Halted [pf] s.dev t.dev ∧
      tgetD t.dev.pcx.links link {} = { pend := true, flrCount := satInc 8 (tgetD s.dev.pcx.links link {}).flrCount, flrLast := pf % 1024 } := by
  refine ⟨⟨_, exec_pcxPerst hup hpf, (resetLink_halted hpf).then_same rfl rfl rfl rfl, ?_⟩, fun i hi => ⟨_, exec_linkReset hi hup hpf, resetLink_halted hpf, resetLink_link hpf⟩⟩
  refine (onPcxLink_link (d := resetLink link s.dev) fun k => { k with flrCount := 0 }).trans ?_
  rw [resetLink_link hpf]

/-! ### O27 as it stands

`pcxFlr_halts`, `pcxOwnerFlr_rewinds`, `pcxVfDisable_halts` and `linkResets_clear` are its clauses, with one hypothesis that the second clause lacks: that the deletion of the owner admin ring does not wait.
Without it the clause fails where the table of commands is not in canonical form. -/

/-- A part whose table of commands lists id 3 twice, first on the owner admin ring and then on ring 4 of the same function, with the deletion of the owner admin ring waiting. -/
def doublyListed : State where
  pending := []
  dev := {
    pwr := { aon := true }
    kpr := { state := 2 }
    qm := {
      adminOn := true
      sqs := [(0, { admin := true, bind := .fn 0, deleting := some 9 }), (4, { bind := .fn 0 })]
      cqs := [(0, { bind := .fn 0 })]
      cmds := [(3, { desc := 1 }), (3, { sq := 4, desc := 1 })] } }

/-- Halting ring 4 drops the first of the two entries, the last command of the owner admin ring, and so completes that ring's deletion. -/
theorem doublyListed_loses_ownerRing : (tget (resetFn 0 0 doublyListed.dev).qm.sqs 0).isNone = true := by decide +kernel

/-- Refutes O27: its clause of PCX_OWNER_FLR speaks of every state, and in `doublyListed` the owner admin ring is gone afterwards, not at head and tail 0. -/
theorem not_functionAndLinkResetsComplete : ¬ Obligations.FunctionAndLinkResetsComplete := by
  unfold Obligations.FunctionAndLinkResetsComplete
  rintro ⟨-, howner, -⟩
  have hup : mainUp doublyListed.dev = true := by decide
  have ho : isOwnerFn doublyListed.dev 0 = true := by decide
  have hp : hasPcx doublyListed.dev 0 = true := by decide
  obtain ⟨t, n, ht, hring, -⟩ := howner doublyListed { admin := true, bind := .fn 0, deleting := some 9 } { bind := .fn 0 } hup ho hp rfl rfl rfl
  obtain rfl := Host.Outcome.next.inj ((exec_pcxOwnerFlr hup ho hp).symm.trans ht)
  simp [Option.isNone_iff_eq_none.1 doublyListed_loses_ownerRing] at hring

end Sys2Proof.Machine

/-!
Media management (spec/07_media_management.md, spec/08_rows_and_parity.md): the count of free rows, what background work leaves of the layout of zones, rows and beds, the switches that end moves,
rows that are freed, patrol and the hourly work.
-/

namespace Sys2Proof.Machine

/-! ### The count of free rows (R237) -/

theorem sumL_eq_sum (l : List Nat) : sumL l = l.sum := List.sum_eq_foldl.symm

/-- Sorting is the library's insertion sort. -/
theorem sortBy_eq_insertionSort {α : Type} (lt : α → α → Bool) (l : List α) : sortBy lt l = l.insertionSort fun a b => lt b a = false := by
  have hinsert (a : α) (t : List α) : insertBy (fun b a => lt b a) a t = t.orderedInsert (fun a b => lt b a = false) a := by
    induction t with
    | nil => rfl
    | cons b t ih => cases h : lt b a <;> simp [insertBy, ih, h]
  induction l with
  | nil => rfl
  | cons a l ih => rw [List.insertionSort_cons, ← ih, ← hinsert]; rfl

theorem mem_sortBy {α : Type} {lt : α → α → Bool} {l : List α} {a : α} : a ∈ sortBy lt l ↔ a ∈ l := by rw [sortBy_eq_insertionSort, List.mem_insertionSort]

/-- Groups in falling order. -/
theorem sortBy_falling (l : List Nat) : sortBy (fun a b => decide (b < a)) l = l.insertionSort (· ≥ ·) := by
  rw [sortBy_eq_insertionSort]
  congr
  funext a b
  simp

theorem le_foldl_min {f c : Nat} {l : List Nat} : f ≤ l.foldl min c ↔ f ≤ c ∧ ∀ x ∈ l, f ≤ x := by
  induction l generalizing c with
  | nil => simp
  | cons a l ih => simp [ih, and_assoc]

/-- A bound on the least of the candidates is a bound on each. -/
theorem le_freeRowsOf {n f : Nat} {es : List Nat} (hn : 0 < n) : f ≤ freeRowsOf n es ↔ ∀ j < n, f * (n - j) ≤ ((es.insertionSort (· ≥ ·)).drop j).sum := by
  have hcand : f ≤ freeRowsOf n es ↔ ∀ x ∈ (List.range n).map fun j => sumL ((es.insertionSort (· ≥ ·)).drop j) / (n - j), f ≤ x := by
    obtain ⟨m, rfl⟩ : ∃ m, n = m + 1 := ⟨n - 1, by omega⟩
    rw [freeRowsOf, sortBy_falling, List.range_succ_eq_map]
    simp only [List.map_cons, le_foldl_min, List.forall_mem_cons]
  simp only [hcand, List.forall_mem_map, List.mem_range, sumL_eq_sum]
  exact forall₂_congr fun j hj => Nat.le_div_iff_mul_le (by omega)

/-- Any j groups give f beds each at the most, the others all they have. -/
theorem sum_min_le (f : Nat) : ∀ (j : Nat) (l : List Nat), (l.map (min · f)).sum ≤ f * j + (l.drop j).sum
  | 0, [] | _ + 1, [] => by simp
  | 0, a :: l => by
    have := sum_min_le f 0 l
    simp only [List.drop_zero, List.map_cons, List.sum_cons] at this ⊢
    omega
  | j + 1, a :: l => by
    have := sum_min_le f j l
    simp only [List.drop_succ_cons, List.map_cons, List.sum_cons, Nat.mul_succ]
    omega

/-- With the groups in falling order it is enough that what lies beyond the first j can give the n - j beds left: the groups with more than f beds come first, and each of the others gives all it has. -/
theorem le_sum_min {f : Nat} : ∀ {n : Nat} {l : List Nat}, l.Pairwise (· ≥ ·) → (∀ j < n, f * (n - j) ≤ (l.drop j).sum) → f * n ≤ (l.map (min · f)).sum
  | 0, _, _, _ => by simp
  | n + 1, [], _, h => by simpa using h 0 (by omega)
  | n + 1, a :: l, hl, h => by
    obtain ⟨ha, hl'⟩ := List.pairwise_cons.1 hl
    by_cases hf : f ≤ a
    · have ih := le_sum_min (n := n) hl' fun j hj => by simpa using h (j + 1) (by omega)
      simp only [List.map_cons, List.sum_cons, Nat.min_eq_right hf, Nat.mul_succ]
      omega
    · have hall : (a :: l).map (min · f) = a :: l := by
        refine (List.map_congr_left (g := fun x => x) fun x hx => Nat.min_eq_left ?_).trans (List.map_id' _)
        rcases List.mem_cons.1 hx with rfl | hx
        · omega
        · have := ha x hx; omega
      rw [hall]
      exact h 0 (by omega)

/-- The count of rows of n beds that link groups with these free beds give is the largest that R237 allows. -/
theorem le_freeRowsOf_iff {n f : Nat} {es : List Nat} (hn : 0 < n) : f ≤ freeRowsOf n es ↔ n * f ≤ sumL (es.map (min · f)) := by
  have hsum : sumL (es.map (min · f)) = ((es.insertionSort (· ≥ ·)).map (min · f)).sum := (sumL_eq_sum _).trans ((List.perm_insertionSort _ es).map _).sum_eq.symm
  rw [le_freeRowsOf hn, hsum, Nat.mul_comm]
  refine ⟨le_sum_min (List.pairwise_insertionSort _ es), fun h j hj => ?_⟩
  have := h.trans (sum_min_le f j _)
  rw [Nat.mul_sub]
  omega

/-- Settles O54: with the groups in falling order the model takes the least of what those beyond the first j allow. -/
theorem freeRowsIsTheLargest : Obligations.FreeRowsIsTheLargest := by
  unfold Obligations.FreeRowsIsTheLargest
  intro d p n hn
  have key (f : Nat) : f ≤ freeRows d p n ↔ n * f ≤ sumL (((List.range (linkGroups d)).filter (lgUsable d)).map fun g => min (lgFree d p g) f) := by
    rw [freeRows, le_freeRowsOf_iff hn, List.map_map]
    rfl
  exact ⟨(key _).1 le_rfl, fun f => (key f).2⟩

end Sys2Proof.Machine

namespace Sys2Proof.Machine

/-! ### Sending on a Herarn link -/

/-- What sending on a Herarn link never touches: it changes the links, their line and outputs, what of the power sleeps, and marks of commands. -/
def offLine (d : Dev) : Dev := { d with qm := {}, hl := {}, pwr := {}, io := {} }

section
variable (d : Dev)

@[simp] theorem offLine_mk (id rf qm bpm maps alm med jnl clo kpr hld smt pcx hl ecc sec scu pwr thm age sil mgt io) :
    offLine ⟨id, rf, qm, bpm, maps, alm, med, jnl, clo, kpr, hld, smt, pcx, hl, ecc, sec, scu, pwr, thm, age, sil, mgt, io⟩ =
      ⟨id, rf, {}, bpm, maps, alm, med, jnl, clo, kpr, hld, smt, pcx, {}, ecc, sec, scu, {}, thm, age, sil, mgt, {}⟩ := (rfl)

@[simp] theorem offLine_eta :
    (⟨d.id, d.rf, {}, d.bpm, d.maps, d.alm, d.med, d.jnl, d.clo, d.kpr, d.hld, d.smt, d.pcx, {}, d.ecc, d.sec, d.scu, {}, d.thm, d.age, d.sil, d.mgt, {}⟩ : Dev) = offLine d := (rfl)

@[simp] theorem offLine_ite (c : Prop) [Decidable c] (d e : Dev) : offLine (if c then d else e) = if c then offLine d else offLine e := apply_ite offLine c d e

@[simp] theorem offLine_foldl {α : Type} {f : Dev → α → Dev} (hf : ∀ d a, offLine (f d a) = offLine d) (l : List α) (d : Dev) : offLine (l.foldl f d) = offLine d := by
  induction l generalizing d with
  | nil => rfl
  | cons a l ih => rw [List.foldl_cons, ih, hf]

@[simp] theorem offLine_forAll {α : Type} {f : α → Dev → Dev} (hf : ∀ a d, offLine (f a d) = offLine d) (l : List α) (d : Dev) : offLine (forAll l f d) = offLine d :=
  offLine_foldl (fun d a => hf a d) l d

@[simp] theorem send_offLine (o) : offLine (send o d) = offLine d := (rfl)
@[simp] theorem onCmd_offLine (id f) : offLine (onCmd id f d) = offLine d := (rfl)
@[simp] theorem onPwr_offLine (f) : offLine (onPwr f d) = offLine d := (rfl)
@[simp] theorem onLink_offLine (l f) : offLine (onLink l f d) = offLine d := (rfl)
@[simp] theorem onSeq_offLine (l f) : offLine (onSeq l f d) = offLine d := (rfl)
@[simp] theorem lineTo_offLine (l bs) : offLine (lineTo l bs d) = offLine d := (rfl)
@[simp] theorem frameTo_offLine (l f) : offLine (frameTo l f d) = offLine d := (rfl)

@[simp] theorem groupEntering_offLine (g t) : offLine (groupEntering g t d).2 = offLine d := by
  simp only [groupEntering]
  (repeat' split) <;> simp

@[simp] theorem wakeLink_offLine (l t) : offLine (wakeLink l t d) = offLine d := by simp [wakeLink]

@[simp] theorem hlSendOne_offLine (l) : offLine (hlSendOne l d) = offLine d := by
  simp only [hlSendOne]
  split
  · rfl
  · split <;> simp

@[simp] theorem hlPump_offLine (l) : offLine (hlPump l d) = offLine d := by simp [hlPump]
@[simp] theorem hlEnqueue_offLine (l f) : offLine (hlEnqueue l f d) = offLine d := by simp [hlEnqueue]
@[simp] theorem hlCommand_offLine (l target opc op bytes) : offLine (hlCommand l target opc op bytes d).2 = offLine d := by simp [hlCommand]
@[simp] theorem hlData_offLine (l target otag data) : offLine (hlData l target otag data d) = offLine d := by simp [hlData]

@[simp] theorem pauseCommand_offLine (opc i o) : offLine (pauseCommand opc i o d) = offLine d := by
  simp only [pauseCommand]
  split <;> simp

end
end Sys2Proof.Machine

namespace Sys2Proof.Machine

/-! ### What background work leaves where it is

`layout` gathers what the statements about moves read: the zone map, the beds of each row, the beds that wait to be freed, two counts and the write buffer. Most operations leave all of it: one
equation per operation, in the order of the model's files. Those that mark a zone lost or put blocks back into the write buffer leave its `places`. -/

/-- The die and bed of each position of a row. -/
def Maps.members (m : Maps) (row : Nat) : Option (List (Nat × Nat)) := (tget m.rows row).map (·.pos)

structure Layout where
  zones : Tbl Zone
  members : Nat → Option (List (Nat × Nat))
  old : List OldBed
  weedBlk : Nat
  rebuilt : Nat
  clo : Clo

def layout (d : Dev) : Layout := ⟨d.maps.zones, d.maps.members, d.med.old, d.med.weedBlk, d.med.rebuilt, d.clo⟩

/-- Where a zone lies: row, slot, write pointer. -/
def Zone.place (z : Zone) : Option Nat × Nat × Nat := (z.row, z.slot, z.wp)

/-- A layout but for the states of zones and the write buffer. -/
structure Places where
  zone : Nat → Option (Option Nat × Nat × Nat)
  members : Nat → Option (List (Nat × Nat))
  old : List OldBed
  weedBlk : Nat
  rebuilt : Nat

def Layout.places (l : Layout) : Places := ⟨fun k => (tget l.zones k).map Zone.place, l.members, l.old, l.weedBlk, l.rebuilt⟩

section
variable {α : Type} (d : Dev)

@[simp] theorem layout_mk (id rf qm bpm maps alm med jnl clo kpr hld smt pcx hl ecc sec scu pwr thm age sil mgt io) :
    layout ⟨id, rf, qm, bpm, maps, alm, med, jnl, clo, kpr, hld, smt, pcx, hl, ecc, sec, scu, pwr, thm, age, sil, mgt, io⟩ = ⟨maps.zones, maps.members, med.old, med.weedBlk, med.rebuilt, clo⟩ := (rfl)

@[simp] theorem layout_eta : Layout.mk d.maps.zones d.maps.members d.med.old d.med.weedBlk d.med.rebuilt d.clo = layout d := (rfl)

@[simp] theorem layout_ite (c : Prop) [Decidable c] (d e : Dev) : layout (if c then d else e) = if c then layout d else layout e := apply_ite layout c d e

@[simp] theorem layout_foldl {f : Dev → α → Dev} (hf : ∀ d a, layout (f d a) = layout d) (l : List α) (d : Dev) : layout (l.foldl f d) = layout d := by
  induction l generalizing d with
  | nil => rfl
  | cons a l ih => rw [List.foldl_cons, ih, hf]

@[simp] theorem layout_forAll {f : α → Dev → Dev} (hf : ∀ a d, layout (f a d) = layout d) (l : List α) (d : Dev) : layout (forAll l f d) = layout d :=
  layout_foldl (fun d a => hf a d) l d

/-- A repeated effect that keeps the places each time keeps them. -/
theorem places_forAll {f : α → Dev → Dev} (hf : ∀ a d, (layout (f a d)).places = (layout d).places) (l : List α) (d : Dev) : (layout (forAll l f d)).places = (layout d).places :=
  forAll_keeps (P := fun e => (layout e).places = (layout d).places) l d rfl fun a _ e he => (hf a e).trans he

theorem layout_of_offLine {d e : Dev} (h : offLine e = offLine d) : layout e = layout d := (congrArg layout h :)

end

/-! #### Rows keep their beds -/

theorem members_tset {m : Maps} {row : Nat} {r r' : Row} (h : tget m.rows row = some r) (hp : r'.pos = r.pos) : Maps.members { m with rows := tset m.rows row r' } = m.members := by
  funext j
  by_cases hj : j = row
  · subst hj; simp [Maps.members, h, hp]
  · simp [Maps.members, tget_tset_ne _ _ hj]

theorem members_tmod {m : Maps} {row : Nat} {f : Row → Row} (hf : ∀ r, (f r).pos = r.pos) : Maps.members { m with rows := tmod m.rows row f } = m.members := by
  cases h : tget m.rows row with
  | none => rw [tmod_none f h]
  | some r => rw [← members_tset h (hf r), tmod, h]

theorem stripe_members (m : Maps) (row slot s rank : Nat) : (applyRec (.stripe row slot s rank) m).members = m.members :=
  members_tmod fun _ => rfl

section
variable (d : Dev)

@[simp] theorem tick_layout (t) : layout (tick t d) = layout d := (rfl)
@[simp] theorem raise_layout (ty ps) : layout (raise ty ps d) = layout d := (rfl)

@[simp] theorem recordBed_layout (key b) : layout (record (.bed key b) d) = layout d := (rfl)
@[simp] theorem recordLost_layout (key bs) : layout (record (.lost key bs) d) = layout d := (rfl)
@[simp] theorem recordFix_layout (key cws) : layout (record (.fix key cws) d) = layout d := (rfl)
@[simp] theorem recordPlot_layout (i p op) : layout (record (.plot i p op) d) = layout d := (rfl)
@[simp] theorem recordGraft_layout (p g st) : layout (record (.graft p g st) d) = layout d := (rfl)
@[simp] theorem recordSpill_layout (key r s) : layout (record (.spill key r s) d) = layout d := (rfl)
@[simp] theorem recordStripe_layout (row slot s rank) : layout (record (.stripe row slot s rank) d) = layout d :=
  congrArg (fun f => { layout d with members := f }) (stripe_members d.maps row slot s rank)

theorem recordRow_layout {row : Nat} {r r' : Row} (h : rowAt d row = some r) (hp : r'.pos = r.pos) : layout (record (.row row (some r')) d) = layout d :=
  congrArg (fun f => { layout d with members := f }) (members_tset h hp)

@[simp] theorem onRow_layout (row) {f : Row → Row} (hf : ∀ r, (f r).pos = r.pos) : layout (onRow row f d) = layout d :=
  congrArg (fun g => { layout d with members := g }) (members_tmod hf)

/-! #### Trellis -/

@[simp] theorem putBed_layout (die bed f) : layout (putBed die bed f d) = layout d := by simp [putBed]
@[simp] theorem noteBed_layout (die bed f) : layout (noteBed die bed f d) = layout d := (rfl)

/-! #### Place -/

@[simp] theorem onStripe_layout (row s f) : layout (onStripe row s f d) = layout d := (rfl)
@[simp] theorem queueOp_layout (o) : layout (queueOp o d) = layout d := (rfl)
@[simp] theorem dropWork_layout (w) : layout (dropWork w d) = layout d := (rfl)
@[simp] theorem abandonPatrol_layout (row) : layout (abandonPatrol row d) = layout d := by simp [abandonPatrol]
@[simp] theorem queueErase_layout (die bed level) : layout (queueErase die bed level d) = layout d := by simp [queueErase]

@[simp] theorem queueProgram_layout (row s pos) : layout (queueProgram row s pos d) = layout d := by
  unfold queueProgram
  split <;> simp

@[simp] theorem queueXpl_layout (row pos cause hard) : layout (queueXpl row pos cause hard d) = layout d := by
  unfold queueXpl
  (repeat' split) <;> simp

@[simp] theorem readCheck_layout (die bed) : layout (readCheck die bed d) = layout d := by simp [readCheck]
@[simp] theorem ewCheck_layout (die bed) : layout (ewCheck die bed d) = layout d := by simp [ewCheck]

@[simp] theorem oldWhenEmpty_layout (row) : layout (oldWhenEmpty row d) = layout d := by
  unfold oldWhenEmpty
  split <;> simp

theorem sealRow_layout {row : Nat} {r : Row} (h : rowAt d row = some r) : layout (sealRow row r d) = layout d := by
  have hrec := recordRow_layout d (r' := { r with st := .isSealed, sealHour := opHours d }) h rfl
  simp [sealRow, hrec]

@[simp] theorem trySeal_layout (row) : layout (trySeal row d) = layout d := by
  unfold trySeal
  split
  · next h => simp [sealRow_layout d h]
  · rfl

@[simp] theorem giveStripe_layout (row slot rank s r) : layout (giveStripe row slot rank s r d) = layout d := by
  unfold giveStripe
  split
  · exact congrArg (fun f => { layout d with members := f }) (stripe_members d.maps row slot s rank)
  · simp

@[simp] theorem stripeFor_layout (row slot rank r) : layout (stripeFor row slot rank r d).2 = layout d := by
  unfold stripeFor
  split <;> simp

@[simp] theorem programsFor_layout (row s b r) : layout (programsFor row s b r d) = layout d := by simp [programsFor]

@[simp] theorem placeBlock_layout (row slot o pos pay) : layout (placeBlock row slot o pos pay d) = layout d := by
  unfold placeBlock
  split <;> simp

@[simp] theorem fillStripe_layout (row slot plot first o) : layout (fillStripe row slot plot first o d) = layout d := by
  unfold fillStripe
  split <;> simp

@[simp] theorem fillNext_layout (row slot lba) : layout (fillNext row slot lba d) = layout d := by
  unfold fillNext
  split <;> simp

@[simp] theorem fillShare_layout (row slot plot first o) : layout (fillShare row slot plot first o d) = layout d := by simp [fillShare]
@[simp] theorem putFlash_layout (die bed s q c v) : layout (putFlash die bed s q c v d) = layout d := (rfl)

@[simp] theorem layColumn_layout (row s q c ds) : layout (layColumn row s q c ds d) = layout d := by
  unfold layColumn
  split <;> simp

@[simp] theorem loseValid_layout (row n) : layout (loseValid row n d) = layout d := by simp [loseValid]

/-! #### Tenants, zones -/

@[simp] theorem condemn_layout (row) : layout (condemn row d) = layout d := (rfl)

@[simp] theorem unclaim_layout (row slot) : layout (unclaim row slot d) = layout d := by
  unfold unclaim
  split
  · next r h => exact recordRow_layout d h rfl
  · rfl

@[simp] theorem dropCopy_layout (plot z) : layout (dropCopy plot z d) = layout d := by
  unfold dropCopy
  refine layout_forAll (fun e d => ?_) _ _
  dsimp only
  split
  · simp
  · simp

/-! #### The Almanac -/

@[simp] theorem onOp_layout (i f) : layout (onOp i f d) = layout d := (rfl)
@[simp] theorem holdBack_layout (i o) : layout (holdBack i o d) = layout d := by simp [holdBack]
@[simp] theorem blockDie_layout (o) : layout (blockDie o d) = layout d := (rfl)
@[simp] theorem countSense_layout (die bed n) : layout (countSense die bed n d) = layout d := by simp [countSense]
@[simp] theorem takeSlot_layout (o) : layout (takeSlot o d) = layout d := by simp [takeSlot]
@[simp] theorem hlCommand_layout (l target opc op bytes) : layout (hlCommand l target opc op bytes d).2 = layout d := layout_of_offLine (hlCommand_offLine ..)
@[simp] theorem hlData_layout (l target otag data) : layout (hlData l target otag data d) = layout d := layout_of_offLine (hlData_offLine ..)
@[simp] theorem pauseCommand_layout (opc i o) : layout (pauseCommand opc i o d) = layout d := layout_of_offLine (pauseCommand_offLine ..)
@[simp] theorem startOp_layout (i o) : layout (startOp i o d) = layout d := by simp [startOp]

@[simp] theorem almPump_layout (die) : layout (almPump die d) = layout d := by
  simp only [almPump]
  (repeat' split) <;> simp

@[simp] theorem pumpAll_layout : layout (pumpAll d) = layout d := by simp [pumpAll]

/-! #### Lost blocks -/

/-- A zone that gets another state, and is not made empty, stays where it is. -/
theorem putZone_places {key : Nat} {z v : Zone} (h : tget d.maps.zones key = some z) (hst : v.st ≠ .empty) (hp : v.place = z.place) :
    (layout (putZone (key / 2 ^ 32) (key % 2 ^ 32) v d)).places = (layout d).places := by
  have hkey : zkey (key / 2 ^ 32) (key % 2 ^ 32) = key := by unfold zkey; omega
  have hz : (fun k => (tget (tset d.maps.zones key v) k).map Zone.place) = fun k => (tget d.maps.zones k).map Zone.place := by
    funext k
    by_cases hk : k = key
    · subst hk; simp [h, hp]
    · simp [tget_tset_ne _ _ hk]
  rw [putZone, hkey, if_neg hst]
  exact congrArg (fun f => { (layout d).places with zone := f }) hz

@[simp] theorem zoneLost_places (key) : (layout (zoneLost key d)).places = (layout d).places := by
  simp only [zoneLost]
  split
  · rfl
  · next z h =>
    have hput : (layout (putZone (key / 2 ^ 32) (key % 2 ^ 32)
        { z with st := if z.st = .offline ∨ (decide (z.written ≤ lostOfZone d z) && decide (0 < z.written)) = true then .offline else .readOnly, lost := true } d)).places = (layout d).places :=
      putZone_places d h (by dsimp only; split <;> simp) rfl
    split
    · rw [fillShare_layout, hput]
    · exact hput

@[simp] theorem markLost_places (row s blocks) : (layout (markLost row s blocks d)).places = (layout d).places := by
  simp only [markLost]
  split
  · rfl
  · split <;> simp

@[simp] theorem holdOld_layout (key place) : layout (holdOld key place d) = layout d := (rfl)
@[simp] theorem holdPos_layout (row pos old) : layout (holdPos row pos old d) = layout d := (rfl)

/-! #### Moves -/

@[simp] theorem siblingSenses_layout (row bad) : layout (siblingSenses row bad d) = layout d := by
  unfold siblingSenses
  split <;> simp

@[simp] theorem layStripe_places (row slot rank blocks) : (layout (layStripe row slot rank blocks d)).places = (layout d).places := by
  unfold layStripe
  split <;> simp

@[simp] theorem layZone_places (c p bad) : (layout (layZone c p bad d)).places = (layout d).places := by
  unfold layZone
  split
  · rfl
  · exact places_forAll (fun _ _ => layStripe_places ..) _ _

@[simp] theorem tailBlocks_places (row slot from_ pays) : (layout (tailBlocks row slot from_ pays d)).places = (layout d).places := by
  simp only [tailBlocks, layout_forAll, placeBlock_layout, implies_true]
  rfl

@[simp] theorem endZone_places (c p tail) : (layout (endZone c p tail d)).places = (layout d).places := by
  unfold endZone
  split
  · rfl
  · dsimp only
    split
    · split <;> simp
    · simp

@[simp] theorem dropStripes_layout (row slot) : layout (dropStripes row slot d) = layout d := by simp [dropStripes]

@[simp] theorem copyPages_places (row pos die bed bad) : (layout (copyPages row pos die bed bad d)).places = (layout d).places := by
  simp only [copyPages]
  split
  · rfl
  refine places_forAll (fun s d => places_forAll (fun e d => ?_) _ _) _ _
  split
  · simp
  · simp only [markLost_places]
    split <;> simp

/-! #### Media -/

@[simp] theorem endXpl_layout (key) : layout (endXpl key d) = layout d := by
  simp only [endXpl]
  split <;> simp

@[simp] theorem graftDone_layout (plot) : layout (graftDone plot d) = layout d := by
  unfold graftDone
  split <;> simp

@[simp] theorem switchOver_layout (plot) : layout (switchOver plot d) = layout d := by
  unfold switchOver
  split <;> simp

@[simp] theorem passDone_layout (row r) : layout (passDone row r d) = layout d := by simp [passDone]

@[simp] theorem endPass_layout : layout (endPass d) = layout d := by
  unfold endPass
  (repeat' split) <;> simp

@[simp] theorem resumePrograms_layout (row pos) : layout (resumePrograms row pos d) = layout d := by
  unfold resumePrograms
  split <;> simp

end
end Sys2Proof.Machine

namespace Sys2Proof.Machine

/-! ### Zones that move (R246, R289) -/

section
variable {d : Dev} {s : State} {c : Copying} {p : Plot} {z : Zone} {bad : List Nat} {key tm : Nat}

/-- A zone that is there lies in another row and slot. -/
def Places.move (l : Places) (key row slot : Nat) : Places :=
  { l with zone := fun k => if k = key then (l.zone k).map fun x => (some row, slot, x.2.2) else l.zone k }

theorem recordMove_places (plot zone row slot src kind : Nat) (d : Dev) :
    (layout (record (.move plot zone row slot src kind) d)).places = (layout d).places.move (zkey plot zone) row slot := by
  refine congrArg (fun f => { (layout d).places with zone := f }) (funext fun k => ?_)
  show (tget (tmod d.maps.zones (zkey plot zone) _) k).map Zone.place = if k = zkey plot zone then ((tget d.maps.zones k).map Zone.place).map _ else (tget d.maps.zones k).map Zone.place
  split
  · next hk =>
    subst hk
    cases h : tget d.maps.zones (zkey plot zone) with
    | none => rw [tmod_none _ h, h]; rfl
    | some z => rw [tget_tmod_self _ h]; rfl
  · next hk => rw [tget_tmod_ne _ _ hk]

/-- The switch moves its zone, and no other. -/
theorem switchZone_places (c : Copying) (p : Plot) (bad : List Nat) (d : Dev) :
    (layout (switchZone c p bad d)).places = (layout d).places.move (zkey c.plot c.zone) c.dst c.slot := by
  simp only [switchZone]
  split_ifs <;> simp [recordMove_places]

theorem doCopy_places (hp : tget d.maps.plots c.plot = some p) (hreg : p.region = false) :
    (layout (doCopy key c bad d)).places =
      { (layout d).places.move (zkey c.plot c.zone) c.dst c.slot with weedBlk := d.med.weedBlk + validOf (zoneOf d c.plot c.zone) p } := by
  simp only [doCopy, hp, hreg, Bool.false_eq_true, if_false]
  exact switchZone_places ..

/-- What the places after a move say of the zone that moved. -/
theorem zone_moved {e : Dev} {row slot : Nat} (hz : tget d.maps.zones key = some z) (he : (layout e).places.zone = ((layout d).places.move key row slot).zone) :
    ∃ z', tget e.maps.zones key = some z' ∧ z'.row = some row ∧ z'.slot = slot ∧ z'.wp = z.wp := by
  have hk : (tget e.maps.zones key).map Zone.place = some (some row, slot, z.wp) := by
    refine (congrFun he key).trans ?_
    have hd : (layout d).places.zone key = some z.place := congrArg (Option.map Zone.place) hz
    simp [Places.move, hd, Zone.place]
  obtain ⟨z', hz', hplace⟩ := Option.map_eq_some_iff.1 hk
  obtain ⟨hrow, hslot, hwp⟩ : z'.row = some row ∧ z'.slot = slot ∧ z'.wp = z.wp := by simpa [Zone.place] using hplace
  exact ⟨z', hz', hrow, hslot, hwp⟩

/-! #### WEED_SWITCH -/

theorem weedSwitch_eq {row k : Nat} (hrow : d.med.weedRow = some row) (hc : (tfind d.med.copies fun k c => decide (c.src = row) && copied d k c) = some (k, c)) :
    weedSwitch bad d = switchOver c.plot (endPass (doCopy k c bad d)) := by
  simp only [weedSwitch, hrow, hc]

theorem exec_weedSwitch (hup : mainUp s.dev = true) : exec (.weedSwitch bad tm) s = .next { s with dev := pumpAll (weedSwitch bad (tick tm s.dev)) } := by
  show execWeedSwitch bad tm s = _
  simp only [execWeedSwitch, on_next, hup, onlyIf_true]

/-- O15's clause of WEED_SWITCH (R246). -/
theorem weedSwitch_moves {row k : Nat} (hup : mainUp s.dev = true) (hrow : s.dev.med.weedRow = some row)
    (hc : (tfind s.dev.med.copies fun k c => decide (c.src = row) && copied s.dev k c) = some (k, c)) (hp : tget s.dev.maps.plots c.plot = some p) (hreg : p.region = false)
    (hz : tget s.dev.maps.zones (zkey c.plot c.zone) = some z) :
    ∃ t z', exec (.weedSwitch bad tm) s = .next t ∧ tget t.dev.maps.zones (zkey c.plot c.zone) = some z' ∧ z'.row = some c.dst ∧ z'.slot = c.slot ∧ z'.wp = z.wp ∧
      t.dev.med.weedBlk = s.dev.med.weedBlk + validOf z p := by
  have hplaces : (layout (pumpAll (weedSwitch bad (tick tm s.dev)))).places =
      { (layout s.dev).places.move (zkey c.plot c.zone) c.dst c.slot with weedBlk := s.dev.med.weedBlk + validOf z p } := by
    have hzone : zoneOf s.dev c.plot c.zone = z := by simp [zoneOf, tgetD, hz]
    rw [weedSwitch_eq (d := tick tm s.dev) hrow hc, pumpAll_layout, switchOver_layout, endPass_layout, doCopy_places (d := tick tm s.dev) hp hreg, ← hzone]
    rfl
  have hzones := congrArg Places.zone hplaces
  obtain ⟨z', hz', hrow', hslot, hwp⟩ := zone_moved hz hzones
  exact ⟨_, z', exec_weedSwitch hup, hz', hrow', hslot, hwp, congrArg Places.weedBlk hplaces⟩

/-! #### GRAFT_ZONE_SWITCH -/

theorem exec_graftZoneSwitch {plot zone : Nat} (hup : mainUp s.dev = true) (hc : tget s.dev.med.copies (zkey plot zone) = some c) (hsrc : s.dev.med.weedRow ≠ some c.src) :
    exec (.graftZoneSwitch plot zone bad tm) s = .next { s with dev := pumpAll (graftSwitch (zkey plot zone) c bad (tick tm s.dev)) } := by
  show execGraftZoneSwitch plot zone bad tm s = _
  simp only [execGraftZoneSwitch, on_next, hc, withSome_some, hup, hsrc, ne_eq, not_false_eq_true, decide_true, Bool.and_self, onlyIf_true]

/-- A copy of a zone that is as it was when the copy began takes effect; another is discarded. -/
theorem graftSwitch_eq (hc : copied d key c = true) (hz : tget d.maps.zones (zkey c.plot c.zone) = some z) (hzone : c.zone < 2 ^ 31) :
    graftSwitch key c bad d = if z.wp ≠ c.wp ∨ z.st ≠ c.st then dropCopy c.plot c.zone d else switchOver c.plot (doCopy key c bad d) := by
  have hz' : zoneOf d c.plot c.zone = z := by simp [zoneOf, tgetD, hz]
  simp only [graftSwitch, hc, hz', hzone, true_and, Bool.not_true, Bool.false_eq_true, if_false]

/-- O15's clause of GRAFT_ZONE_SWITCH (R289). -/
theorem graftZoneSwitch_moves {plot zone : Nat} (hup : mainUp s.dev = true) (hc : tget s.dev.med.copies (zkey plot zone) = some c) (hplot : c.plot = plot) (hcz : c.zone = zone)
    (hzone : zone < 2 ^ 31) (hsrc : s.dev.med.weedRow ≠ some c.src) (hcopied : copied s.dev (zkey plot zone) c = true) (hp : tget s.dev.maps.plots plot = some p)
    (hreg : p.region = false) (hz : tget s.dev.maps.zones (zkey plot zone) = some z) :
    ∃ t z', exec (.graftZoneSwitch plot zone bad tm) s = .next t ∧ tget t.dev.maps.zones (zkey plot zone) = some z' ∧ z'.wp = z.wp ∧
      (z.wp = c.wp → z.st = c.st → z'.row = some c.dst ∧ z'.slot = c.slot) ∧ (z.wp ≠ c.wp ∨ z.st ≠ c.st → z' = z ∧ t.dev.clo = s.dev.clo) := by
  subst hplot hcz
  have hexec := exec_graftZoneSwitch (bad := bad) (tm := tm) hup hc hsrc
  rw [graftSwitch_eq (d := tick tm s.dev) hcopied hz hzone] at hexec
  by_cases hchanged : z.wp ≠ c.wp ∨ z.st ≠ c.st
  · rw [if_pos hchanged] at hexec
    have hlay : layout (pumpAll (dropCopy c.plot c.zone (tick tm s.dev))) = layout s.dev := by simp
    have hzones := congrArg Layout.zones hlay
    refine ⟨_, z, hexec, (congrArg (tget · (zkey c.plot c.zone)) hzones).trans hz, rfl, fun hwp hst => ?_, fun _ => ⟨rfl, congrArg Layout.clo hlay⟩⟩
    exact absurd hchanged (by simp [hwp, hst])
  · rw [if_neg hchanged] at hexec
    have hplaces : (layout (pumpAll (switchOver c.plot (doCopy (zkey c.plot c.zone) c bad (tick tm s.dev))))).places.zone = ((layout s.dev).places.move (zkey c.plot c.zone) c.dst c.slot).zone := by
      rw [pumpAll_layout, switchOver_layout, doCopy_places (d := tick tm s.dev) hp hreg]
      rfl
    obtain ⟨z', hz', hrow, hslot, hwp⟩ := zone_moved hz hplaces
    exact ⟨_, z', hexec, hz', hwp, fun _ _ => ⟨hrow, hslot⟩, fun h => absurd h hchanged⟩

end

/-- Settles O15: a switch changes the places of the map by one move, and a discarded copy leaves the whole layout. -/
theorem zoneMovesSwitch : Obligations.ZoneMovesSwitch := by
  unfold Obligations.ZoneMovesSwitch
  exact ⟨fun s bad tm row k c p z hup hrow hc hp hreg hz => weedSwitch_moves hup hrow hc hp hreg hz,
    fun s plot zone bad tm c p z hup hc hplot hcz hzone hsrc hcopied hp hreg hz => graftZoneSwitch_moves hup hc hplot hcz hzone hsrc hcopied hp hreg hz⟩

end Sys2Proof.Machine

namespace Sys2Proof.Machine

/-! ### Fresh beds (R252, R279) -/

section
variable {d e : Dev} {s : State} {r : Row} {x : Xpl} {b : Rebuild} {bad : List Nat} {row pos tm : Nat}

/-- A position of a row that is there gets another bed. -/
def Places.seat (l : Places) (row pos : Nat) (bed : Nat × Nat) : Places :=
  { l with members := fun j => if j = row then (l.members j).map fun ps => ps.set pos bed else l.members j }

theorem recordPos_places (row pos die bed : Nat) (old : Nat × Nat) (d : Dev) :
    (layout (record (.pos row pos die bed old) d)).places = (layout d).places.seat row pos (die, bed) := by
  refine congrArg (fun f => { (layout d).places with members := f }) (funext fun j => ?_)
  show (tget (tmod d.maps.rows row _) j).map (·.pos) = if j = row then ((tget d.maps.rows j).map (·.pos)).map _ else (tget d.maps.rows j).map (·.pos)
  split
  · next hj =>
    subst hj
    cases h : tget d.maps.rows j with
    | none => rw [tmod_none _ h, h]; rfl
    | some r => rw [tget_tmod_self _ h]; rfl
  · next hj => rw [tget_tmod_ne _ _ hj]

theorem places_old (d : Dev) : (layout d).places.old = d.med.old := rfl
theorem places_rebuilt (d : Dev) : (layout d).places.rebuilt = d.med.rebuilt := rfl

/-- Installing a bed gives it its position, and moves nothing else. -/
theorem installBed_places (row pos die bed : Nat) (d : Dev) : (layout (installBed row pos die bed d)).places = (layout d).places.seat row pos (die, bed) := by
  simp only [installBed]
  split
  · split_ifs <;> simp [recordPos_places]
  · exact recordPos_places ..

theorem oldBed_places (row die bed cause : Nat) (next : BState) (d : Dev) :
    (layout (oldBed row die bed cause next d)).places = { (layout d).places with old := (layout d).places.old ++ [{ row := row, die := die, bed := bed, next := next, cause := cause }] } := rfl

theorem clearFix_layout (key : Nat) (d : Dev) : layout (if thas d.maps.fixes key then record (.fix key []) d else d) = layout d := by simp

/-- What the places after an installation say of the row. -/
theorem row_seated {bed : Nat × Nat} (hr : rowAt d row = some r) (hpos : pos < r.pos.length) (he : (layout e).places.members = ((layout d).places.seat row pos bed).members) :
    ∃ r', rowAt e row = some r' ∧ r'.dieBed pos = bed ∧ ∀ i, i ≠ pos → r'.dieBed i = r.dieBed i := by
  have hrow : (rowAt e row).map (·.pos) = some (r.pos.set pos bed) := by
    refine (congrFun he row).trans ?_
    have hd : (layout d).places.members row = some r.pos := congrArg (Option.map Row.pos) hr
    simp [Places.seat, hd]
  obtain ⟨r', hr', hp⟩ := Option.map_eq_some_iff.1 hrow
  refine ⟨r', hr', ?_, fun i hi => ?_⟩
  · simp [Row.dieBed, hp, hpos]
  · simp [Row.dieBed, hp, List.getElem?_set_ne (Ne.symm hi)]

/-! #### TRANSPLANT_SWITCH -/

/-- The fresh bed stands in the position; the old one, not Suspect, is to be Released. -/
theorem transplantSwitch_places (hst : (bedOf d (r.dieBed pos).1 (r.dieBed pos).2).st ≠ .suspect) :
    (layout (transplantSwitch row pos x r bad d)).places.members = ((layout d).places.seat row pos (x.die, x.bed)).members ∧
    (transplantSwitch row pos x r bad d).med.old = d.med.old ++ [{ row := row, die := (r.dieBed pos).1, bed := (r.dieBed pos).2, next := .released, cause := 1 }] := by
  have hcount (e : Dev) (l : List Nat) : layout { e with med := { e.med with xplCnt := l } } = layout e := rfl
  rw [← places_old, ← places_old d]
  simp only [transplantSwitch, hst, decide_false, Bool.false_eq_true, if_false, oldBed_places, hcount, clearFix_layout, installBed_places, endXpl_layout, holdPos_layout, copyPages_places,
    siblingSenses_layout]
  exact ⟨trivial, rfl⟩

theorem exec_transplantSwitch (hup : mainUp s.dev = true) (hx : tget s.dev.med.xpls (pkey row pos) = some x) (hr : rowAt s.dev row = some r) (hn : pos < r.n)
    (hrun : x.running = true) (hwr : x.writing = true) (hready : readyToWrite s.dev (.xpl (pkey row pos)) x.die x.bed = true) :
    exec (.transplantSwitch row pos bad tm) s = .next { s with dev := pumpAll (transplantSwitch row pos x r bad (tick tm s.dev)) } := by
  have hr' : rowAt (tick tm s.dev) row = some r := hr
  have hup' : mainUp (tick tm s.dev) = true := hup
  have hready' : readyToWrite (tick tm s.dev) (.xpl (pkey row pos)) x.die x.bed = true := hready
  show execTransplantSwitch row pos bad tm s = _
  simp only [execTransplantSwitch, on_next, hx, hr', withSome_some, hup', hn, hrun, hwr, hready', decide_true, Bool.and_self, onlyIf_true]

/-- O16's clause of TRANSPLANT_SWITCH (R252). -/
theorem transplantSwitch_installs (hup : mainUp s.dev = true) (hx : tget s.dev.med.xpls (pkey row pos) = some x) (hr : rowAt s.dev row = some r) (hn : pos < r.n)
    (hpos : pos < r.pos.length) (hrun : x.running = true) (hwr : x.writing = true) (hready : readyToWrite s.dev (.xpl (pkey row pos)) x.die x.bed = true)
    (hst : (bedOf s.dev (r.dieBed pos).1 (r.dieBed pos).2).st ≠ .suspect) :
    ∃ t r', exec (.transplantSwitch row pos bad tm) s = .next t ∧ rowAt t.dev row = some r' ∧ r'.dieBed pos = (x.die, x.bed) ∧ (∀ i, i ≠ pos → r'.dieBed i = r.dieBed i) ∧
      t.dev.med.old = s.dev.med.old ++ [{ row := row, die := (r.dieBed pos).1, bed := (r.dieBed pos).2, next := .released, cause := 1 }] := by
  obtain ⟨hmembers, hold⟩ := transplantSwitch_places (d := tick tm s.dev) (row := row) (x := x) (bad := bad) hst
  rw [← pumpAll_layout] at hmembers
  rw [← places_old, ← pumpAll_layout, places_old] at hold
  obtain ⟨r', hr', hseat, hothers⟩ := row_seated (d := s.dev) hr hpos hmembers
  have hexec := exec_transplantSwitch (bad := bad) (tm := tm) hup hx hr hn hrun hwr hready
  generalize pumpAll _ = e at hexec hr' hold
  exact ⟨_, r', hexec, hr', hseat, hothers, hold⟩

/-! #### REBUILD_REPLACE -/

/-- The replacement stands in the position, and the rebuild is counted; whether the old bed waits to be freed depends on it. -/
theorem rebuildReplace_places : (layout (rebuildReplace row pos b r bad d)).places.members = ((layout d).places.seat row pos (b.die, b.bed)).members ∧
    (rebuildReplace row pos b r bad d).med.rebuilt = satInc 32 d.med.rebuilt := by
  have hcopy : (layout (holdPos row pos none (copyPages row pos b.die b.bed bad (siblingSenses row bad d)))).places = (layout d).places := by simp
  have hcount (e : Dev) (l : Tbl Rebuild) (n : Nat) : (layout { e with med := { e.med with rebuilds := l, rebuilt := n } }).places = { (layout e).places with rebuilt := n } := rfl
  rw [← places_rebuilt, ← places_rebuilt d]
  simp only [rebuildReplace, layout_forAll, queueXpl_layout, resumePrograms_layout, implies_true]
  generalize holdPos row pos none _ = e at hcopy ⊢
  rw [← hcopy]
  split_ifs
  · rw [installBed_places, hcount]
    exact ⟨rfl, rfl⟩
  · rw [oldBed_places, installBed_places, hcount]
    exact ⟨rfl, rfl⟩

theorem exec_rebuildReplace (hup : mainUp s.dev = true) (hb : tget s.dev.med.rebuilds (pkey row pos) = some b) (hr : rowAt s.dev row = some r) (hn : pos < r.n)
    (hrun : b.running = true) (hwr : b.writing = true) (hready : readyToWrite s.dev (.rebuild (pkey row pos)) b.die b.bed = true) :
    exec (.rebuildReplace row pos bad tm) s = .next { s with dev := pumpAll (rebuildReplace row pos b r bad (tick tm s.dev)) } := by
  have hr' : rowAt (tick tm s.dev) row = some r := hr
  have hup' : mainUp (tick tm s.dev) = true := hup
  have hready' : readyToWrite (tick tm s.dev) (.rebuild (pkey row pos)) b.die b.bed = true := hready
  show execRebuildReplace row pos bad tm s = _
  simp only [execRebuildReplace, on_next, hb, hr', withSome_some, hup', hn, hrun, hwr, hready', decide_true, Bool.and_self, onlyIf_true]

/-- O16's clause of REBUILD_REPLACE (R279). -/
theorem rebuildReplace_installs (hup : mainUp s.dev = true) (hb : tget s.dev.med.rebuilds (pkey row pos) = some b) (hr : rowAt s.dev row = some r) (hn : pos < r.n)
    (hpos : pos < r.pos.length) (hrun : b.running = true) (hwr : b.writing = true) (hready : readyToWrite s.dev (.rebuild (pkey row pos)) b.die b.bed = true) :
    ∃ t r', exec (.rebuildReplace row pos bad tm) s = .next t ∧ rowAt t.dev row = some r' ∧ r'.dieBed pos = (b.die, b.bed) ∧ (∀ i, i ≠ pos → r'.dieBed i = r.dieBed i) ∧
      t.dev.med.rebuilt = satInc 32 s.dev.med.rebuilt := by
  obtain ⟨hmembers, hcount⟩ := rebuildReplace_places (d := tick tm s.dev) (row := row) (pos := pos) (b := b) (r := r) (bad := bad)
  rw [← pumpAll_layout] at hmembers
  rw [← places_rebuilt, ← pumpAll_layout, places_rebuilt] at hcount
  obtain ⟨r', hr', hseat, hothers⟩ := row_seated (d := s.dev) hr hpos hmembers
  have hexec := exec_rebuildReplace (bad := bad) (tm := tm) hup hb hr hn hrun hwr hready
  generalize pumpAll _ = e at hexec hr' hcount
  exact ⟨_, r', hexec, hr', hseat, hothers, hcount⟩

end
end Sys2Proof.Machine

namespace Sys2Proof.Machine

/-! ### Rows that are freed (R242) -/

section
variable {d e : Dev} {s : State} {ps : List (Nat × Nat)} {old : List OldBed} {row tm : Nat} {r : Row}

/-- What reads of a bed give after it changed. -/
theorem bedOf_putBed (die bed : Nat) (f : Bed → Bed) (d : Dev) (die' bed' : Nat) :
    bedOf (putBed die bed f d) die' bed' = if bkey die' bed' = bkey die bed then f (bedOf d die bed) else bedOf d die' bed' := by
  show (tget (tset d.maps.beds (bkey die bed) _) (bkey die' bed')).getD newBed = _
  rw [tget_tset]
  split <;> rfl

/-- May a bed of a row that is freed be Released: neither Retired nor Suspect? -/
def Bed.usable (b : Bed) : Prop := b.st ≠ .retired ∧ b.st ≠ .suspect

/-- No rebuild runs, these beds wait to be freed, and beds of the row are in service and usable. -/
structure Draining (ps : List (Nat × Nat)) (old : List OldBed) (d : Dev) : Prop where
  rebuilds : d.med.rebuilds = []
  old : d.med.old = old
  inService : ∀ p ∈ ps, dieFailed d p.1 = false
  usable : ∀ p ∈ ps, (bedOf d p.1 p.2).usable

namespace Draining

theorem putBed {f : Bed → Bed} {die bed : Nat} (h : Draining ps old d) (hf : ∀ b, b.usable → (f b).usable) : Draining ps old (putBed die bed f d) where
  rebuilds := h.rebuilds
  old := h.old
  inService := h.inService
  usable p hp := by
    rw [bedOf_putBed]
    split
    · next hk =>
      have hb := h.usable p hp
      rw [bedOf, hk] at hb
      exact hf _ hb
    · exact h.usable p hp

theorem record {rec : JRec} (hb : (applyRec rec d.maps).beds = d.maps.beds) (hs : (applyRec rec d.maps).dieSvc = d.maps.dieSvc) (h : Draining ps old d) : Draining ps old (record rec d) where
  rebuilds := h.rebuilds
  old := h.old
  inService p hp := by
    have := h.inService p hp
    simp only [dieFailed, (record_spec rec d).1, record_med, hs] at this ⊢
    exact this
  usable p hp := by
    have := h.usable p hp
    simp only [bedOf, (record_spec rec d).1, hb] at this ⊢
    exact this

theorem records (ks : List Nat) (f : Nat → JRec) (hf : ∀ k m, (applyRec (f k) m).beds = m.beds ∧ (applyRec (f k) m).dieSvc = m.dieSvc) (h : Draining ps old d) :
    Draining ps old (forAll ks (fun k => Machine.record (f k)) d) :=
  forAll_keeps ks d h fun k _ d h => h.record (hf k d.maps).1 (hf k d.maps).2

theorem dropFresh (die bed : Nat) (h : Draining ps old d) : Draining ps old (dropFresh die bed d) := by
  unfold Machine.dropFresh
  split
  · exact h
  · have herase (l : List (Nat × Nat)) : Draining ps old { d with med := { d.med with toErase := l } } := ⟨h.rebuilds, h.old, h.inService, h.usable⟩
    refine (herase _).putBed fun b hb => ?_
    simp [Bed.usable, hb.1]

theorem endXpl (key : Nat) (h : Draining ps old d) : Draining ps old (endXpl key d) := by
  have hdrop : Draining ps old (dropWork (.xpl key) { d with med := { d.med with xpls := tdel d.med.xpls key } }) := ⟨h.rebuilds, h.old, h.inService, h.usable⟩
  simp only [Machine.endXpl]
  split
  · split
    · exact hdrop.putBed fun b hb => hb
    · exact hdrop
  · exact hdrop

theorem dropXpl (key : Nat) (h : Draining ps old d) : Draining ps old (dropXpl key d) := by
  unfold Machine.dropXpl
  split
  · split
    · exact (h.dropFresh ..).endXpl key
    · exact h.endXpl key
  · exact h

theorem dropXpls (row : Nat) (h : Draining ps old d) : Draining ps old (dropXpls row d) :=
  forAll_keeps _ d h fun key _ _ h => h.dropXpl key

end Draining

/-- A bed of a row that waits to be Released. -/
def releasedFrom (row : Nat) (p : Nat × Nat) : OldBed := { row := row, die := p.1, bed := p.2, next := .released, cause := 1 }

/-- The beds of a row whose beds are usable wait to be Released. -/
theorem Draining.listBeds {qs : List (Nat × Nat)} (hsub : ∀ p ∈ qs, p ∈ ps) (h : Draining ps old d) :
    Draining ps (old ++ qs.map (releasedFrom row)) (forAll qs (fun p d =>
      let b := bedOf d p.1 p.2
      if b.st = .retired then d else oldBed row p.1 p.2 1 (if b.st = .suspect then .retired else .released) d) d) := by
  induction qs generalizing d old with
  | nil => simpa using h
  | cons p qs ih =>
    obtain ⟨hret, hsus⟩ := h.usable p (hsub p (by simp))
    have hp : Draining ps (old ++ [releasedFrom row p]) (oldBed row p.1 p.2 1 .released d) := ⟨h.rebuilds, by rw [← h.old]; rfl, h.inService, h.usable⟩
    have := ih (fun q hq => hsub q (by simp [hq])) hp
    simpa [hret, hsus] using this

/-- A row is out of the row table by a journal record, and no longer waits for its reads. -/
structure Gone (row : Nat) (d : Dev) : Prop where
  left : row ∉ d.med.oldRows
  logged : ∃ n, (n, JRec.row row none) ∈ d.jnl.tail

theorem Gone.record (rec : JRec) (h : Gone row d) : Gone row (record rec d) :=
  ⟨h.left, h.logged.imp fun _ hn => List.mem_append_left _ hn⟩

/-- A row is gone, and its beds are Released. -/
structure Freed (row : Nat) (ps : List (Nat × Nat)) (d : Dev) : Prop extends Gone row d where
  beds : ∀ p ∈ ps, (bedOf d p.1 p.2).st = .released

theorem freeBed_gone {o : OldBed} (hn : o.next = .released) (h : Gone row d) : Gone row (freeBed o d) := by
  have hput {e : Dev} (he : Gone row e) : Gone row (putBed o.die o.bed (fun b => { b with st := .released, slc := false, row := 0, pos := 0 }) (clearFlash o.die o.bed e)) :=
    .record _ (d := clearFlash o.die o.bed e) ⟨he.left, he.logged⟩
  simp only [freeBed, hn, reduceCtorEq, if_false]
  split
  · exact hput (h.record _)
  · exact hput h

/-- A bed that leaves service is Released, and others stay as they are. -/
theorem freeBed_st {o : OldBed} (hn : o.next = .released) (die bed : Nat) :
    (bedOf (freeBed o d) die bed).st = if bkey die bed = bkey o.die o.bed then .released else (bedOf d die bed).st := by
  simp only [freeBed, hn, reduceCtorEq, if_false, bedOf_putBed]
  split
  · rfl
  · split <;> rfl

/-- Freeing beds Releases each, and those that are Released stay so. -/
theorem freeBeds_freed {done : List (Nat × Nat)} (h : Freed row done d) : Freed row (done ++ ps) (forAll (ps.map (releasedFrom row)) freeBed d) := by
  induction ps generalizing d done with
  | nil => simpa using h
  | cons p ps ih =>
    have hp : Freed row (done ++ [p]) (freeBed (releasedFrom row p) d) := by
      refine ⟨freeBed_gone rfl h.toGone, fun q hq => ?_⟩
      rw [freeBed_st rfl]
      split
      · rfl
      · next hk =>
        refine h.beds q ((List.mem_append.1 hq).resolve_right fun hq => hk ?_)
        rw [List.mem_singleton.1 hq]
        rfl
    simpa using ih hp

theorem freeOld_freed (h : Draining ps (ps.map (releasedFrom row)) d) (hg : Gone row d) : Freed row ps (freeOld row d) := by
  have hgo : (d.med.old.filter fun o => decide (o.row = row) && dieFreed d o.die) = ps.map (releasedFrom row) := by
    rw [h.old, List.filter_eq_self]
    intro o ho
    obtain ⟨p, hp, rfl⟩ := List.mem_map.1 ho
    simp [releasedFrom, dieFreed, h.inService p hp, h.rebuilds]
  have hfreed (l : List OldBed) : Freed row ps (forAll (ps.map (releasedFrom row)) freeBed { d with med := { d.med with old := l } }) :=
    freeBeds_freed (done := []) ⟨⟨hg.left, hg.logged⟩, by simp⟩
  simp only [freeOld, hgo]
  split
  · exact hfreed _
  · exact ⟨⟨(hfreed _).left, (hfreed _).logged⟩, (hfreed _).beds⟩

theorem freeRow_freed (h : Draining r.pos [] d) : Freed row r.pos (freeRow row r d) := by
  unfold freeRow
  extract_lets +onlyGivenNames dropped listed found unspilled unslotted logged
  have hdropped : Draining r.pos [] dropped := by
    simp only [dropped, h.rebuilds, List.filter_nil, List.map_nil, forAll_nil]
    exact h.dropXpls row
  have hlisted : Draining r.pos (r.pos.map (releasedFrom row)) listed := by simpa using hdropped.listBeds (row := row) fun _ hp => hp
  have hfound : Draining r.pos (r.pos.map (releasedFrom row)) found := hlisted.records _ (.lost · []) fun _ _ => ⟨rfl, rfl⟩
  have hunspilled : Draining r.pos (r.pos.map (releasedFrom row)) unspilled := hfound.records _ (.spill · none 0) fun _ _ => ⟨rfl, rfl⟩
  have hunslotted : Draining r.pos (r.pos.map (releasedFrom row)) unslotted := hunspilled.records _ (.rslot · none) fun _ _ => ⟨rfl, rfl⟩
  clear_value unslotted
  have hlogged : Draining r.pos (r.pos.map (releasedFrom row)) logged := hunslotted.record rfl rfl
  refine freeOld_freed ⟨hlogged.rebuilds, hlogged.old, hlogged.inService, hlogged.usable⟩ ⟨?_, _, List.mem_append_right _ (List.mem_singleton_self _)⟩
  show row ∉ logged.med.oldRows.filter fun x => decide (x ≠ row)
  simp

theorem graftDone_freed (plot : Nat) (h : Freed row ps d) : Freed row ps (graftDone plot d) := by
  unfold graftDone
  split
  · split
    · have hrec := h.toGone.record (.graft plot none 0)
      exact ⟨⟨hrec.left, hrec.logged⟩, h.beds⟩
    · exact h
  · exact h

theorem queueErase_freed (die bed level : Nat) (h : Freed row ps d) : Freed row ps (queueErase die bed level d) := by
  unfold queueErase
  split
  · exact h
  · exact ⟨⟨h.left, h.logged⟩, h.beds⟩

theorem rescueDrain_freed (h : Freed row ps d) : Freed row ps (rescueDrain d) := by
  refine forAll_keeps _ d h fun e _ d h => ?_
  refine forAll_keeps _ _ ?_ fun p _ d h => queueErase_freed _ _ _ h
  have hrec := h.toGone.record (.row e.1 (some { e.2 with valid := 0, assigned := [[]] }))
  exact ⟨⟨hrec.left, hrec.logged⟩, h.beds⟩

/-- The reads of an old row are done: the row is gone, and its beds are Released. -/
theorem rowReadsDrained_freed (hold : d.med.oldRows.contains row = true) (hr : rowAt d row = some r) (h : Draining r.pos [] d) : Freed row r.pos (rowReadsDrained row d) := by
  simp only [rowReadsDrained, hold, hr]
  exact rescueDrain_freed (graftDone_freed _ (freeRow_freed h))

theorem exec_rowReadsDrained (hup : mainUp s.dev = true) (hreads : readsHold s.dev row = false) (hold : s.dev.med.oldRows.contains row = true) :
    exec (.rowReadsDrained row tm) s = .next { s with dev := rowReadsDrained row (tick tm s.dev) } := by
  show execRowReadsDrained row tm s = _
  simp only [execRowReadsDrained, on_next, hup, hreads, hold, Bool.not_false, Bool.true_or, Bool.and_self, onlyIf_true]

/-- O16's clause of ROW_READS_DRAINED (R242). -/
theorem rowReadsDrained_frees (hup : mainUp s.dev = true) (hreads : readsHold s.dev row = false) (hold : s.dev.med.oldRows.contains row = true) (hr : rowAt s.dev row = some r)
    (hnone : s.dev.med.old = []) (hreb : s.dev.med.rebuilds = [])
    (hbeds : ∀ p ∈ r.pos, dieFailed s.dev p.1 = false ∧ (bedOf s.dev p.1 p.2).st ≠ .retired ∧ (bedOf s.dev p.1 p.2).st ≠ .suspect) :
    ∃ t, exec (.rowReadsDrained row tm) s = .next t ∧ t.dev.med.oldRows.contains row = false ∧ (∃ n, (n, JRec.row row none) ∈ t.dev.jnl.tail) ∧
      ∀ p ∈ r.pos, (bedOf t.dev p.1 p.2).st = .released := by
  have hdrain : Draining r.pos [] (tick tm s.dev) := ⟨hreb, hnone, fun p hp => (hbeds p hp).1, fun p hp => (hbeds p hp).2⟩
  have hfreed := rowReadsDrained_freed (d := tick tm s.dev) hold hr hdrain
  exact ⟨_, exec_rowReadsDrained hup hreads hold, by simpa using hfreed.left, hfreed.logged, hfreed.beds⟩

end
end Sys2Proof.Machine

namespace Sys2Proof.Machine

/-! ### Patrol (R284, R286) -/

section
variable {d e : Dev} {s : State} {m : Med} {r : Row} {bits : List (List Nat)} {row stripe tm : Nat}

/-- A read, started, counts against its bed; without reads, what the Almanac starts leaves media management as it is. `Quiet m d`: no read is queued, and media management is as `m`. -/
structure Quiet (m : Med) (d : Dev) : Prop where
  med : d.med = m
  noReads : ∀ o ∈ d.alm.ops, o.2.kind ≠ .readPage

theorem mem_tset_cases {α : Type} {k : Nat} {v : α} {x : Nat × α} : ∀ {t : Tbl α}, x ∈ tset t k v → x = (k, v) ∨ x ∈ t
  | [], h => .inl (by simpa [tset] using h)
  | (i, w) :: t, h => by
    unfold tset at h
    split at h
    · simpa using h
    · split at h
      · rcases List.mem_cons.1 h with h | h
        · exact .inl h
        · exact .inr (List.mem_cons_of_mem _ h)
      · rcases List.mem_cons.1 h with rfl | h
        · exact .inr (by simp)
        · exact (mem_tset_cases h).imp id (List.mem_cons_of_mem _)

namespace Quiet

theorem of_offLine (h : Quiet m d) (he : offLine e = offLine d) : Quiet m e :=
  ⟨(congrArg Dev.med he).trans h.med, fun o ho => h.noReads o ((congrArg (fun x => x.alm.ops) he :) ▸ ho)⟩

theorem onOp {f : DieOp → DieOp} (hf : ∀ o, (f o).kind = o.kind) (i : Nat) (h : Quiet m d) : Quiet m (onOp i f d) where
  med := h.med
  noReads x hx := by
    change x ∈ tmod d.alm.ops i f at hx
    cases hi : tget d.alm.ops i with
    | none => exact h.noReads x (by rwa [tmod_none f hi] at hx)
    | some o =>
      rw [tmod, hi] at hx
      rcases mem_tset_cases hx with rfl | hx
      · exact (hf o).symm ▸ h.noReads _ (mem_of_tget hi)
      · exact h.noReads x hx

theorem holdBack (i : Nat) (o : DieOp) (h : Quiet m d) : Quiet m (holdBack i o d) := by
  unfold Machine.holdBack
  split
  · exact h
  · exact Quiet.onOp (d := { d with alm := { d.alm with gateWait := satInc 32 d.alm.gateWait } }) (f := fun o => { o with gated := true }) (fun _ => rfl) i ⟨h.med, h.noReads⟩

theorem blockDie (o : DieOp) (h : Quiet m d) : Quiet m (blockDie o d) := ⟨h.med, h.noReads⟩

theorem takeSlot (o : DieOp) (h : Quiet m d) : Quiet m (takeSlot o d) := by
  unfold Machine.takeSlot
  split
  · exact ⟨h.med, h.noReads⟩
  · exact h

theorem pauseCommand (opc i : Nat) (o : DieOp) (h : Quiet m d) : Quiet m (pauseCommand opc i o d) := h.of_offLine (pauseCommand_offLine ..)

theorem startOp {o : DieOp} (hk : o.kind ≠ .readPage) (i : Nat) (h : Quiet m d) : Quiet m (startOp i o d) := by
  have hsent := (h.takeSlot o).onOp (f := fun x => { x with sent := true, gated := false, since := (Machine.takeSlot o d).io.now }) (fun _ => rfl) i
  simp only [Machine.startOp, if_neg hk]
  refine blockDie o ?_
  split
  · exact hsent.of_offLine (hlCommand_offLine ..)
  · exact hsent.of_offLine ((hlData_offLine ..).trans (hlCommand_offLine ..))

theorem almPump (die : Nat) (h : Quiet m d) : Quiet m (almPump die d) := by
  have hbest {e : Dev} {p : Nat → DieOp → Bool} {x : Nat × DieOp} (hx : bestOp e (tfilter (waitingOps d die) p) = some x) : x.2.kind ≠ .readPage :=
    h.noReads x (List.mem_of_mem_filter (List.mem_of_mem_filter (mem_sortBy.1 (List.mem_of_head? hx))))
  simp only [Machine.almPump]
  split
  · exact h
  split
  · split
    · exact (h.onOp (f := fun o => { o with suspending := true }) (fun _ => rfl) _).pauseCommand ..
    · exact h
  split
  · next i o _ =>
    split
    · exact ((h.onOp (f := fun o => { o with suspended := false, gated := false, since := d.io.now }) (fun _ => rfl) _).blockDie o).pauseCommand ..
    · have hheld (c : Prop) [Decidable c] : Quiet m (if c then Machine.holdBack i o d else d) := by
        split
        · exact h.holdBack i o
        · exact h
      split
      · next hx => exact (hheld _).startOp (hbest hx) _
      · exact hheld _
  · have hstart {e : Dev} (he : Quiet m e) : Quiet m (match bestOp e (tfilter (waitingOps d die) fun _ o => mayStart e o) with | some (j, q) => Machine.startOp j q e | none => e) := by
      split
      · next hx => exact he.startOp (hbest hx) _
      · exact he
    refine hstart ?_
    split
    · split
      · exact h.holdBack ..
      · exact h
    · exact h

theorem pumpAll (h : Quiet m d) : Quiet m (pumpAll d) := forAll_keeps _ d h fun die _ _ h => h.almPump die

end Quiet

/-- What the Almanac starts without reads leaves media management. -/
theorem pumpAll_med (h : ∀ o ∈ d.alm.ops, o.2.kind ≠ .readPage) : (pumpAll d).med = d.med := (Quiet.pumpAll ⟨rfl, h⟩).med

theorem patrolPeriod_eq (t : Nat) (d : Dev) : patrolPeriod t d = { d with med := (patrolPeriod t d).med } := by
  unfold patrolPeriod
  split <;> rfl

theorem patrolPeriod_field {α : Type} (g : Dev → α) (hg : ∀ d m, g { d with med := m } = g d) (t : Nat) (d : Dev) : g (patrolPeriod t d) = g d := by
  rw [patrolPeriod_eq, hg]

/-- A stripe in which the checks find nothing: it is counted, and a row's last stripe ends the pass over the row. -/
theorem patrolStripe_clean (row stripe : Nat) (r : Row) (bits : List (List Nat)) (d : Dev) : ∃ e, e.alm = d.alm ∧ e.med.patrolFrom = stripe + 1 ∧
    patrolStripe row stripe r bits [] [] [] d = if stripe + 1 = (theProfile r.profile).pages then patrolEnd row r e else e := by
  have hcolumns (l : List (Nat × Nat)) (d : Dev) : forAll l (fun e d => patrolColumn row r stripe e.1 e.2 [] false false d) d = d :=
    forAll_keeps (P := (· = d)) l d rfl fun _ _ _ h => h
  refine ⟨{ d with med := { d.med with
    patAcc := (List.range r.n).map fun i => addBits (theProfile r.profile).ew (d.med.patAcc.getD i (0, 0, 0)) (bits.getD i []), patrolFrom := stripe + 1, patrolRead := false } }, rfl, rfl, ?_⟩
  simp only [patrolStripe, List.contains_nil, List.filter_false, hcolumns, ite_self, and_true]

/-- A transplant that becomes due queues no operation. -/
theorem queueXpl_ops (row pos cause : Nat) (hard : Bool) (d : Dev) : (queueXpl row pos cause hard d).alm.ops ⊆ d.alm.ops := by
  have habandon (e : Dev) : (abandonPatrol row e).alm.ops ⊆ e.alm.ops := by
    unfold abandonPatrol
    split
    · exact List.filter_subset_self ..
    · exact fun _ h => h
  unfold queueXpl
  split
  · exact fun _ h => h
  split
  · exact fun _ h => h
  split
  · split <;> exact fun _ h => h
  · exact habandon _

theorem patrolEnd_ops (row : Nat) (r : Row) (d : Dev) : (patrolEnd row r d).alm.ops ⊆ d.alm.ops := by
  refine forAll_keeps (P := fun e => e.alm.ops ⊆ d.alm.ops) _ d (fun _ h => h) fun x _ e he => ?_
  dsimp only
  split
  · exact List.Subset.trans (queueXpl_ops ..) he
  · exact he

/-- With no read queued, what such a stripe makes of the pass stays when the dies are re-examined. -/
theorem patrolStripe_pumped (hreads : ∀ o ∈ d.alm.ops, o.2.kind ≠ .readPage) :
    (stripe + 1 ≠ (theProfile r.profile).pages → (pumpAll (patrolStripe row stripe r bits [] [] [] d)).med.patrolFrom = stripe + 1) ∧
    (stripe + 1 = (theProfile r.profile).pages → (pumpAll (patrolStripe row stripe r bits [] [] [] d)).med.patrolFrom = 0 ∧
      (pumpAll (patrolStripe row stripe r bits [] [] [] d)).med.patrolRow = row + 1 ∧ row ∈ (pumpAll (patrolStripe row stripe r bits [] [] [] d)).med.patrolDone ∧
      (pumpAll (patrolStripe row stripe r bits [] [] [] d)).med.patAcc = []) := by
  obtain ⟨e, halm, hfrom, hclean⟩ := patrolStripe_clean row stripe r bits d
  have hreads' : ∀ o ∈ e.alm.ops, o.2.kind ≠ .readPage := halm ▸ hreads
  rw [hclean]
  refine ⟨fun hlast => ?_, fun hlast => ?_⟩
  · rw [if_neg hlast, pumpAll_med hreads', hfrom]
  · rw [if_pos hlast, pumpAll_med fun o ho => hreads' o (patrolEnd_ops _ _ _ ho)]
    exact ⟨rfl, rfl, List.mem_append_right _ (List.mem_singleton_self _), rfl⟩

theorem exec_patrolStripe (hr : rowAt (patrolPeriod tm (tick tm s.dev)) row = some r) (hup : mainUp s.dev = true) (hon : patrolOn s.dev = true) (hready : s.dev.clo.ready = true)
    (hnext : patrolNext (patrolPeriod tm (tick tm s.dev)) = some row) (hrow : (patrolPeriod tm (tick tm s.dev)).med.patrolRow = row)
    (hfrom : (patrolPeriod tm (tick tm s.dev)).med.patrolFrom = stripe) (hread : (patrolPeriod tm (tick tm s.dev)).med.patrolRead = true)
    (howed : owed (patrolPeriod tm (tick tm s.dev)) (.patrol row) = 0) (bad sp sq : List Nat) :
    exec (.patrolStripe row stripe bits bad sp sq tm) s = .next { s with dev := pumpAll (patrolStripe row stripe r bits bad sp sq (patrolPeriod tm (tick tm s.dev))) } := by
  have hup' := (patrolPeriod_field mainUp (fun _ _ => rfl) tm (tick tm s.dev)).trans hup
  have hon' := (patrolPeriod_field patrolOn (fun _ _ => rfl) tm (tick tm s.dev)).trans hon
  have hready' := (patrolPeriod_field (fun x => x.clo.ready) (fun _ _ => rfl) tm (tick tm s.dev)).trans hready
  show execPatrolStripe row stripe bits bad sp sq tm s = _
  simp only [execPatrolStripe, on_next, hr, withSome_some, hup', hon', hready', hnext, hrow, hfrom, hread, howed, decide_true, Bool.and_self, onlyIf_true]

/-- O16's clause of PATROL_STRIPE (R284, R286). -/
theorem patrolStripe_advances (hr : rowAt (patrolPeriod tm (tick tm s.dev)) row = some r) (hup : mainUp s.dev = true) (hon : patrolOn s.dev = true) (hready : s.dev.clo.ready = true)
    (hnext : patrolNext (patrolPeriod tm (tick tm s.dev)) = some row) (hrow : (patrolPeriod tm (tick tm s.dev)).med.patrolRow = row)
    (hfrom : (patrolPeriod tm (tick tm s.dev)).med.patrolFrom = stripe) (hread : (patrolPeriod tm (tick tm s.dev)).med.patrolRead = true)
    (howed : owed (patrolPeriod tm (tick tm s.dev)) (.patrol row) = 0) (hreads : ∀ o ∈ s.dev.alm.ops, o.2.kind ≠ .readPage) :
    ∃ t, exec (.patrolStripe row stripe bits [] [] [] tm) s = .next t ∧
      (stripe + 1 ≠ (theProfile r.profile).pages → t.dev.med.patrolFrom = stripe + 1) ∧
      (stripe + 1 = (theProfile r.profile).pages → t.dev.med.patrolFrom = 0 ∧ t.dev.med.patrolRow = row + 1 ∧ row ∈ t.dev.med.patrolDone ∧ t.dev.med.patAcc = []) := by
  have hops := patrolPeriod_field (fun x => x.alm.ops) (fun _ _ => rfl) tm (tick tm s.dev)
  exact ⟨_, exec_patrolStripe hr hup hon hready hnext hrow hfrom hread howed [] [] [], patrolStripe_pumped fun o ho => hreads o (hops ▸ ho)⟩

end

/-! ### The hour (R251) -/

section
variable {d e : Dev} {s : State} {tm g : Nat}

/-- What the hourly work leaves once the counters have advanced: the links, the counters, and when the next hour is due. -/
def hourMark (d : Dev) : Hl × Tbl Nat × Nat := (d.hl, d.med.effHours, d.med.hourDue)

theorem queueXpl_hourMark (row pos cause : Nat) (hard : Bool) (d : Dev) : hourMark (queueXpl row pos cause hard d) = hourMark d := by
  have habandon (e : Dev) : hourMark (abandonPatrol row e) = hourMark e := by
    unfold abandonPatrol
    split <;> rfl
  unfold queueXpl
  split
  · rfl
  split
  · rfl
  split
  · split <;> rfl
  · exact habandon _

theorem retentionCheck_hourMark (d : Dev) : hourMark (retentionCheck d) = hourMark d := by
  unfold retentionCheck
  split
  · rfl
  refine forAll_keeps (P := (hourMark · = hourMark d)) _ d rfl fun x _ e he => ?_
  split
  · exact he
  refine forAll_keeps (P := (hourMark · = hourMark d)) _ e he fun y _ e he => ?_
  dsimp only
  split
  · exact (queueXpl_hourMark ..).trans he
  · exact he

theorem eolTick_hourMark (d : Dev) : hourMark (eolTick d) = hourMark d := by
  simp only [eolTick]
  split <;> rfl

theorem wakeEntering_hourMark (commit : Nat) (out : Sleep) (t : Nat) (d : Dev) : hourMark (wakeEntering commit out t d) = hourMark d := by
  unfold wakeEntering
  split <;> rfl

theorem wakeForCommand_hourMark (t : Nat) (d : Dev) : hourMark (wakeForCommand t d) = hourMark d := by
  cases h : d.pwr.sleep <;> simp only [wakeForCommand, h]
  case s1Entering | entering => exact wakeEntering_hourMark ..
  all_goals rfl

theorem wakeS2_hourMark (t : Nat) (d : Dev) : hourMark (wakeS2 t d) = hourMark d := by
  unfold wakeS2
  split
  · exact wakeForCommand_hourMark ..
  · rfl

theorem medWake_hourMark (before t : Nat) (d : Dev) : hourMark (medWake before t d) = hourMark d := by
  unfold medWake
  split
  · exact wakeS2_hourMark ..
  · rfl

/-- What an hour adds to a link group's counter, and the counter advanced by it. -/
def hourAdd (d : Dev) (g : Nat) : Nat := match hottest d g with
  | some k => effStep k.tempSum k.tempN
  | none => 128
def advanceHour (g : Nat) (d : Dev) : Dev := { d with med := { d.med with effHours := tset d.med.effHours g (effHour d g + hourAdd d g) } }

theorem effHoursTick_eq (d : Dev) : effHoursTick d = { forAll (List.range (linkGroups d)) advanceHour d with
    hl := { (forAll (List.range (linkGroups d)) advanceHour d).hl with links := tmap (forAll (List.range (linkGroups d)) advanceHour d).hl.links fun _ k => { k with tempSum := 0, tempN := 0 } } } := rfl

theorem hourAdd_congr (h : e.hl = d.hl) : hourAdd e g = hourAdd d g := by simp only [hourAdd, hottest, linkAt, h]

theorem effHour_advanceHour (a g : Nat) (d : Dev) : effHour (advanceHour a d) g = if g = a then effHour d a + hourAdd d a else effHour d g := by
  simp only [effHour, advanceHour, tgetD, tget_tset]
  split <;> rfl

/-- Each counter advances once. -/
theorem effHour_advanced {l : List Nat} (hl : l.Nodup) (hg : g ∈ l) : effHour (forAll l advanceHour d) g = effHour d g + hourAdd d g := by
  induction l generalizing d with
  | nil => cases hg
  | cons a l ih =>
    obtain ⟨ha, hl⟩ := List.nodup_cons.1 hl
    rw [forAll_cons]
    rcases List.mem_cons.1 hg with rfl | hg
    · have hrest : effHour (forAll l advanceHour (advanceHour g d)) g = effHour (advanceHour g d) g :=
        forAll_keeps (P := fun e => effHour e g = effHour (advanceHour g d) g) l _ rfl fun b hb e he => by
          rw [effHour_advanceHour, if_neg (ne_of_mem_of_not_mem hb ha).symm, he]
      rw [hrest, effHour_advanceHour, if_pos rfl]
    · rw [ih hl hg, effHour_advanceHour, if_neg (ne_of_mem_of_not_mem hg ha), hourAdd_congr (e := advanceHour a d) (d := d) rfl]

/-- The counters advance, the hour's means start again, and the next hour stays due when it was. -/
theorem effHoursTick_spec (d : Dev) : (∀ g < linkGroups d, effHour (effHoursTick d) g = effHour d g + hourAdd d g) ∧
    (effHoursTick d).hl = { d.hl with links := tmap d.hl.links fun _ k => { k with tempSum := 0, tempN := 0 } } ∧ (effHoursTick d).med.hourDue = d.med.hourDue := by
  have hkeep : (forAll (List.range (linkGroups d)) advanceHour d).hl = d.hl ∧ (forAll (List.range (linkGroups d)) advanceHour d).med.hourDue = d.med.hourDue :=
    forAll_keeps (P := fun e => e.hl = d.hl ∧ e.med.hourDue = d.med.hourDue) _ d ⟨rfl, rfl⟩ fun _ _ _ h => h
  rw [effHoursTick_eq]
  refine ⟨fun g hg => effHour_advanced List.nodup_range (List.mem_range.2 hg), ?_, hkeep.2⟩
  rw [hkeep.1]

theorem exec_medHourTick (hup : mainUp s.dev = true) (hdue : s.dev.med.hourDue + 3600000000000 ≤ tm) :
    exec (.medHourTick tm) s = .next { s with dev := medWake s.dev.med.xpls.length tm (eolTick (levellingTick (retentionCheck (effHoursTick
      { tick tm s.dev with med := { s.dev.med with hourDue := tm / 3600000000000 * 3600000000000 } })))) } := by
  show execMedHourTick tm s = _
  simp only [execMedHourTick, on_next, hup, hdue, decide_true, Bool.and_self, onlyIf_true]
  rfl

/-- O16's clause of MED_HOUR_TICK (R251). -/
theorem medHourTick_advances (hup : mainUp s.dev = true) (hdue : s.dev.med.hourDue + 3600000000000 ≤ tm) :
    ∃ t, exec (.medHourTick tm) s = .next t ∧ t.dev.med.hourDue = tm / 3600000000000 * 3600000000000 ∧
      (∀ g < linkGroups s.dev, hottest s.dev g = none → effHour t.dev g = effHour s.dev g + 128) ∧
      t.dev.hl = { s.dev.hl with links := tmap s.dev.hl.links fun _ k => { k with tempSum := 0, tempN := 0 } } := by
  refine ⟨_, exec_medHourTick hup hdue, ?_⟩
  obtain ⟨hcount, hlinks, hnext⟩ := effHoursTick_spec { tick tm s.dev with med := { s.dev.med with hourDue := tm / 3600000000000 * 3600000000000 } }
  generalize effHoursTick _ = e at hcount hlinks hnext ⊢
  have hmark : hourMark (medWake s.dev.med.xpls.length tm (eolTick (levellingTick (retentionCheck e)))) = hourMark e := by
    rw [medWake_hourMark, eolTick_hourMark, ← retentionCheck_hourMark e]
    rfl
  generalize medWake _ _ _ = f at hmark ⊢
  obtain ⟨hhl, hhours, hhour⟩ : f.hl = e.hl ∧ f.med.effHours = e.med.effHours ∧ f.med.hourDue = e.med.hourDue := by simpa [hourMark] using hmark
  refine ⟨hhour.trans hnext, fun g hg hnone => ?_, hhl.trans hlinks⟩
  have hadd : hourAdd s.dev g = 128 := by simp only [hourAdd, hnone]
  rw [← hadd]
  refine Eq.trans ?_ (hcount g hg)
  simp only [effHour, hhours]

end
end Sys2Proof.Machine


namespace Sys2Proof.Machine

/-- Settles O16: a switch gives one position its bed (`installBed_places`), a row that drains leaves with its beds (`Draining`, `Freed`), a pass moves on where no read is queued (`Quiet`), and the hour
advances each counter once. -/
theorem bedsRowsAndPatrolComplete : Obligations.BedsRowsAndPatrolComplete := by
  unfold Obligations.BedsRowsAndPatrolComplete
  refine ⟨⟨?transplant, ?rebuild⟩, ?drained, ?patrol, ?hour⟩
  case transplant =>
    intro s row pos bad tm x r hup hx hr hn hpos hrun hwr hready hst
    exact transplantSwitch_installs hup hx hr hn hpos hrun hwr hready hst
  case rebuild =>
    intro s row pos bad tm b r hup hb hr hn hpos hrun hwr hready
    exact rebuildReplace_installs hup hb hr hn hpos hrun hwr hready
  case drained =>
    intro s row tm r hup hreads hold hr hnone hreb hbeds
    exact rowReadsDrained_frees hup hreads hold hr hnone hreb hbeds
  case patrol =>
    intro s row stripe bits tm r hr hup hon hready hnext hrow hfrom hread howed hreads
    exact patrolStripe_advances hr hup hon hready hnext hrow hfrom hread howed hreads
  case hour =>
    intro s tm hup hdue
    exact medHourTick_advances hup hdue

end Sys2Proof.Machine

/-!
Rows and parity (spec/08_rows_and_parity.md R267, R268). A payload's bytes multiply by constants of GF(2^8) through shifts: doubling is linear and obeys the polynomial, so the
byte arithmetic of `gfMul`, `gfExp` and `gfInv` acts on payloads, and every byte but 0 is a power of the generator, whose order is 255. A column is then a table of which P and Q
are linear sums; what the survivors leave of them determines up to two erased members.
-/

namespace Sys2Proof.Machine

/-! ### Bits of a payload, by byte -/

/-- Bit r of byte q of a payload. -/
def bitAt (v : Payload) (q r : Nat) : Bool := v.getLsbD (8 * q + r)

theorem payload_ext {u v : Payload} (h : ∀ q < 4160, ∀ r < 8, bitAt u q r = bitAt v q r) : u = v :=
  BitVec.eq_of_getLsbD_eq fun i hi => by
    rw [← Nat.div_add_mod i 8]
    exact h (i / 8) (by omega) (i % 8) (by omega)

@[simp] theorem bitAt_xor (u v : Payload) (q r : Nat) : bitAt (u ^^^ v) q r = (bitAt u q r ^^ bitAt v q r) := BitVec.getLsbD_xor

theorem repunit_eq_sum (n : Nat) : (2 ^ (8 * n) - 1) / 255 = ∑ i ∈ Finset.range n, 256 ^ i := by
  rw [Nat.geomSum_eq (by decide), pow_mul]
  norm_num

/-- The lowest byte of a number and the bytes above it. -/
theorem testBit_byteSplit {x y : Nat} (hy : y < 2 ^ 8) {q r : Nat} (hr : r < 8) :
    (2 ^ 8 * x + y).testBit (8 * q + r) = if q = 0 then y.testBit r else x.testBit (8 * (q - 1) + r) := by
  rw [Nat.testBit_two_pow_mul_add _ hy]
  cases q with
  | zero => rw [if_pos (by omega), if_pos rfl, Nat.mul_zero, Nat.zero_add]
  | succ q =>
    have hindex : 8 * (q + 1) + r - 8 = 8 * (q + 1 - 1) + r := by omega
    rw [if_neg (by omega), if_neg (by omega), hindex]

theorem testBit_mul_repunit {b r : Nat} (hb : b < 256) (hr : r < 8) {n q : Nat} (hq : q < n) : (b * ∑ i ∈ Finset.range n, 256 ^ i).testBit (8 * q + r) = b.testBit r := by
  induction n generalizing q with
  | zero => omega
  | succ n ih =>
    have hsplit : b * ∑ i ∈ Finset.range (n + 1), 256 ^ i = 2 ^ 8 * (b * ∑ i ∈ Finset.range n, 256 ^ i) + b := by
      rw [geom_sum_succ]
      ring
    rw [hsplit, testBit_byteSplit hb hr]
    cases q with
    | zero => rfl
    | succ q => exact ih (by omega)

/-- A mask keeps a pattern's bits of every byte. -/
theorem bitAt_and_bytesOf (v : Payload) {b r : Nat} (hb : b < 256) (hr : r < 8) (q : Nat) : bitAt (v &&& bytesOf b) q r = (b.testBit r && bitAt v q r) := by
  simp only [bitAt, bytesOf, BitVec.getLsbD_and, BitVec.getLsbD_ofNat]
  by_cases hq : q < 4160
  · have hin : 8 * q + r < 33280 := by omega
    rw [repunit_eq_sum 4160, testBit_mul_repunit hb hr hq, decide_eq_true hin, Bool.true_and, Bool.and_comm]
  · rw [BitVec.getLsbD_of_ge v _ (by omega), Bool.false_and, Bool.and_false]

/-- A byte with no bit but its lowest is 0 or 1. -/
theorem flag_eq {y : Nat} (hy : y < 2 ^ 8) (h : ∀ r, 0 < r → r < 8 → y.testBit r = false) : y = 0 ∨ y = 1 := by
  have hlt : y < 2 ^ 1 := Nat.lt_pow_two_of_testBit _ fun i hi => by
    by_cases h8 : i < 8
    · exact h i hi h8
    · exact Nat.testBit_lt_two_pow (hy.trans_le (Nat.pow_le_pow_right (by decide) (by omega)))
  omega

/-- A factor of one byte meets no carry in a number whose bytes are 0 or 1. -/
theorem testBit_mul_flags {c r : Nat} (hc : c < 256) (hr : r < 8) : ∀ (q : Nat) {m : Nat}, (∀ q r, 0 < r → r < 8 → m.testBit (8 * q + r) = false) →
    (m * c).testBit (8 * q + r) = (c.testBit r && m.testBit (8 * q))
  | q, m, hm => by
    obtain ⟨x, y, hy, rfl⟩ : ∃ x y, y < 2 ^ 8 ∧ m = 2 ^ 8 * x + y := ⟨m / 2 ^ 8, m % 2 ^ 8, Nat.mod_lt _ (by decide), (Nat.div_add_mod _ _).symm⟩
    have hflag : y = 0 ∨ y = 1 := flag_eq hy fun i hi h8 => (testBit_byteSplit (q := 0) hy h8).symm.trans (hm 0 i hi h8)
    have hbyte : y * c < 2 ^ 8 := by
      obtain rfl | rfl := hflag <;> omega
    have hfoot := testBit_byteSplit (x := x) hy (q := q) (r := 0) (by decide)
    rw [Nat.add_mul, Nat.mul_assoc, testBit_byteSplit hbyte hr, ← Nat.add_zero (8 * q), hfoot]
    cases q with
    | zero =>
      obtain rfl | rfl := hflag
      · simp
      · simp
    | succ q =>
      refine testBit_mul_flags hc hr q fun p i hi hi8 => ?_
      exact (testBit_byteSplit (q := p + 1) hy hi8).symm.trans (hm (p + 1) i hi hi8)

/-- The bits that a doubling carries out of the bytes, each at its byte's foot. -/
theorem bitAt_carry (v : Payload) (q : Nat) {r : Nat} (hr : r < 8) : bitAt ((v &&& bytesOf 0x80) >>> 7) q r = (decide (r = 0) && bitAt v q 7) := by
  cases r with
  | zero =>
    have hfoot : bitAt ((v &&& bytesOf 0x80) >>> 7) q 0 = bitAt (v &&& bytesOf 0x80) q 7 := by
      simp only [bitAt, BitVec.getLsbD_ushiftRight]
      congr 1
      omega
    rw [hfoot, bitAt_and_bytesOf v (by decide) (by decide)]
    rfl
  | succ r =>
    have hnext : bitAt ((v &&& bytesOf 0x80) >>> 7) q (r + 1) = bitAt (v &&& bytesOf 0x80) (q + 1) r := by
      simp only [bitAt, BitVec.getLsbD_ushiftRight]
      congr 1
      omega
    have hbit : (0x80 : Nat).testBit r = false := (Nat.testBit_two_pow (n := 7)).trans (decide_eq_false (by omega))
    rw [hnext, bitAt_and_bytesOf v (by decide) (by omega), hbit]
    rfl

theorem bitAt_shiftLeft_one_zero (v : Payload) {q : Nat} (hq : q < 4160) : bitAt (v <<< 1) q 0 = (decide (q ≠ 0) && bitAt v (q - 1) 7) := by
  cases q with
  | zero => simp [bitAt]
  | succ q =>
    have hindex : 8 * (q + 1) + 0 - 1 = 8 * q + 7 := by omega
    have hin : 8 * (q + 1) + 0 < 33280 := by omega
    have hfar : ¬8 * (q + 1) + 0 < 1 := by omega
    simp only [bitAt, BitVec.getLsbD_shiftLeft, hindex, hin, hfar, Nat.succ_ne_zero, ne_eq, not_false_eq_true, decide_true, decide_false, Bool.not_false, Bool.true_and,
      Nat.add_sub_cancel]

theorem bitAt_shiftLeft_one_succ (v : Payload) {q r : Nat} (hq : q < 4160) (hr : r + 1 < 8) : bitAt (v <<< 1) q (r + 1) = bitAt v q r := by
  have hindex : 8 * q + (r + 1) - 1 = 8 * q + r := by omega
  have hin : 8 * q + (r + 1) < 33280 := by omega
  have hfar : ¬8 * q + (r + 1) < 1 := by omega
  simp only [bitAt, BitVec.getLsbD_shiftLeft, hindex, hin, hfar, decide_true, decide_false, Bool.not_false, Bool.true_and]

/-- The bits that a doubling keeps in their bytes, each one place up. -/
theorem bitAt_moved (v : Payload) {q r : Nat} (hq : q < 4160) (hr : r < 8) : bitAt ((v &&& bytesOf 0x7F) <<< 1) q r = (decide (r ≠ 0) && bitAt v q (r - 1)) := by
  have hmask (p : Nat) {i : Nat} (hi : i < 8) : bitAt (v &&& bytesOf 0x7F) p i = (decide (i < 7) && bitAt v p i) := by
    rw [bitAt_and_bytesOf v (by decide) hi, show (0x7F : Nat) = 2 ^ 7 - 1 from rfl, Nat.testBit_two_pow_sub_one]
  cases r with
  | zero =>
    rw [bitAt_shiftLeft_one_zero _ hq, hmask _ (by decide)]
    exact Bool.and_false _
  | succ r =>
    rw [bitAt_shiftLeft_one_succ _ hq hr, hmask _ (by omega), decide_eq_true (show r < 7 by omega)]
    rfl

/-- Doubling moves every bit up by one, and a byte that overflows takes the polynomial's low bits. -/
theorem bitAt_gfDouble (v : Payload) {q r : Nat} (hq : q < 4160) (hr : r < 8) :
    bitAt (gfDouble v) q r = ((decide (r ≠ 0) && bitAt v q (r - 1)) ^^ (decide (r ∈ [0, 2, 3, 4]) && bitAt v q 7)) := by
  have hin : 8 * q + r < 33280 := by omega
  have hpoly : ∀ r < 8, (0x1D : Nat).testBit r = decide (r ∈ [0, 2, 3, 4]) := by decide
  have hflags (p i : Nat) (hi : 0 < i) (hi8 : i < 8) : ((v &&& bytesOf 0x80) >>> 7).toNat.testBit (8 * p + i) = false :=
    (bitAt_carry v p hi8).trans (by simp; omega)
  have hfoot : ((v &&& bytesOf 0x80) >>> 7).toNat.testBit (8 * q) = bitAt v q 7 := bitAt_carry v q (r := 0) (by decide)
  rw [gfDouble, bitAt_xor, bitAt_moved v hq hr, ← hpoly r hr, ← hfoot, ← testBit_mul_flags (by decide) hr q hflags]
  congr 1
  rw [bitAt, BitVec.getLsbD_ofNat, decide_eq_true hin, Bool.true_and]

/-! ### Doubling is linear and obeys the polynomial 0x11D -/

theorem gfDouble_xor (u v : Payload) : gfDouble (u ^^^ v) = gfDouble u ^^^ gfDouble v :=
  payload_ext fun q hq r hr => by
    simp only [bitAt_gfDouble _ hq hr, bitAt_xor, Bool.and_xor_distrib_left, Bool.xor_assoc, Bool.xor_left_comm]

theorem gfDouble_zero : gfDouble 0 = 0 := by
  simpa using gfDouble_xor 0 0

theorem gfShift_eq_iterate (n : Nat) (v : Payload) : gfShift n v = gfDouble^[n] v := by
  induction n generalizing v with
  | zero => rfl
  | succ n ih => exact ih (gfDouble v)

theorem gfShift_xor (n : Nat) (u v : Payload) : gfShift n (u ^^^ v) = gfShift n u ^^^ gfShift n v := by
  simp only [gfShift_eq_iterate]
  exact Function.Semiconj₂.iterate gfDouble_xor n u v

/-- x^8 = x^4 + x^3 + x^2 + 1, bit by bit of a byte. -/
theorem gfShift_eight (v : Payload) : gfShift 8 v = v ^^^ gfShift 2 v ^^^ gfShift 3 v ^^^ gfShift 4 v :=
  payload_ext fun q hq r hr => by
    interval_cases r <;> simp [gfShift, bitAt_gfDouble _ hq] <;> grind

/-! ### Sums of shifts -/

/-- The shifts of a payload that the n low bits of c name, added up. -/
def shiftSum : Nat → Nat → Payload → Payload
  | 0, _, _ => 0
  | n + 1, c, v => (if c % 2 = 1 then v else 0) ^^^ shiftSum n (c / 2) (gfDouble v)

theorem shiftSum_succ_last (n c : Nat) (v : Payload) : shiftSum (n + 1) c v = shiftSum n c v ^^^ if c.testBit n then gfShift n v else 0 := by
  induction n generalizing c v with
  | zero => simp only [shiftSum, gfShift, Nat.testBit_zero, decide_eq_true_eq, BitVec.xor_comm]
  | succ n ih => rw [shiftSum, ih, shiftSum, Nat.testBit_succ, gfShift, BitVec.xor_assoc]

theorem gfScale_eq_shiftSum (c : Nat) (v : Payload) : gfScale c v = shiftSum 8 c v := by
  have hfold (n : Nat) : (List.range n).foldl (fun a i => if c.testBit i then a ^^^ gfShift i v else a) 0 = shiftSum n c v := by
    induction n with
    | zero => rfl
    | succ n ih =>
      rw [List.range_succ, List.foldl_append, ih, shiftSum_succ_last]
      by_cases h : c.testBit n <;> simp [h]
  exact hfold 8

theorem shiftSum_xor_left (n a b : Nat) (v : Payload) : shiftSum n (a ^^^ b) v = shiftSum n a v ^^^ shiftSum n b v := by
  induction n with
  | zero => simp [shiftSum]
  | succ n ih =>
    rw [shiftSum_succ_last, shiftSum_succ_last, shiftSum_succ_last, ih, Nat.testBit_xor]
    have hsel : (if a.testBit n ^^ b.testBit n then gfShift n v else 0) = (if a.testBit n then gfShift n v else 0) ^^^ if b.testBit n then gfShift n v else 0 := by
      cases a.testBit n <;> cases b.testBit n <;> simp
    rw [hsel]
    ac_rfl

theorem shiftSum_two_mul (n a : Nat) (v : Payload) : shiftSum (n + 1) (2 * a) v = shiftSum n a (gfDouble v) := by
  simp [shiftSum]

theorem shiftSum_gfDouble (n c : Nat) (v : Payload) : shiftSum n c (gfDouble v) = gfDouble (shiftSum n c v) := by
  induction n generalizing c v with
  | zero => exact gfDouble_zero.symm
  | succ n ih =>
    rw [shiftSum, shiftSum, gfDouble_xor, ← ih]
    split
    · rfl
    · rw [gfDouble_zero]

theorem gfScale_gfDouble (c : Nat) (v : Payload) : gfScale c (gfDouble v) = gfDouble (gfScale c v) := by
  simp only [gfScale_eq_shiftSum, shiftSum_gfDouble]

theorem gfScale_xor_left (a b : Nat) (v : Payload) : gfScale (a ^^^ b) v = gfScale a v ^^^ gfScale b v := by
  simp only [gfScale_eq_shiftSum, shiftSum_xor_left]

theorem gfScale_zero_left (v : Payload) : gfScale 0 v = 0 := by
  simpa using gfScale_xor_left 0 0 v

theorem gfScale_one (v : Payload) : gfScale 1 v = v := by
  simp [gfScale_eq_shiftSum, shiftSum]

/-- The modulus, less its top bit, acts as the eighth shift. -/
theorem gfScale_modulus (v : Payload) : gfScale 0x11D v = gfShift 8 v := by
  rw [gfShift_eight]
  simp [gfScale_eq_shiftSum, shiftSum, gfShift, BitVec.xor_assoc]

/-! ### Byte arithmetic acts on payloads -/

theorem gfScale_gf2 {a : Nat} (ha : a < 256) (v : Payload) : gfScale (gf2 a) v = gfScale a (gfDouble v) := by
  have hdouble : gfScale (2 * a) v = shiftSum 7 a (gfDouble v) := by rw [gfScale_eq_shiftSum, shiftSum_two_mul]
  have hlast := shiftSum_succ_last 7 a (gfDouble v)
  rw [← gfScale_eq_shiftSum, ← hdouble] at hlast
  rw [gf2, hlast]
  split
  case isTrue h =>
    rw [Nat.testBit_lt_two_pow h]
    simp
  case isFalse h =>
    have htop : a.testBit 7 = true := by
      rw [Nat.testBit_eq_decide_div_mod_eq]
      simp
      omega
    rw [if_pos htop, gfScale_xor_left, gfScale_modulus]
    rfl

theorem gf2_bounds : ∀ a < 256, gf2 a < 256 ∧ (0 < a → 0 < gf2 a) := by decide +kernel

theorem gfScale_gfTimes : ∀ (n : Nat) {a : Nat} (b : Nat) (v : Payload), a < 256 → gfScale (gfTimes n a b) v = shiftSum n b (gfScale a v)
  | 0, _, _, v, _ => gfScale_zero_left v
  | n + 1, a, b, v, ha => by
    have hdouble : gfDouble (gfScale a v) = gfScale (gf2 a) v := by rw [gfScale_gf2 ha, gfScale_gfDouble]
    rw [gfTimes, gfScale_xor_left, gfScale_gfTimes n _ v (gf2_bounds a ha).1, shiftSum, hdouble]
    split
    · rfl
    · rw [gfScale_zero_left]

theorem gfScale_gfMul {a : Nat} (ha : a < 256) (b : Nat) (v : Payload) : gfScale (gfMul a b) v = gfScale b (gfScale a v) := by
  rw [gfMul, gfScale_gfTimes 8 b v ha, gfScale_eq_shiftSum b]

theorem gfScale_gfExp {a : Nat} (ha : a < 256) (n : Nat) (v : Payload) : gfScale (gfExp a n) v = (gfScale a)^[n] v := by
  induction n generalizing v with
  | zero => exact gfScale_one v
  | succ n ih => rw [gfExp, gfScale_gfMul ha, ih, Function.iterate_succ_apply]

/-! ### The powers of the generator -/

theorem gfPow_eq_iterate (n : Nat) : gfPow n = gf2^[n] 1 := by
  induction n with
  | zero => rfl
  | succ n ih => rw [gfPow, ih, Function.iterate_succ_apply']

theorem gfPow_bounds : ∀ n, 0 < gfPow n ∧ gfPow n < 256
  | 0 => by decide
  | n + 1 =>
    have ⟨hpos, hlt⟩ := gfPow_bounds n
    have ⟨hlt', hpos'⟩ := gf2_bounds _ hlt
    ⟨hpos' hpos, hlt'⟩

theorem gfScale_gfPow (n : Nat) (v : Payload) : gfScale (gfPow n) v = gfShift n v := by
  induction n generalizing v with
  | zero => exact gfScale_one v
  | succ n ih => rw [gfPow, gfScale_gf2 (gfPow_bounds n).2, ih, gfShift]

/-- The generator's order is 255: no proper divisor of 255 returns to 1. -/
theorem minimalPeriod_gf2 : Function.minimalPeriod gf2 1 = 255 := by
  have hproper : ∀ d ∈ Nat.properDivisors 255, gfPow d ≠ 1 := by decide +kernel
  have hdvd : Function.minimalPeriod gf2 1 ∣ 255 := Function.IsPeriodicPt.minimalPeriod_dvd (show gf2^[255] 1 = 1 by rw [← gfPow_eq_iterate]; decide +kernel)
  by_contra hne
  refine hproper _ (Nat.mem_properDivisors.2 ⟨hdvd, lt_of_le_of_ne (Nat.le_of_dvd (by decide) hdvd) hne⟩) ?_
  rw [gfPow_eq_iterate]
  exact Function.iterate_minimalPeriod

theorem gfPow_injOn : Set.InjOn gfPow (Set.Iio 255) := by
  rw [funext gfPow_eq_iterate, ← minimalPeriod_gf2]
  exact Function.iterate_injOn_Iio_minimalPeriod

/-- Every byte but 0 is a power of the generator. -/
theorem exists_gfPow {c : Nat} (h0 : 0 < c) (hc : c < 256) : ∃ i, gfPow i = c := by
  have himage : (Finset.range 255).image gfPow = Finset.Ico 1 256 := by
    refine Finset.eq_of_subset_of_card_le (Finset.image_subset_iff.2 fun n _ => Finset.mem_Ico.2 (gfPow_bounds n)) ?_
    rw [Finset.card_image_of_injOn (by simpa using gfPow_injOn)]
    simp
  have hmem : c ∈ (Finset.range 255).image gfPow := himage ▸ Finset.mem_Ico.2 ⟨h0, hc⟩
  obtain ⟨i, -, hi⟩ := Finset.mem_image.1 hmem
  exact ⟨i, hi⟩

/-- Division undoes multiplication: c is g^i, and 255 of its products are the 255 * i-th shift. -/
theorem gfScale_gfInv {c : Nat} (h0 : 0 < c) (hc : c < 256) (v : Payload) : gfScale (gfInv c) (gfScale c v) = v := by
  obtain ⟨i, rfl⟩ := exists_gfPow h0 hc
  have horder : gfDouble^[255] = id := funext fun w => by
    rw [← gfShift_eq_iterate, ← gfScale_gfPow, gfPow_eq_iterate, ← minimalPeriod_gf2, Function.iterate_minimalPeriod]
    exact gfScale_one w
  have hscale : gfScale (gfPow i) = gfDouble^[i] := funext fun w => by rw [gfScale_gfPow, gfShift_eq_iterate]
  rw [gfInv, gfScale_gfExp hc, ← Function.iterate_succ_apply, hscale, ← Function.iterate_mul, Nat.mul_comm, Function.iterate_mul, horder, Function.iterate_id]
  rfl

/-! ### Tables that number a list -/

/-- A list's entries under the keys n, n + 1, … -/
def numberedFrom {α : Type} (n : Nat) (l : List α) : Tbl α := (l.zipIdx n).map fun e => (e.2, e.1)

theorem numberedFrom_append {α : Type} (n : Nat) (l m : List α) : numberedFrom n (l ++ m) = numberedFrom n l ++ numberedFrom (n + l.length) m := by
  simp [numberedFrom, List.zipIdx_append]

theorem tget_numberedFrom {α : Type} (l : List α) (n j : Nat) : tget (numberedFrom n l) j = if j < n then none else l[j - n]? := by
  induction l generalizing n with
  | nil => simp [numberedFrom]
  | cons a l ih =>
    show (if j = n then some a else if j < n then none else tget (numberedFrom (n + 1) l) j) = _
    obtain h | rfl | h := Nat.lt_trichotomy j n
    · rw [if_neg (by omega), if_pos h, if_pos h]
    · simp
    · have hindex : j - n = (j - (n + 1)) + 1 := by omega
      rw [if_neg (by omega), if_neg (by omega), if_neg (by omega), ih, if_neg (by omega), hindex, List.getElem?_cons_succ]

theorem wf_numberedFrom {α : Type} : ∀ (n : Nat) (l : List α), Tbl.wf (numberedFrom n l) = true
  | _, [] => rfl
  | _, [_] => rfl
  | n, a :: b :: l => by
    show (decide (n < n + 1) && Tbl.wf (numberedFrom (n + 1) (b :: l))) = true
    rw [wf_numberedFrom (n + 1) (b :: l)]
    simp

/-! ### Columns and what is left of them -/

theorem leanColumn_eq (ds : List Payload) : leanColumn ds = numberedFrom 0 (ds ++ [parityP ds]) := by
  rw [numberedFrom_append, Nat.zero_add]
  rfl

theorem durableColumn_eq (ds : List Payload) : durableColumn ds = numberedFrom 0 (ds ++ [parityP ds, parityQ ds]) := by
  have happend := numberedFrom_append 0 (ds ++ [parityP ds]) [parityQ ds]
  rw [← leanColumn_eq, List.append_assoc, List.length_append, Nat.zero_add] at happend
  exact happend.symm

theorem tget_durableColumn_data {ds : List Payload} {j : Nat} (hj : j < ds.length) : tget (durableColumn ds) j = some (ds.getD j 0) := by
  rw [durableColumn_eq, tget_numberedFrom]
  simp [List.getElem?_append_left hj, hj]

theorem tget_durableColumn_P (ds : List Payload) : tget (durableColumn ds) ds.length = some (parityP ds) := by
  rw [durableColumn_eq, tget_numberedFrom]
  simp

theorem tget_durableColumn_Q (ds : List Payload) : tget (durableColumn ds) (ds.length + 1) = some (parityQ ds) := by
  rw [durableColumn_eq, tget_numberedFrom]
  simp

/-- The last entry of a numbered table goes by its key. -/
theorem tdel_numberedFrom_last {α : Type} (a : α) (l : List α) (n : Nat) : tdel (numberedFrom n (l ++ [a])) (n + l.length) = numberedFrom n l := by
  induction l generalizing n with
  | nil => exact if_pos rfl
  | cons b l ih =>
    have hkey : n + (b :: l).length = n + 1 + l.length := by
      rw [List.length_cons]
      omega
    show (if n + (b :: l).length = n then _ else if n + (b :: l).length < n then _ else (n, b) :: tdel (numberedFrom (n + 1) (l ++ [a])) (n + (b :: l).length)) = _
    rw [if_neg (by omega), if_neg (by omega), hkey, ih]
    rfl

/-- A Lean column is a Durable one whose Q is erased. -/
theorem leanColumn_eq_tdel (ds : List Payload) : leanColumn ds = tdel (durableColumn ds) (ds.length + 1) := by
  have hlast := tdel_numberedFrom_last (parityQ ds) (ds ++ [parityP ds]) 0
  rw [← leanColumn_eq, List.append_assoc, List.length_append, Nat.zero_add] at hlast
  rw [durableColumn_eq]
  exact hlast.symm

theorem tget_foldl_tdel {α : Type} (l : List Nat) {t : Tbl α} (h : Tbl.wf t = true) (j : Nat) : tget (l.foldl tdel t) j = if j ∈ l then none else tget t j := by
  induction l generalizing t with
  | nil => simp
  | cons a l ih =>
    rw [List.foldl_cons, ih (Tbl.wf_tdel a h)]
    obtain rfl | hj := eq_or_ne j a
    · simp [tget_tdel_self j h]
    · simp [tget_tdel_ne h hj, hj]

/-! ### Counting what is erased -/

theorem mem_erased {k x : Nat} {col : Column} : x ∈ erased k col ↔ x < k ∧ tget col x = none := by
  simp [erased, thas]

theorem erased_add_two (k : Nat) (col : Column) : (erased (k + 2) col).length =
    (erased k col).length + (if tget col k = none then 1 else 0) + if tget col (k + 1) = none then 1 else 0 := by
  have hlast (j : Nat) : ([j].filter fun i => !thas col i).length = if tget col j = none then 1 else 0 := by
    cases h : tget col j <;> simp [thas, h]
  simp only [erased, List.range_succ, List.filter_append, List.length_append, hlast]

/-! ### The cases of R268 -/

theorem rebuildData_of_tget {k x : Nat} {col : Column} {d : Payload} (hx : tget col x = some d) : rebuildData k col x = some d := by
  rw [rebuildData, hx]

theorem rebuildData_by_P {k x y : Nat} {col : Column} {p : Payload} (hx : tget col x = none) (he : erased k col = [y]) (hP : tget col k = some p) :
    rebuildData k col x = some (pxy k col p) := by
  simp only [rebuildData, hx, he, hP]

theorem rebuildData_by_Q {k x y : Nat} {col : Column} {q : Payload} (hx : tget col x = none) (he : erased k col = [y]) (hP : tget col k = none)
    (hQ : tget col (k + 1) = some q) : rebuildData k col x = some (gfScale (gfInv (gfPow x)) (qxy k col q)) := by
  simp only [rebuildData, hx, he, hP, hQ]

theorem rebuildData_by_PQ {k x y : Nat} {col : Column} {p q : Payload} (hx : tget col x = none) (hne : x ≠ y) (he : erased k col = [x, y] ∨ erased k col = [y, x])
    (hP : tget col k = some p) (hQ : tget col (k + 1) = some q) :
    rebuildData k col x = some (gfScale (gfInv (gfPow x ^^^ gfPow y)) (gfShift y (pxy k col p) ^^^ qxy k col q)) := by
  obtain he | he := he
  · simp only [rebuildData, hx, he, hP, hQ, if_pos]
  · simp only [rebuildData, hx, he, hP, hQ, if_neg hne.symm]

/-- Of three or more erased members, an erased data member is lost; P and Q are members like the others. -/
theorem rebuildData_lost {k x : Nat} {col : Column} (hx : tget col x = none) (hcount : 2 < (erased (k + 2) col).length) : rebuildData k col x = none := by
  rw [erased_add_two] at hcount
  match he : erased k col, hP : tget col k, hQ : tget col (k + 1) with
  | [_], some _, none | [_], some _, some _ | [_], none, some _ | [_, _], some _, some _ => simp [he, hP, hQ] at hcount
  | [], _, _ => simp only [rebuildData, hx, he]
  | [_], none, none | [_, _], none, _ | [_, _], some _, none | _ :: _ :: _ :: _, _, _ => simp only [rebuildData, hx, he, hP, hQ]

/-- Where two members at the most are erased, one case of R268 gives an erased data member x. -/
theorem rebuildable_cases {k x : Nat} {col : Column} (hx : x ∈ erased k col) (hcount : (erased (k + 2) col).length ≤ 2) :
    (∃ p, erased k col = [x] ∧ tget col k = some p) ∨ (∃ q, erased k col = [x] ∧ tget col k = none ∧ tget col (k + 1) = some q) ∨
      ∃ y p q, x ≠ y ∧ (erased k col = [x, y] ∨ erased k col = [y, x]) ∧ tget col k = some p ∧ tget col (k + 1) = some q := by
  have hnodup : (erased k col).Nodup := List.nodup_range.filter _
  rw [erased_add_two] at hcount
  match he : erased k col, hP : tget col k, hQ : tget col (k + 1) with
  | [a], some p, _ =>
    obtain rfl : x = a := by simpa [he] using hx
    exact .inl ⟨p, rfl, rfl⟩
  | [a], none, some q =>
    obtain rfl : x = a := by simpa [he] using hx
    exact .inr (.inl ⟨q, rfl, rfl, rfl⟩)
  | [a, b], some p, some q =>
    have hab : a ≠ b := by simpa [he] using hnodup
    obtain rfl | rfl : x = a ∨ x = b := by simpa [he] using hx
    · exact .inr (.inr ⟨b, p, q, hab, .inl rfl, rfl, rfl⟩)
    · exact .inr (.inr ⟨a, p, q, hab.symm, .inr rfl, rfl, rfl⟩)
  | [], _, _ => simp [he] at hx
  | [_], none, none | [_, _], some _, none | [_, _], none, none | [_, _], none, some _ => simp [he, hP, hQ] at hcount
  | _ :: _ :: _ :: _, _, _ =>
    simp only [he, List.length_cons] at hcount
    omega

/-! ### What the survivors leave of P and Q -/

/-- The sum of g^j D_j over some members j of a column, for a linear g. -/
def memberSum (g : Payload → Payload) (ds : List Payload) : List Nat → Payload
  | [] => 0
  | j :: l => g^[j] (ds.getD j 0) ^^^ memberSum g ds l

theorem memberSum_map_succ {g : Payload → Payload} (hg : ∀ u v, g (u ^^^ v) = g u ^^^ g v) (h0 : g 0 = 0) (d : Payload) (ds : List Payload) (l : List Nat) :
    memberSum g (d :: ds) (l.map Nat.succ) = g (memberSum g ds l) := by
  induction l with
  | nil => exact h0.symm
  | cons j l ih => rw [List.map_cons, memberSum, ih, memberSum, hg, List.getD_cons_succ, Function.iterate_succ_apply']

theorem memberSum_range_cons {g : Payload → Payload} (hg : ∀ u v, g (u ^^^ v) = g u ^^^ g v) (h0 : g 0 = 0) (d : Payload) (ds : List Payload) :
    memberSum g (d :: ds) (List.range (ds.length + 1)) = d ^^^ g (memberSum g ds (List.range ds.length)) := by
  rw [List.range_succ_eq_map, memberSum, memberSum_map_succ hg h0]
  rfl

theorem parityP_cons (d : Payload) (ds : List Payload) : parityP (d :: ds) = d ^^^ parityP ds := by
  rw [parityP, List.foldl_cons, BitVec.xor_comm 0 d, List.foldl_assoc]
  rfl

theorem parityP_eq_memberSum (ds : List Payload) : parityP ds = memberSum id ds (List.range ds.length) := by
  induction ds with
  | nil => rfl
  | cons d ds ih => rw [List.length_cons, memberSum_range_cons (fun _ _ => rfl) rfl, parityP_cons, ih, id]

theorem parityQ_eq_memberSum (ds : List Payload) : parityQ ds = memberSum gfDouble ds (List.range ds.length) := by
  induction ds with
  | nil => rfl
  | cons d ds ih => rw [List.length_cons, memberSum_range_cons gfDouble_xor gfDouble_zero, parityQ, ih]

/-- Adding the surviving members to a sum over all leaves the sum over the erased. -/
theorem foldl_survivors {g : Payload → Payload} {ds : List Payload} {col : Column} {add : Payload → Nat → Payload} (l : List Nat)
    (hadd : ∀ j ∈ l, ∀ s, add s j = if thas col j then s ^^^ g^[j] (ds.getD j 0) else s) (s : Payload) :
    l.foldl add (s ^^^ memberSum g ds l) = s ^^^ memberSum g ds (l.filter fun j => !thas col j) := by
  induction l generalizing s with
  | nil => rfl
  | cons j l ih =>
    have ih := ih fun i hi => hadd i (List.mem_cons_of_mem j hi)
    rw [List.foldl_cons, hadd j List.mem_cons_self, memberSum]
    cases h : thas col j
    · rw [List.filter_cons_of_pos (by simp [h]), memberSum, ← BitVec.xor_assoc, ← BitVec.xor_assoc]
      exact ih _
    · have hcancel (u v : Payload) : s ^^^ (u ^^^ v) ^^^ u = s ^^^ v := by
        rw [BitVec.xor_comm u v, ← BitVec.xor_assoc, BitVec.xor_assoc, BitVec.xor_self, BitVec.xor_zero]
      rw [List.filter_cons_of_neg (by simp [h]), if_pos rfl, hcancel]
      exact ih s

theorem survivors_sum {g : Payload → Payload} {ds : List Payload} {col : Column} {add : Payload → Nat → Payload} (l : List Nat)
    (hadd : ∀ j ∈ l, ∀ s, add s j = if thas col j then s ^^^ g^[j] (ds.getD j 0) else s) :
    l.foldl add (memberSum g ds l) = memberSum g ds (l.filter fun j => !thas col j) := by
  simpa using foldl_survivors l hadd 0

theorem memberSum_pair (g : Payload → Payload) (ds : List Payload) {l : List Nat} {x y : Nat} (hl : l = [x, y] ∨ l = [y, x]) :
    memberSum g ds l = g^[x] (ds.getD x 0) ^^^ g^[y] (ds.getD y 0) := by
  have hpair (i j : Nat) : memberSum g ds [i, j] = g^[i] (ds.getD i 0) ^^^ g^[j] (ds.getD j 0) := by
    simp only [memberSum, BitVec.ofNat_eq_ofNat, BitVec.xor_zero]
  obtain rfl | rfl := hl
  · exact hpair x y
  · rw [hpair, BitVec.xor_comm]

/-- The two equations of two erased data members, solved for one of them. -/
theorem gf_solve {x y : Nat} (hx : x < 255) (hy : y < 255) (hne : x ≠ y) (u v : Payload) :
    gfScale (gfInv (gfPow x ^^^ gfPow y)) (gfShift y (u ^^^ v) ^^^ (gfShift x u ^^^ gfShift y v)) = u := by
  have hsum : gfShift y (u ^^^ v) ^^^ (gfShift x u ^^^ gfShift y v) = gfScale (gfPow x ^^^ gfPow y) u := by
    have hcancel (a b c : Payload) : a ^^^ b ^^^ (c ^^^ b) = c ^^^ a := by
      rw [BitVec.xor_comm c b, BitVec.xor_assoc, ← BitVec.xor_assoc b, BitVec.xor_self, BitVec.zero_xor, BitVec.xor_comm]
    rw [gfScale_xor_left, gfScale_gfPow, gfScale_gfPow, gfShift_xor, hcancel]
  have hdiff : gfPow x ^^^ gfPow y ≠ 0 := fun h => hne (gfPow_injOn hx hy (Nat.xor_eq_zero_iff.1 h))
  rw [hsum, gfScale_gfInv (Nat.pos_of_ne_zero hdiff) (Nat.xor_lt_two_pow (n := 8) (gfPow_bounds x).2 (gfPow_bounds y).2)]

theorem getElem?_eq_some_getD {ds : List Payload} {x : Nat} (hx : x < ds.length) : ds[x]? = some (ds.getD x 0) := by
  simp [hx]

theorem mapM_eq_some_map {α β : Type} {f : α → Option β} {g : α → β} : ∀ {l : List α}, (∀ a ∈ l, f a = some (g a)) → l.mapM f = some (l.map g)
  | [], _ => rfl
  | a :: l, h => by
    rw [List.mapM_cons, h a List.mem_cons_self, mapM_eq_some_map fun b hb => h b (List.mem_cons_of_mem a hb)]
    rfl

theorem allData_eq {ds : List Payload} {col : Column} (h : ∀ x < ds.length, rebuildData ds.length col x = ds[x]?) : allData ds.length col = some ds := by
  have hlist : (List.range ds.length).map (ds.getD · 0) = ds := List.ext_getElem (by simp) fun i _ hi => by simp [hi]
  have hget (x : Nat) (hx : x ∈ List.range ds.length) : rebuildData ds.length col x = some (ds.getD x 0) := by
    rw [h x (List.mem_range.1 hx), getElem?_eq_some_getD (List.mem_range.1 hx)]
  rw [allData, mapM_eq_some_map hget, hlist]

/-- A column holds nothing but members of the Durable column of some data. -/
def PartOf (ds : List Payload) (col : Column) : Prop := ∀ j d, tget col j = some d → tget (durableColumn ds) j = some d

section
variable {ds : List Payload} {col : Column} (hpart : PartOf ds col)
include hpart

theorem PartOf.data {j : Nat} (hj : j < ds.length) : tget col j = none ∨ tget col j = some (ds.getD j 0) := by
  cases h : tget col j with
  | none => exact .inl rfl
  | some d => exact .inr ((hpart j d h).symm.trans (tget_durableColumn_data hj))

theorem PartOf.eq_parityP {p : Payload} (h : tget col ds.length = some p) : p = parityP ds :=
  Option.some.inj ((hpart _ _ h).symm.trans (tget_durableColumn_P ds))

theorem PartOf.eq_parityQ {q : Payload} (h : tget col (ds.length + 1) = some q) : q = parityQ ds :=
  Option.some.inj ((hpart _ _ h).symm.trans (tget_durableColumn_Q ds))

theorem PartOf.pxy_parityP : pxy ds.length col (parityP ds) = memberSum id ds (erased ds.length col) := by
  rw [parityP_eq_memberSum]
  refine survivors_sum _ fun j hj s => ?_
  obtain h | h := hpart.data (List.mem_range.1 hj)
  · simp only [thas, h]
    rfl
  · simp only [thas, h, Function.iterate_id]
    rfl

theorem PartOf.qxy_parityQ : qxy ds.length col (parityQ ds) = memberSum gfDouble ds (erased ds.length col) := by
  rw [parityQ_eq_memberSum]
  refine survivors_sum _ fun j hj s => ?_
  obtain h | h := hpart.data (List.mem_range.1 hj)
  · simp only [thas, h]
    rfl
  · simp only [thas, h, gfShift_eq_iterate]
    rfl

/-- Where two members at the most are erased, every data member comes back. -/
theorem PartOf.rebuildData_eq (hlen : tget col (ds.length + 1) ≠ none → ds.length ≤ 254) (hcount : (erased (ds.length + 2) col).length ≤ 2) {x : Nat}
    (hx : x < ds.length) : rebuildData ds.length col x = ds[x]? := by
  rw [getElem?_eq_some_getD hx]
  obtain hnone | hsome := hpart.data hx
  case inr => exact rebuildData_of_tget hsome
  obtain ⟨p, he, hP⟩ | ⟨q, he, hP, hQ⟩ | ⟨y, p, q, hne, he, hP, hQ⟩ := rebuildable_cases (mem_erased.2 ⟨hx, hnone⟩) hcount
  · have hDx : memberSum id ds [x] = ds.getD x 0 := by
      rw [memberSum, memberSum, Function.iterate_id]
      exact BitVec.xor_zero
    rw [rebuildData_by_P hnone he hP, hpart.eq_parityP hP, hpart.pxy_parityP, he, hDx]
  · have hDx : memberSum gfDouble ds [x] = gfScale (gfPow x) (ds.getD x 0) := by
      rw [memberSum, memberSum, ← gfShift_eq_iterate, gfScale_gfPow]
      exact BitVec.xor_zero
    rw [rebuildData_by_Q hnone he hP hQ, hpart.eq_parityQ hQ, hpart.qxy_parityQ, he, hDx, gfScale_gfInv (gfPow_bounds x).1 (gfPow_bounds x).2]
  · have hy : y < ds.length := (mem_erased.1 (show y ∈ erased ds.length col by obtain h | h := he <;> simp [h])).1
    have hk : ds.length ≤ 254 := hlen (by simp [hQ])
    rw [rebuildData_by_PQ hnone hne he hP hQ, hpart.eq_parityP hP, hpart.eq_parityQ hQ, hpart.pxy_parityP, hpart.qxy_parityQ, memberSum_pair id ds he,
      memberSum_pair gfDouble ds he, Function.iterate_id, Function.iterate_id, ← gfShift_eq_iterate, ← gfShift_eq_iterate]
    exact congrArg some (gf_solve (by omega) (by omega) hne _ _)

/-- Where two members at the most are erased, every member comes back: data by R268, P and Q from the data. -/
theorem PartOf.rebuildRole_eq (hlen : tget col (ds.length + 1) ≠ none → ds.length ≤ 254) (hcount : (erased (ds.length + 2) col).length ≤ 2) {r : Nat}
    (hr : r ≤ ds.length + 1) : rebuildRole ds.length col r = tget (durableColumn ds) r := by
  have hdata (x : Nat) (hx : x < ds.length) := hpart.rebuildData_eq hlen hcount hx
  obtain hlt | rfl | rfl : r < ds.length ∨ r = ds.length ∨ r = ds.length + 1 := by omega
  · rw [rebuildRole, if_pos hlt, hdata r hlt, tget_durableColumn_data hlt, getElem?_eq_some_getD hlt]
  · rw [rebuildRole, if_neg (by omega), allData_eq hdata, tget_durableColumn_P, Option.map_some, if_pos rfl]
  · rw [rebuildRole, if_neg (by omega), allData_eq hdata, tget_durableColumn_Q, Option.map_some, if_neg (by omega)]

end

/-! ### A Durable column with some members erased -/

/-- A Durable column without the members of a list. -/
def erasures (ds : List Payload) (l : List Nat) : Column := l.foldl tdel (durableColumn ds)

theorem tget_erasures (ds : List Payload) (l : List Nat) (j : Nat) : tget (erasures ds l) j = if j ∈ l then none else tget (durableColumn ds) j :=
  tget_foldl_tdel l (durableColumn_eq ds ▸ wf_numberedFrom 0 _) j

theorem partOf_erasures (ds : List Payload) (l : List Nat) : PartOf ds (erasures ds l) := by
  intro j d hj
  rw [tget_erasures] at hj
  split at hj
  · cases hj
  · exact hj

theorem isSome_tget_durableColumn {ds : List Payload} {j : Nat} (hj : j < ds.length + 2) : (tget (durableColumn ds) j).isSome := by
  rw [durableColumn_eq, tget_numberedFrom]
  simp
  omega

theorem mem_erased_erasures {ds : List Payload} {l : List Nat} {j : Nat} : j ∈ erased (ds.length + 2) (erasures ds l) ↔ j < ds.length + 2 ∧ j ∈ l := by
  rw [mem_erased, tget_erasures]
  refine and_congr_right fun hj => ?_
  have hsome := isSome_tget_durableColumn hj
  by_cases h : j ∈ l
  · simp [h]
  · simp [h, Option.isSome_iff_ne_none.1 hsome]

theorem length_erased_erasures_le (ds : List Payload) (l : List Nat) : (erased (ds.length + 2) (erasures ds l)).length ≤ l.length :=
  (List.nodup_range.filter _).length_le_of_subset fun _ h => (mem_erased_erasures.1 h).2

theorem le_length_erased_erasures {ds : List Payload} {l : List Nat} (hl : l.Nodup) (hin : ∀ a ∈ l, a ≤ ds.length + 1) :
    l.length ≤ (erased (ds.length + 2) (erasures ds l)).length :=
  hl.length_le_of_subset fun a ha => mem_erased_erasures.2 ⟨Nat.lt_succ_of_le (hin a ha), ha⟩

/-- Three or more erasures lose the erased data members and no other. -/
theorem rebuildData_erasures {ds : List Payload} {l : List Nat} (hl : l.Nodup) (hin : ∀ a ∈ l, a ≤ ds.length + 1) (hcount : 2 < l.length) {r : Nat} (hr : r < ds.length) :
    rebuildData ds.length (erasures ds l) r = if r ∈ l then none else ds[r]? := by
  have hget := tget_erasures ds l r
  split
  case isTrue h =>
    rw [if_pos h] at hget
    exact rebuildData_lost hget (hcount.trans_le (le_length_erased_erasures hl hin))
  case isFalse h =>
    rw [if_neg h, tget_durableColumn_data hr] at hget
    rw [rebuildData_of_tget hget, getElem?_eq_some_getD hr]

/-- Up to two erasures lose nothing. The powers of g tell 254 data members apart; without Q their number does not matter. -/
theorem rebuildRole_erasures {ds : List Payload} {l : List Nat} (hlen : ds.length + 1 ∈ l ∨ ds.length ≤ 254) (hcount : l.length ≤ 2) {r : Nat} (hr : r ≤ ds.length + 1) :
    rebuildRole ds.length (erasures ds l) r = tget (durableColumn ds) r :=
  (partOf_erasures ds l).rebuildRole_eq (fun hQ => hlen.resolve_left fun h => hQ (by rw [tget_erasures, if_pos h]))
    ((length_erased_erasures_le ds l).trans hcount) hr

/-- Settles O59: two erasures of a Durable column lose nothing (`rebuildRole_erasures`), three lose what they erase (`rebuildData_erasures`). -/
theorem durableColumnsRebuildTwo : Obligations.DurableColumnsRebuildTwo := by
  unfold Obligations.DurableColumnsRebuildTwo
  refine ⟨?_, ?_⟩
  · intro ds a b r _ hlen _ _ hr
    exact rebuildRole_erasures (l := [a, b]) (.inr hlen) (by simp) hr
  · intro ds a b c r ha hb hc hab hbc hac hr
    have h := rebuildData_erasures (ds := ds) (l := [a, b, c]) (by simp [hab, hbc, hac]) (by simp [ha, hb, hc]) (by simp) hr
    have hmem : r ∈ [a, b, c] ↔ r = a ∨ r = b ∨ r = c := by simp
    rw [if_congr hmem rfl rfl] at h
    exact h

/-- Settles O58: a Lean column is a Durable one that has lost its Q, so one more erasure loses nothing and two more lose what they erase. -/
theorem leanColumnsRebuildOne : Obligations.LeanColumnsRebuildOne := by
  unfold Obligations.LeanColumnsRebuildOne
  simp only [leanColumn_eq_tdel]
  refine ⟨?_, ?_⟩
  · intro ds a r _ _ hr
    have hQ : r ∉ [ds.length + 1] := by simp; omega
    have h := rebuildRole_erasures (ds := ds) (l := [ds.length + 1, a]) (.inl (by simp)) (by simp) (r := r) (by omega)
    exact h.trans ((tget_erasures ds [ds.length + 1] r).trans (if_neg hQ)).symm
  · intro ds a b r ha hb hab hr
    have h := rebuildData_erasures (ds := ds) (l := [ds.length + 1, a, b]) (by simp; omega) (by simp; omega) (by simp) hr
    have hmem : r ∈ [ds.length + 1, a, b] ↔ r = a ∨ r = b := by simp; omega
    rw [if_congr hmem rfl rfl] at h
    exact h

end Sys2Proof.Machine

/-!
Power loss and starts (spec/09_power_loss_and_startup.md): the rails, the hold-up bank, the phases of a start, the flush, acknowledgement and spilling.
-/

namespace Sys2Proof.Machine

/-! ### The main die goes (R328) -/

section
variable (d : Dev)

theorem silThaw_frame (p : Path) : silThaw p d = { d with sil := (silThaw p d).sil } := by
  unfold silThaw
  rw [silKick_frame]
  rfl

theorem silMainGone_frame : silMainGone d = { d with sil := (silMainGone d).sil } := by
  unfold silMainGone
  rw [silThaw_frame, silLose_frame]
  rfl

@[simp] theorem mainOff_kpr : (mainOff d).kpr = { d.kpr with shutdown := false } := by
  unfold mainOff
  rw [silMainGone_frame]

@[simp] theorem mainOff_hld : (mainOff d).hld = { d.hld with charging := d.hld.charging && !d.kpr.pf } := by
  unfold mainOff
  rw [silMainGone_frame]

@[simp] theorem mainOff_jnl : (mainOff d).jnl = { d.jnl with tail := [], tailAt := none, writing := none } := by
  unfold mainOff
  rw [silMainGone_frame]

@[simp] theorem mainOff_sl1 : (mainOff d).sec.sl1 = d.sec.sl1 := by
  unfold mainOff
  rw [silMainGone_frame]

/-- The ring and what it has numbered, which neither a loss nor the start of a write or an erase touches. -/
def silRing (d : Dev) : Tbl SilRec × Nat := (d.sil.slots, d.sil.rseq)

theorem silKick_ring : silRing (silKick d) = silRing d := by
  have hshed : silRing (silShed d) = silRing d := congrArg (fun k : Kept => (k.slots, k.rseq)) (silShed_kept d)
  unfold silKick
  split
  · rfl
  · dsimp only
    split
    · exact hshed
    · split <;> exact hshed

theorem silMainGone_ring : silRing (silMainGone d) = silRing d := by
  have hlose (cause n ty : Nat) (e : Dev) : silRing (silLose cause n ty e) = silRing e := congrArg (fun k : Kept => (k.slots, k.rseq)) (silLose_kept e cause n ty)
  unfold silMainGone silThaw
  rw [silKick_ring]
  exact hlose _ _ _ _

@[simp] theorem mainOff_slots : (mainOff d).sil.slots = d.sil.slots := congrArg Prod.fst (silMainGone_ring d)
@[simp] theorem mainOff_rseq : (mainOff d).sil.rseq = d.sil.rseq := congrArg Prod.snd (silMainGone_ring d)

end
end Sys2Proof.Machine

namespace Sys2Proof.Machine

section
variable {s : State} {d : Dev}

/-! ### Events that occur -/

/-- An event whose conditions hold has its effect. -/
theorem next_onlyIf {c : Bool} (h : c = true) (f : Dev → Dev) (d : Dev) :
    (.next { s with dev := onlyIf c f d } : Host.Outcome State Fault Refusal) = .next { s with dev := f d } := by rw [h]; rfl

/-- An event that names something there has its effect on it. -/
theorem next_withSome {α : Type} {o : Option α} {a : α} (h : o = some a) (f : α → Dev → Dev) (d : Dev) :
    (.next { s with dev := withSome o f d } : Host.Outcome State Fault Refusal) = .next { s with dev := f a d } := by rw [h]; rfl

/-! ### Rails (R445, R446, R540-R542) -/

/-- What a stop keeps is kept in the rescue rows alone. -/
theorem leave_frame (r : Dev → Rescue) : leave r d = { d with jnl := { d.jnl with rescue := (leave r d).jnl.rescue } } := by
  unfold leave
  split <;> rfl

@[simp] theorem leave_kpr (r : Dev → Rescue) : (leave r d).kpr = d.kpr := by rw [leave_frame]
@[simp] theorem leave_sil (r : Dev → Rescue) : (leave r d).sil = d.sil := by rw [leave_frame]
@[simp] theorem leave_sec (r : Dev → Rescue) : (leave r d).sec = d.sec := by rw [leave_frame]
@[simp] theorem leave_flash (r : Dev → Rescue) : (leave r d).jnl.flash = d.jnl.flash := by rw [leave_frame]
@[simp] theorem leave_prog (r : Dev → Rescue) : (leave r d).jnl.prog = d.jnl.prog := by rw [leave_frame]

@[simp] theorem railsUp_kpr (t : Nat) : (railsUp t d).kpr = { d.kpr with state := 1, fet := true, ken := [0], kpg := [], railAt := t, restartAt := none } := rfl

/-- With every rail down the cause of the next start says what follows: none, VIN's return, or a start at once where VIN is there. -/
theorem railsDown_none (t : Nat) (h : d.kpr.restart = none) : (railsDown t d).kpr.state = 5 := by simp [railsDown, h]

theorem railsDown_cold (t : Nat) (h : d.kpr.restart = some 1) : (railsDown t d).kpr.state = 0 ∧ (railsDown t d).kpr.pf = false := by simp [railsDown, h]

theorem railsDown_again {c : Nat} (t : Nat) (h : d.kpr.restart = some c) (hc : c ≠ 1) (hok : vinOk d = true) :
    (railsDown t d).kpr.state = 1 ∧ (railsDown t d).kpr.ken = [0] ∧ (railsDown t d).kpr.restart = some c := by
  have hok' : vinOk (onKpr (fun k => { k with ken := [], kpg := [], downFrom := none, buck := false, flush := none }) d) = true := hok
  simp [railsDown, h, hok']

theorem strapEvents_frame : strapEvents d = { d with sil := (strapEvents d).sil } := by
  simp only [strapEvents]
  (repeat' split) <;> rfl

theorem sensorsFresh_frame : sensorsFresh d = { d with sil := (sensorsFresh d).sil } :=
  forAll_keeps (P := fun e => e = { d with sil := e.sil }) _ _ (forAll_keeps (P := fun e => e = { d with sil := e.sil }) _ _ rfl fun _ _ _ h => by rw [h]; rfl) fun _ _ _ h => by rw [h]; rfl

@[simp] theorem coldStart_kpr : (coldStart d).kpr = { d.kpr with shutdown := false, pwrcyc := (d.kpr.pwrcyc + 1) % 2 ^ 24 } := by
  simp only [coldStart, mainOff_kpr]
  rw [sensorsFresh_frame]

@[simp] theorem coldStart_jnl : (coldStart d).jnl = { d.jnl with tail := [], tailAt := none, writing := none } := by
  simp only [coldStart, mainOff_jnl]
  rw [sensorsFresh_frame]

end

/-- Settles O34: each event of the rails by its effect, and what the main die leaves when it goes (`mainOff_kpr`, `mainOff_jnl`). -/
theorem railsComplete : Obligations.RailsComplete := by
  unfold Obligations.RailsComplete
  refine ⟨⟨?cold, ?above, ?stable, ?inrush, ?good, ?lock, ?relock, ?timeout, ?restart⟩, ?fault, ?down, ?lost⟩
  case cold =>
    intro s vin vaux tm hrun
    refine ⟨fun hmax => if_pos (by simp [hrun, hmax]), fun hmax hup => ?_⟩
    refine ⟨_, (if_neg (by simp [hmax])).trans (next_onlyIf (by simp [hrun, hup]) _ _), rfl, rfl, rfl, ?_, rfl, rfl, rfl, ?_, ?_⟩
    · simp
    · simp
    · simp
  case above =>
    intro s mv tm hrun hmv
    refine ⟨fun hmax => if_pos (by simp [hrun, hmax]), fun hmax => ?_⟩
    refine ⟨_, (if_neg (by simp [hmax])).trans (next_onlyIf (by simp [hrun, hmv]) _ _), ?_⟩
    by_cases h : s.dev.kpr.state = 1 <;> simp [onKpr, h, sequenceLost]
  case stable =>
    intro s mv tm a hrun hst hfails hat hwhy hlost hlo hhi hok hdue
    refine ⟨_, (next_withSome (by simp [hlo, hhi, hok]; rfl) _ _).trans (next_onlyIf (by simp [hrun, hst, hfails, hat, hwhy, hlost, hdue]) _ _), ?_, rfl⟩
    simp [onKpr, hlo, hhi, hok]
  case inrush =>
    intro s tm hst hken hat
    refine ⟨_, next_onlyIf (by simp [hst, hken, hat]) _ _, ?_, rfl⟩
    simp [hst, hat]
  case good =>
    intro s rail tm hst hken hkpg
    exact ⟨_, next_onlyIf (by simp [hst, hken, hkpg]) _ _, rfl, rfl⟩
  case lock =>
    intro s tm hst hkpg
    have hx : exec (.rootPllLock tm) s = .next { s with dev := rootPllLock tm (tick tm s.dev) } := by
      show execRootPllLock tm s = _
      simp [execRootPllLock, on_next, hst, hkpg]
    refine ⟨_, hx, ?_⟩
    simp only [rootPllLock]
    rw [strapEvents_frame]
    exact ⟨rfl, rfl, rfl, rfl, rfl, rfl, rfl, rfl⟩
  case relock =>
    intro s tm hst haon hpll
    have hx : exec (.rootPllLock tm) s = .next { s with dev := { tick tm s.dev with pwr := { (tick tm s.dev).pwr with pllLock := true, holdover := false } } } := by
      show execRootPllLock tm s = _
      simp [execRootPllLock, on_next, hst, haon, hpll]
    exact ⟨_, hx, rfl, rfl, rfl⟩
  case timeout =>
    intro s vout tm n hst hn hdue
    refine ⟨_, (next_withSome hn _ _).trans (next_onlyIf (by simp [hst, hdue]) _ _), rfl, rfl, rfl, fun hf => ?_, fun hf => ?_, rfl⟩
    · have h3 : ¬ 3 ≤ s.dev.kpr.seqFails + 1 := by omega
      simp [onKpr, h3]
    · have h3 : 3 ≤ s.dev.kpr.seqFails + 1 := by omega
      simp [onKpr, h3]
  case restart =>
    intro s mv tm a hst hlo hhi hat hdue
    refine ⟨_, next_onlyIf (by simp [onKpr, vinOk, hst, hlo, hhi, hat, hdue]) _ _, ?_⟩
    simp [onKpr, hst]
  case fault =>
    intro s rail vout tm hst hkpg
    refine ⟨_, next_onlyIf (by simpa [or_assoc] using ⟨hst, hkpg⟩) _ _, rfl, rfl, rfl, rfl, rfl, rfl, rfl, ?_, ?_⟩
    · simp [cutRails]
    · simp [cutRails]
  case down =>
    intro s tm hst
    refine ⟨_, next_onlyIf (by simp [hst]) _ _, fun n hn => ?_, fun hken hwhy => ?_, fun hken hwhy => ?_, fun c hken hwhy hc hok => ?_⟩
    · simp [hn, hst]
    · simpa [hken] using railsDown_none (d := tick tm s.dev) tm hwhy
    · simpa [hken] using railsDown_cold (d := tick tm s.dev) tm hwhy
    · simpa [hken] using railsDown_again (d := tick tm s.dev) tm hwhy hc hok
  case lost =>
    intro s tm hrun
    refine ⟨_, next_onlyIf hrun _ _, rfl, rfl, ?_, rfl, ?_, ?_, (mainOff_slots _).trans ?_, (mainOff_rseq _).trans ?_, ?_⟩
    all_goals simp

end Sys2Proof.Machine

namespace Sys2Proof.Machine

/-! ### What building, erasing and freeing system rows leaves

`standing` gathers what the statements about the hold-up bank, starts and checkpoints read besides the maps: system rows come and go by journal records, operations of the Almanac and marks of beds.
One equation per operation, in the order of the model's files. -/

structure Standing where
  qm : Qm
  clo : Clo
  kpr : Kpr
  hld : Hld
  sec : Sec
  rescue : Rescue
  formatted : Bool
  writing : Option CkptRun
  ckpt0 : Option Ckpt
  ckpt1 : Option Ckpt
  prog : List (Nat × JRec)

def standing (d : Dev) : Standing :=
  ⟨d.qm, d.clo, d.kpr, d.hld, d.sec, d.jnl.rescue, d.jnl.formatted, d.jnl.writing, d.jnl.ckpt0, d.jnl.ckpt1, d.jnl.prog⟩

section
variable {α : Type} (d : Dev)

@[simp] theorem standing_mk (id rf qm bpm maps alm med jnl clo kpr hld smt pcx hl ecc sec scu pwr thm age sil mgt io) :
    standing ⟨id, rf, qm, bpm, maps, alm, med, jnl, clo, kpr, hld, smt, pcx, hl, ecc, sec, scu, pwr, thm, age, sil, mgt, io⟩ =
      ⟨qm, clo, kpr, hld, sec, jnl.rescue, jnl.formatted, jnl.writing, jnl.ckpt0, jnl.ckpt1, jnl.prog⟩ := (rfl)

@[simp] theorem standing_eta :
    Standing.mk d.qm d.clo d.kpr d.hld d.sec d.jnl.rescue d.jnl.formatted d.jnl.writing d.jnl.ckpt0 d.jnl.ckpt1 d.jnl.prog = standing d := (rfl)

@[simp] theorem standing_ite (c : Prop) [Decidable c] (d e : Dev) : standing (if c then d else e) = if c then standing d else standing e := apply_ite standing c d e

@[simp] theorem standing_foldl {f : Dev → α → Dev} (hf : ∀ d a, standing (f d a) = standing d) (l : List α) (d : Dev) : standing (l.foldl f d) = standing d := by
  induction l generalizing d with
  | nil => rfl
  | cons a l ih => rw [List.foldl_cons, ih, hf]

@[simp] theorem standing_forAll {f : α → Dev → Dev} (hf : ∀ a d, standing (f a d) = standing d) (l : List α) (d : Dev) : standing (forAll l f d) = standing d :=
  standing_foldl (fun d a => hf a d) l d

/-! #### Ops, Trellis -/

@[simp] theorem tick_standing (t) : standing (tick t d) = standing d := (rfl)
@[simp] theorem raise_standing (ty ps) : standing (raise ty ps d) = standing d := (rfl)
@[simp] theorem record_standing (r) : standing (record r d) = standing d := (rfl)
@[simp] theorem putBed_standing (die bed f) : standing (putBed die bed f d) = standing d := (rfl)

@[simp] theorem placeBed_standing (row pos die life system) : standing (placeBed row pos die life system d) = standing d := by
  unfold placeBed
  split <;> simp

@[simp] theorem rowBuilt_standing (row) : standing (rowBuilt row d) = standing d := by
  unfold rowBuilt
  split <;> simp

@[simp] theorem makeRow_standing (w dies bset) : standing (makeRow w dies bset d).2 = standing d := by simp [makeRow]

/-! #### Place, Budget -/

@[simp] theorem queueOp_standing (o) : standing (queueOp o d) = standing d := (rfl)
@[simp] theorem dropWork_standing (w) : standing (dropWork w d) = standing d := (rfl)
@[simp] theorem queueErase_standing (die bed level) : standing (queueErase die bed level d) = standing d := by simp [queueErase]
@[simp] theorem clearFlash_standing (die bed) : standing (clearFlash die bed d) = standing d := (rfl)

@[simp] theorem rescueDrain_standing : standing (rescueDrain d) = standing d := by
  refine standing_forAll (fun e d => ?_) _ _
  rw [standing_forAll fun _ _ => queueErase_standing ..]
  rfl

/-! #### Herarn, Media -/

@[simp] theorem onLink_standing (l f) : standing (onLink l f d) = standing d := (rfl)
@[simp] theorem onSeq_standing (l f) : standing (onSeq l f d) = standing d := (rfl)
@[simp] theorem onDie_standing (die f) : standing (onDie die f d) = standing d := (rfl)
@[simp] theorem dropFresh_standing (die bed) : standing (dropFresh die bed d) = standing d := by simp [dropFresh]

@[simp] theorem wornCheck_standing (die) : standing (wornCheck die d) = standing d := by
  unfold wornCheck
  split <;> simp

@[simp] theorem retireBed_standing (die bed cause) : standing (retireBed die bed cause d) = standing d := by simp [retireBed]
@[simp] theorem oldBed_standing (row die bed cause next) : standing (oldBed row die bed cause next d) = standing d := (rfl)
@[simp] theorem freeBed_standing (o) : standing (freeBed o d) = standing d := by simp [freeBed]
@[simp] theorem retryRebuilds_standing : standing (retryRebuilds d) = standing d := (rfl)
@[simp] theorem freeOld_standing (row) : standing (freeOld row d) = standing d := by simp [freeOld]

@[simp] theorem dropRebuild_standing (key) : standing (dropRebuild key d) = standing d := by
  unfold dropRebuild
  split <;> simp

/-! #### Stop -/

@[simp] theorem eraseSys_standing : standing (eraseSys d) = standing d := by simp [eraseSys]

@[simp] theorem journalPair_standing : standing (journalPair d) = standing d := by
  simp only [journalPair]
  split <;> simp

@[simp] theorem growJournal_standing : ∀ (n : Nat) (d : Dev), standing (growJournal n d) = standing d
  | 0, _ => rfl
  | n + 1, d => by simp [growJournal, growJournal_standing n]

@[simp] theorem freeSysRow_standing (row r) : standing (freeSysRow row r d) = standing d := by simp [freeSysRow]

@[simp] theorem trimPairs_standing : ∀ (n : Nat) (d : Dev), standing (trimPairs n d) = standing d
  | 0, _ => rfl
  | n + 1, d => by
    unfold trimPairs
    split <;> simp [trimPairs_standing n]

@[simp] theorem settleArea_standing : standing (settleArea d) = standing d := by simp [settleArea]

/-! #### Startup -/

@[simp] theorem settleDie_standing (die) : standing (settleDie die d) = standing d := by
  simp only [settleDie]
  split <;> simp

@[simp] theorem wornAgain_standing (die) : standing (wornAgain die d) = standing d := (rfl)

@[simp] theorem ckptRow_standing : standing (ckptRow d) = standing d := by
  simp only [ckptRow]
  split <;> simp

@[simp] theorem growCkpt_standing : ∀ (n : Nat) (d : Dev), standing (growCkpt n d) = standing d
  | 0, _ => rfl
  | n + 1, d => by simp [growCkpt, growCkpt_standing n]

@[simp] theorem rescueForm_standing (w : Want) (n : Nat) : ∀ (fuel : Nat) (gs : List (List Nat)) (d : Dev), standing (rescueForm w n fuel gs d) = standing d
  | 0, _, _ => rfl
  | fuel + 1, gs, d => by
    unfold rescueForm
    split <;> simp [rescueForm_standing w n fuel]

@[simp] theorem makeRescue_standing : standing (makeRescue d) = standing d := by simp [makeRescue]

end
end Sys2Proof.Machine

namespace Sys2Proof.Machine

section
variable {s : State} {d : Dev} {path : Path} {tm : Nat}

/-! ### The ceiling (R29, R293-R295) -/

theorem armList_frame (d : Dev) : armList d = { d with jnl := { d.jnl with used := (armList d).jnl.used }, clo := { d.clo with armed := (armList d).clo.armed } } := by
  simp only [armList]
  split <;> rfl

theorem bleedOn_frame (d : Dev) : bleedOn d = { d with hld := { d.hld with charging := (bleedOn d).hld.charging, discharging := (bleedOn d).hld.discharging } } := by
  unfold bleedOn
  split <;> rfl

/-- The ceiling takes effect with the records of the fallback and the watch; nothing else moves. -/
theorem setCeiling_frame (t : Nat) (d : Dev) : setCeiling t d = { d with
    sil := { d.sil with inboxMain := (setCeiling t d).sil.inboxMain }
    clo := { d.clo with ceil := ceilingNow d, shortSince := (setCeiling t d).clo.shortSince, fallback := (setCeiling t d).clo.fallback } } := by
  simp only [setCeiling]
  (repeat' split) <;> rfl

/-- Without a valid measurement, or while the bank is bled, the ceiling is zero (R294, R303). -/
theorem ceilingNow_invalid (h : (bankSeen d).valid = false) : ceilingNow d = 0 := by simp [ceilingNow, zeroReason, h]

theorem ceilingNow_bleeding (h : (bankSeen d).bleeding = true) : ceilingNow d = 0 := by
  have hz : zeroReason d ≠ 0 := by
    simp only [zeroReason, h, if_true]
    (repeat' split) <;> simp
  simp [ceilingNow, hz]

theorem setCeiling_to (t : Nat) (d : Dev) : (setCeiling t d).clo.ceil = ceilingNow d := by rw [setCeiling_frame]

/-- The ceiling does not depend on what `setCeiling` changes. -/
theorem setCeiling_ceil (t : Nat) (d : Dev) : (setCeiling t d).clo.ceil = ceilingNow (setCeiling t d) := by
  rw [setCeiling_frame]
  rfl

theorem bankSeen_valid_recomputed (d : Dev) : (bankSeen (bleedOn (armList d))).valid = (bankSeen d).valid := by
  rw [bleedOn_frame, armList_frame]
  unfold bankSeen
  cases d.clo.bank <;> rfl

@[simp] theorem armList_kpr (d : Dev) : (armList d).kpr = d.kpr := by rw [armList_frame]
@[simp] theorem armList_qm (d : Dev) : (armList d).qm = d.qm := by rw [armList_frame]
@[simp] theorem bleedOn_kpr (d : Dev) : (bleedOn d).kpr = d.kpr := by rw [bleedOn_frame]
@[simp] theorem bleedOn_qm (d : Dev) : (bleedOn d).qm = d.qm := by rw [bleedOn_frame]
@[simp] theorem setCeiling_kpr (t : Nat) (d : Dev) : (setCeiling t d).kpr = d.kpr := by rw [setCeiling_frame]
@[simp] theorem setCeiling_qm (t : Nat) (d : Dev) : (setCeiling t d).qm = d.qm := by rw [setCeiling_frame]
@[simp] theorem setCeiling_inbox (t : Nat) (d : Dev) : (setCeiling t d).sil.inbox = d.sil.inbox := by rw [setCeiling_frame]
@[simp] theorem setCeiling_hld (t : Nat) (d : Dev) : (setCeiling t d).hld = d.hld := by rw [setCeiling_frame]

theorem ceilingNow_ceilDue (d : Dev) (n : Nat) : ceilingNow { d with clo := { d.clo with ceilDue := n } } = ceilingNow d := rfl

/-! ### Accesses to the power die -/

theorem nextReg_onlyIf {c : Bool} (h : c = true) (f : Dev → Dev) (d : Dev) :
    (.next { s with dev := touchPath path (onlyIf c f d) } : Host.Outcome State Fault Refusal) = .next { s with dev := touchPath path (f d) } := by rw [h]; rfl

@[simp] theorem touchPath_hld (p : Path) (d : Dev) : (touchPath p d).hld = d.hld := touchPath_field Dev.hld (fun _ _ => rfl) p d
@[simp] theorem touchPath_kpr (p : Path) (d : Dev) : (touchPath p d).kpr = d.kpr := touchPath_field Dev.kpr (fun _ _ => rfl) p d
@[simp] theorem touchPath_clo (p : Path) (d : Dev) : (touchPath p d).clo = d.clo := touchPath_field Dev.clo (fun _ _ => rfl) p d

@[simp] theorem tick_patrolDays (t : Nat) (d : Dev) : patrolDays (tick t d) = patrolDays d := rfl
@[simp] theorem tick_calBlock (t u : Nat) (d : Dev) : calBlock t (tick u d) = calBlock t d := rfl

/-! ### The measurement, bleeding and the ADC (R298-R303) -/

/-- Are a measurement's results inside the limits (R298)? -/
def CalInLimits (d : Dev) (cap esr : Nat) : Prop :=
  (if d.hld.valid then d.hld.cap else 1000) ≤ 10 * cap ∧ cap ≤ 10 * (if d.hld.valid then d.hld.cap else 1000) ∧ esr < 10000

theorem hldCalDone_inLimits {cap esr t : Nat} (h : CalInLimits d cap esr) :
    (hldCalDone cap esr t d).hld = { (calOver d).hld with
      cap := cap, esr := esr, valid := true, validAt := t, result := 1, reason := 0, due := (hldCalDone cap esr t d).hld.due } ∧
    (hldCalDone cap esr t d).sil.inbox = d.sil.inbox ++ [(⟨.calDone, [cap, esr]⟩, false)] := by
  unfold CalInLimits at h
  simp only [hldCalDone, if_pos h]
  split <;> simp [calOver, lockVhold, noteCap]

theorem hldCalDone_outOfLimits {cap esr t : Nat} (h : ¬ CalInLimits d cap esr) : hldCalDone cap esr t d = lockVhold d.kpr.pf (calAbort 6 t d) := if_neg h

/-- An aborted measurement keeps the last result and names its reason (R300). -/
theorem calAbort_frame (on : Bool) (reason t : Nat) (d : Dev) : (lockVhold on (calAbort reason t d)).hld.calSt = 0 ∧
    (lockVhold on (calAbort reason t d)).hld.result = 3 ∧ (lockVhold on (calAbort reason t d)).hld.reason = reason ∧
    (lockVhold on (calAbort reason t d)).hld.cap = d.hld.cap ∧ (lockVhold on (calAbort reason t d)).hld.valid = d.hld.valid ∧
    (lockVhold on (calAbort reason t d)).sil.inbox = d.sil.inbox ++ [(⟨.calAbort, [reason]⟩, false)] := by
  simp [lockVhold, calAbort]

/-- What setting BLEED does to the bank and the ceiling, as `execHldCtrlBleedSet` names it. -/
def bleedSet (t : Nat) (d : Dev) : Dev :=
  let d := { d with hld := { d.hld with bleed := true, bleeding := true } }
  let d := if d.hld.calSt = 2 then lockVhold false (calAbort 3 t d) else d
  let d := if mainUp d then setCeiling t d else d
  bleedOn d

theorem hldCtrlBleedSet_eq (hreach : reachable s.dev path 0x101004 = true) (hbl : s.dev.hld.bleed = false) (hpf : s.dev.kpr.pf = false) :
    exec (.hldCtrlBleedSet path tm) s = .next { s with dev := touchPath path (bleedSet tm (tick tm s.dev)) } :=
  nextReg_onlyIf (by simp [hreach, hbl, hpf]) _ _

/-- A measurement that ends for a bleed leaves the bits of the bleed, the write buffer and the rails. -/
theorem calAbort_bleed (t : Nat) (d : Dev) :
    (lockVhold false (calAbort 3 t d)).hld.bleed = d.hld.bleed ∧ (lockVhold false (calAbort 3 t d)).hld.bleeding = d.hld.bleeding ∧
    (lockVhold false (calAbort 3 t d)).clo = d.clo ∧ (lockVhold false (calAbort 3 t d)).kpr = d.kpr ∧ (lockVhold false (calAbort 3 t d)).pwr = d.pwr := by
  simp [lockVhold, calAbort]

theorem bleedOn_bleeding (d : Dev) : (bleedOn d).hld.bleed = d.hld.bleed ∧ (bleedOn d).hld.bleeding = d.hld.bleeding ∧ (bleedOn d).clo = d.clo := by
  rw [bleedOn_frame]
  exact ⟨rfl, rfl, rfl⟩

theorem bleedSet_spec (t : Nat) (d : Dev) :
    (bleedSet t d).hld.bleed = true ∧ (bleedSet t d).hld.bleeding = true ∧ (bleedSet t d).kpr = d.kpr ∧ (mainUp d = true → d.clo.bank = none → (bleedSet t d).clo.ceil = 0) := by
  obtain ⟨e, he, hb, hbg, hclo, hkpr, hpwr⟩ : ∃ e, bleedSet t d = bleedOn (if mainUp e then setCeiling t e else e) ∧
      e.hld.bleed = true ∧ e.hld.bleeding = true ∧ e.clo = d.clo ∧ e.kpr = d.kpr ∧ e.pwr = d.pwr := by
    by_cases hcal : d.hld.calSt = 2
    · exact ⟨_, by simp only [bleedSet, if_pos hcal], calAbort_bleed t { d with hld := { d.hld with bleed := true, bleeding := true } }⟩
    · exact ⟨{ d with hld := { d.hld with bleed := true, bleeding := true } }, by simp only [bleedSet, if_neg hcal], rfl, rfl, rfl, rfl, rfl⟩
  obtain ⟨hb', hbg', hclo'⟩ := bleedOn_bleeding (if mainUp e then setCeiling t e else e)
  rw [he, hb', hbg', bleedOn_kpr, hclo']
  by_cases hup : mainUp e = true
  · rw [if_pos hup, setCeiling_hld, setCeiling_kpr, setCeiling_to]
    exact ⟨hb, hbg, hkpr, fun _ hbank => ceilingNow_bleeding (by rw [bankSeen, hclo, hbank]; exact hbg)⟩
  · rw [if_neg hup]
    refine ⟨hb, hbg, hkpr, fun hup' => absurd ?_ hup⟩
    rwa [mainUp, hpwr, hkpr]

/-- LEAKAGE_CHECK moves its due time on (R302). The due time is a variable here: the period's numeral is too large to stand in a comparison of states. -/
theorem leakageCheck_due {due : Nat} (hrun : s.dev.kpr.running = true) (hst : s.dev.hld.calSt ≠ 2) (hdue : s.dev.hld.leakDue ≤ tm)
    (hnext : tm + patrolDays s.dev * dayNs = due) :
    ∃ t, exec (.leakageCheck tm) s = .next t ∧ t.dev.hld = { s.dev.hld with leakDue := due } ∧ t.dev.kpr = s.dev.kpr := by
  have heff : execLeakageCheck tm s = .next { s with dev := { tick tm s.dev with hld := { s.dev.hld with leakDue := due } } } := by
    simp [execLeakageCheck, on_next, onlyIf, hrun, hst, hdue, hnext]
  exact ⟨_, heff, rfl, rfl⟩

/-- Whatever becomes of its range, a channel holds the code converted. -/
theorem adcTake_code (code : Nat) (c : AdcChan) : (adcTake code c).code = code := by
  simp only [adcTake]
  (repeat' split) <;> rfl

/-- The channels are four; those not converted yet stand at their reset values. -/
def adcChans (d : Dev) : List AdcChan := d.hld.chans ++ List.replicate (4 - d.hld.chans.length) ({} : AdcChan)

theorem adcChans_getD (n : Nat) (d : Dev) : (adcChans d).getD n {} = d.hld.chans.getD n {} := by
  simp only [adcChans, List.getD_eq_getElem?_getD, List.getElem?_append, List.getElem?_replicate]
  split
  · rfl
  · next h =>
    rw [List.getElem?_eq_none (by omega)]
    split <;> rfl

theorem adcSample_chan {chan : Nat} (code : Nat) (d : Dev) (h : chan < 4) : ∃ c, (adcSample chan code d).hld.chans[chan]? = some c ∧ c.code = code := by
  have hlt : chan < (adcChans d).length := by
    rw [adcChans, List.length_append, List.length_replicate]
    omega
  have hchans : (adcSample chan code d).hld.chans = (adcChans d).modify chan fun c => if chan = 3 then { c with code := code } else adcTake code c := by
    simp only [adcSample]
    split <;> rfl
  refine ⟨_, by rw [hchans, List.getElem?_modify_eq, List.getElem?_eq_getElem hlt]; rfl, ?_⟩
  split
  · rfl
  · exact adcTake_code ..

/-- A conversion changes the channels and, for VHOLD in a range that has not just changed, VHOLD. -/
theorem adcSample_frame (chan code : Nat) (d : Dev) :
    adcSample chan code d = { d with hld := { d.hld with chans := (adcSample chan code d).hld.chans, vhold := (adcSample chan code d).hld.vhold } } := by
  simp only [adcSample]
  split <;> rfl

theorem adcSample_vhold (code : Nat) (d : Dev) (h : (d.hld.chans.getD 1 {}).next = false) : (adcSample 1 code d).hld.vhold = adcMv (d.hld.chans.getD 1 {}).coarse code := by
  rw [← adcChans_getD] at h ⊢
  have hnext : True ∧ (!((d.hld.chans ++ List.replicate (4 - d.hld.chans.length) ({} : AdcChan)).getD 1 {}).next) = true := ⟨trivial, by rw [← adcChans, h]; rfl⟩
  simp only [adcSample]
  rw [if_pos hnext]
  rfl

end

/-- Settles O33: each event of the bank by its effect; a ceiling that is recomputed is the one of the part afterwards (`setCeiling_frame`), and what making rescue rows ready leaves (`rescueDrain_standing`). -/
theorem holdupBankComplete : Obligations.HoldupBankComplete := by
  unfold Obligations.HoldupBankComplete
  refine ⟨?ceiling, ?short, ?cal, ?schedule, ?done, ?abort, ?bleed, ?clear, ?bled, ?leak, ?adc⟩
  case ceiling =>
    intro s tm hup hdue
    have hsame : standing (rescueDrain (tick tm s.dev)) = standing s.dev := by simp
    refine ⟨_, next_onlyIf (by simp [hup, hdue]) _ _, ?_, ?_, fun hv => ?_, ?_, ?_⟩
    · rfl
    · exact (setCeiling_ceil _ _).trans (ceilingNow_ceilDue _ _).symm
    · refine (setCeiling_to tm (bleedOn (armList (rescueDrain (tick tm s.dev))))).trans (ceilingNow_invalid ?_)
      rw [bankSeen_valid_recomputed]
      exact (congrArg (fun w : Standing => (w.clo.bank.getD w.hld).valid) hsame).trans hv
    · exact (setCeiling_kpr tm _).trans ((bleedOn_kpr _).trans ((armList_kpr _).trans (congrArg Standing.kpr hsame)))
    · exact (setCeiling_qm tm _).trans ((bleedOn_qm _).trans ((armList_qm _).trans (congrArg Standing.qm hsame)))
  case short =>
    intro s tm a ha hup hdue hc
    exact ⟨_, (next_withSome ha _ _).trans (next_onlyIf (by simp [hup, hdue, hc]) _ _), rfl, rfl, rfl⟩
  case cal =>
    intro s path tm hreach hst
    refine ⟨_, nextReg_onlyIf (by simp [hreach, hst]) _ _, ?_⟩
    by_cases hwhy : calBlock tm s.dev = 0 <;> simp [hwhy, startCal, lockVhold]
  case schedule =>
    intro s tm hrun hst hdue
    refine ⟨_, next_onlyIf (by simpa [hrun, hst] using hdue) _ _, ?_⟩
    by_cases hwhy : calBlock tm s.dev = 0
    · simp [hwhy, startCal, lockVhold]
    by_cases hfirst : s.dev.hld.first = true
    · simp [hwhy, hfirst]
    · by_cases href : s.dev.hld.refused = true <;> simp [hwhy, hfirst, href]
  case done =>
    rintro s v1 v2 on off _ _ tm hrun hst rfl rfl
    refine ⟨_, next_onlyIf (by simp [hrun, hst]) _ _, ?_⟩
    by_cases hin : CalInLimits s.dev (calCap v1 v2) (calEsr on off)
    · obtain ⟨hhld, hbox⟩ := hldCalDone_inLimits (d := tick tm s.dev) (t := tm) hin
      have hbig : ¬ 10000 ≤ calEsr on off := Nat.not_le.mpr hin.2.2
      rw [hhld]
      exact ⟨rfl, fun _ _ _ => ⟨rfl, rfl, rfl, rfl, rfl, hbox ▸ List.mem_append_right _ (List.mem_singleton_self _)⟩, fun h => absurd h hbig⟩
    · rw [hldCalDone_outOfLimits (d := tick tm s.dev) hin]
      obtain ⟨hst', hres, hwhy, hcap, hval, hbox⟩ := calAbort_frame (tick tm s.dev).kpr.pf 6 tm (tick tm s.dev)
      exact ⟨hst', fun h1 h2 h3 => absurd ⟨h1, h2, h3⟩ hin, fun _ => ⟨hcap, hval, hres, hwhy, hbox ▸ List.mem_append_right _ (List.mem_singleton_self _)⟩⟩
  case abort =>
    intro s tm hrun hst hpf
    refine ⟨_, next_onlyIf (by simp [hrun, hst, hpf]) _ _, ?_⟩
    simp only [tick_kpr, hpf, Bool.false_eq_true, if_false, if_true]
    obtain ⟨hst', hres, hwhy, hcap, -, hbox⟩ := calAbort_frame false 5 tm (tick tm s.dev)
    exact ⟨hst', hres, hwhy, hcap, hbox⟩
  case bleed =>
    intro s path tm hreach hbl hpf
    obtain ⟨hb, hbg, hkpr, hceil⟩ := bleedSet_spec tm (tick tm s.dev)
    refine ⟨_, hldCtrlBleedSet_eq hreach hbl hpf, ?_⟩
    simp only [touchPath_hld, touchPath_clo, touchPath_kpr]
    exact ⟨hb, hbg, hceil, hkpr⟩
  case clear =>
    intro s path tm hreach hbl
    refine ⟨_, nextReg_onlyIf (by simp [hreach, hbl]) _ _, ?_⟩
    simp
  case bled =>
    intro s mv tm hrun hbl hdis hmv
    exact ⟨_, next_onlyIf (by simp [hrun, hbl, hdis, hmv]) _ _, rfl, rfl⟩
  case leak =>
    intro s tm hrun hst hdue
    exact leakageCheck_due hrun hst hdue rfl
  case adc =>
    intro s chan code tm hrun hchan
    refine ⟨fun h0 hmax => if_pos ⟨h0, hrun, hmax⟩, fun h => ?_⟩
    obtain ⟨c, hc, hcode⟩ := adcSample_chan (code % 262144) (tick tm s.dev) hchan
    have hne : ¬ (chan = 0 ∧ s.dev.kpr.running = true ∧ beyondMax (adcMv (s.dev.hld.chans.getD 0 {}).coarse (code % 262144)) = true) := by
      rintro ⟨h0, -, hmax⟩
      rcases h with h | h
      · exact h h0
      · rw [h] at hmax
        cases hmax
    refine ⟨_, c, (if_neg hne).trans (next_onlyIf (by simp [hrun, hchan]) _ _), hc, hcode, ?_, ?_, ?_⟩
    · rw [adcSample_frame]
      rfl
    · rintro rfl hnext
      exact adcSample_vhold _ (tick tm s.dev) hnext
    · rw [adcSample_frame]
      rfl

end Sys2Proof.Machine

namespace Sys2Proof.Machine

section
variable {s : State} {d : Dev} {t tm : Nat}

/-! ### Boot and discovery (R220, R388, R435, R436) -/

/-- The links' training orders change only what the links and the output hold. -/
theorem fullTraining_forAll (ls : List Nat) (t : Nat) (d : Dev) :
    forAll ls (fun l => fullTraining l t) d = { d with hl := (forAll ls (fun l => fullTraining l t) d).hl, io := (forAll ls (fun l => fullTraining l t) d).io } :=
  forAll_keeps (P := fun e => e = { d with hl := e.hl, io := e.io }) ls d rfl fun l _ e he => by
    rw [he]
    rfl

/-- Image A alone, which does not pass: the device enters phase 15 (R324). -/
theorem bootVerifyDone_refused {i : BootImage} (pools : List Nat) (h : imagePasses d i = false) :
    (bootVerifyDone (some i) none pools t d).clo.phase = 15 ∧ ⟨.recoveryFailed, [4]⟩ ∈ (bootVerifyDone (some i) none pools t d).sil.inboxMain := by
  simp [bootVerifyDone, imageOrder, h, toPhase]

/-- Image A alone, which passes: it starts, and the links train. -/
theorem bootVerifyDone_started {i : BootImage} (pools : List Nat) (h : imagePasses d i = true) (herase : d.sec.erasePend = false) :
    ∃ e, bootVerifyDone (some i) none pools t d = toPhase 5 (forAll (List.range (8 * linkGroups e)) (fun l => fullTraining l t) e) ∧
      e.clo.image = 0 ∧ e.sec.slot = i.slot ∧ e.sec.svn = i.svn ∧ e.pwr.padsSafe = false ∧ ⟨.bootImage, [0, i.svn, i.version]⟩ ∈ e.sil.inboxMain := by
  simp only [bootVerifyDone, imageOrder, List.find?_cons, h, raise_sec, herase, Bool.false_eq_true, if_false]
  exact ⟨_, rfl, by simp⟩

/-- What finding a die, or fencing a cluster, leaves. -/
theorem noteWear_maps (die : Nat) (valid : Bool) (d : Dev) : (noteWear die valid d).maps = d.maps := by
  unfold noteWear
  split <;> rfl

theorem discoverDie_maps (noWear : List Nat) (die : Nat) (d : Dev) : (discoverDie noWear die d).maps = d.maps := by
  simp only [discoverDie]
  (repeat' split) <;> simp [noteWear_maps]

theorem fenceCluster_maps (c : Nat) (d : Dev) : (fenceCluster c d).maps = d.maps := by
  unfold fenceCluster
  split <;> rfl

theorem discovered_maps (noWear clusters : List Nat) (d : Dev) : (discovered noWear clusters d).maps = d.maps :=
  forAll_keeps (P := fun e => e.maps = d.maps) _ _
    (forAll_keeps (P := fun e => e.maps = d.maps) _ _ rfl fun _ _ _ he => (discoverDie_maps ..).trans he)
    fun _ _ _ he => (fenceCluster_maps ..).trans he

/-! ### Checkpoints -/

theorem programTail_standing (d : Dev) : standing (programTail d) = { standing d with prog := d.jnl.prog ++ d.jnl.tail } := by
  unfold programTail
  split
  · next h =>
    rw [h, List.append_nil]
    rfl
  · next h => rw [h]; rfl

/-- The set that a checkpoint's end makes valid, and the journal's page with the end record. -/
def ckptEnded (w : CkptRun) (d : Dev) : Dev :=
  let c : Ckpt := { num := w.num, begin := w.begin, beganAt := w.beganAt, image := d.maps, readable := true }
  let d := programTail (record (.ckpt w.set w.num true) d)
  { d with jnl := { d.jnl with ckpt0 := if w.set = 0 then some c else d.jnl.ckpt0, ckpt1 := if w.set = 0 then d.jnl.ckpt1 else some c, writing := none } }

/-- The journal trimmed below the older checkpoint's begin (R319). -/
def ckptTrimmed (d : Dev) : Dev := match d.jnl.ckpt0, d.jnl.ckpt1 with
  | some a, some b =>
    let low := min a.begin b.begin
    let keep := (d.jnl.pages.filter fun p => decide (low < p)).length + 1
    settleArea { d with jnl := { d.jnl with
      prog := d.jnl.prog.filter fun e => decide (low ≤ e.1), pages := d.jnl.pages.drop (d.jnl.pages.length - keep), trimmed := d.jnl.trimmed + (d.jnl.pages.length - keep) } }
  | _, _ => d

theorem endCkpt_none (h : d.jnl.writing = none) : endCkpt d = d := by
  unfold endCkpt
  rw [h]

theorem endCkpt_some {w : CkptRun} (h : d.jnl.writing = some w) : endCkpt d = ckptTrimmed (ckptEnded w d) := by
  unfold endCkpt
  rw [h]
  rfl

theorem ckptTrimmed_standing (d : Dev) : ∃ p, standing (ckptTrimmed d) = { standing d with prog := p } := by
  unfold ckptTrimmed
  split
  · exact ⟨_, (settleArea_standing _).trans rfl⟩
  · exact ⟨_, rfl⟩

theorem ckptEnded_standing (w : CkptRun) (d : Dev) : ∃ p, standing (ckptEnded w d) = { standing d with
    writing := none, prog := p, ckpt0 := (ckptEnded w d).jnl.ckpt0, ckpt1 := (ckptEnded w d).jnl.ckpt1 } := by
  have h := programTail_standing (record (.ckpt w.set w.num true) d)
  exact ⟨_, congrArg (fun x : Standing => { x with writing := none, ckpt0 := (ckptEnded w d).jnl.ckpt0, ckpt1 := (ckptEnded w d).jnl.ckpt1 }) h⟩

/-- The end of a checkpoint changes the sets, what is still written of one, and the journal. -/
theorem endCkpt_standing (d : Dev) : ∃ c0 c1 p, standing (endCkpt d) = { standing d with writing := none, ckpt0 := c0, ckpt1 := c1, prog := p } := by
  cases h : d.jnl.writing with
  | none =>
    rw [endCkpt_none h]
    exact ⟨_, _, _, by rw [← h]; rfl⟩
  | some w =>
    obtain ⟨p, hp⟩ := ckptTrimmed_standing (ckptEnded w d)
    obtain ⟨q, hq⟩ := ckptEnded_standing w d
    rw [endCkpt_some h, hp, hq]
    exact ⟨_, _, _, rfl⟩

/-- The device loads the newer set where it reads, else the older one, which is recorded; with neither it enters phase 15 (R324). -/
theorem checkpointLoadDone_newer {a b : Ckpt} (ok0 : Bool) (ha : d.jnl.ckpt0 = some a) (hb : d.jnl.ckpt1 = some b) (hab : a.num < b.num) :
    checkpointLoadDone ok0 true d = toPhase 7 { d with maps := b.image, jnl := { d.jnl with replayFrom := b.begin }, clo := { d.clo with ckptOld := false } } := by
  cases ok0 <;> simp [checkpointLoadDone, newestCkpt, ha, hb, hab]

theorem checkpointLoadDone_older {a b : Ckpt} (ha : d.jnl.ckpt0 = some a) (hb : d.jnl.ckpt1 = some b) (hab : a.num < b.num) :
    checkpointLoadDone true false d = toPhase 7 (raise .ckptFallback [a.num] { d with maps := a.image, jnl := { d.jnl with replayFrom := a.begin }, clo := { d.clo with ckptOld := true } }) := by
  simp [checkpointLoadDone, newestCkpt, ha, hb, hab, Nat.ne_of_gt hab]

theorem checkpointLoadDone_neither (d : Dev) : checkpointLoadDone false false d = toPhase 15 (raise .recoveryFailed [6] d) := rfl

/-! ### Ready (R325, R328) -/

/-- An admin ring is set up in the queue manager alone. -/
theorem adminSetup_frame (n : Nat) (d : Dev) : adminSetup n d = { d with qm := (adminSetup n d).qm } := by
  unfold adminSetup
  split <;> rfl

theorem adminSetup_standing (n : Nat) (d : Dev) : standing (adminSetup n d) = { standing d with qm := (adminSetup n d).qm } := congrArg standing (adminSetup_frame n d)

/-- The system areas of a device that gets ready. -/
def readyArea (d : Dev) : Dev :=
  eraseSys (growCkpt 32 (growJournal 8 (forAll (foundDies d) settleDie (forAll (foundDies d) wornAgain { d with sec := { d.sec with sskSeq := d.jnl.seq } }))))

/-- Its marks, and the requests that waited for it. -/
def readyMarks (t : Nat) (d : Dev) : Dev :=
  let d := { d with
    clo := { d.clo with phase := 9, ready := true, ceilDue := t }
    med := { d.med with hourDue := max d.med.hourDue (t / 3600000000000 * 3600000000000) }
    qm := { d.qm with telemDue := t }
    alm := { d.alm with periodAt := t / 2000000 * 2000000, missDue := t + 1000000000 } }
  let d := if fld (rd d 0x90008) 0 2 = 3 then onKpr (fun k => { k with shutdown := true, s3 := true }) d else d
  if bit (rd d 0x1014) 0 ∧ !d.qm.adminOn ∧ !d.qm.adminErr then adminSetup 0 d else d

theorem goReady_eq (t : Nat) (d : Dev) : goReady t d = readyMarks t (readyArea d) := rfl

theorem readyArea_standing (d : Dev) : standing (readyArea d) = { standing d with sec := { d.sec with sskSeq := d.jnl.seq } } := by
  rw [readyArea, eraseSys_standing, growCkpt_standing, growJournal_standing, standing_forAll fun die d => settleDie_standing d die, standing_forAll fun die d => wornAgain_standing d die]
  rfl

theorem readyMarks_standing (t : Nat) (d : Dev) : ∃ k q, standing (readyMarks t d) = { standing d with
    clo := { d.clo with phase := 9, ready := true, ceilDue := t }, kpr := k, qm := q } := by
  simp only [readyMarks]
  (repeat' split)
  · exact ⟨_, _, adminSetup_standing ..⟩
  · exact ⟨_, _, rfl⟩
  · exact ⟨_, _, adminSetup_standing ..⟩
  · exact ⟨_, _, rfl⟩

/-- A device that gets ready: only its phase, its ceiling's due time, its session sequence and the requests that waited change of what stands. -/
theorem goReady_standing (t : Nat) (d : Dev) : ∃ k q, standing (goReady t d) = { standing d with
    sec := { d.sec with sskSeq := d.jnl.seq }, clo := { d.clo with phase := 9, ready := true, ceilDue := t }, kpr := k, qm := q } := by
  obtain ⟨k, q, h⟩ := readyMarks_standing t (readyArea d)
  have hclo : (readyArea d).clo = d.clo := congrArg Standing.clo (readyArea_standing d)
  rw [readyArea_standing, hclo] at h
  rw [goReady_eq]
  exact ⟨k, q, h⟩

/-- Media whose every bed is Released, before the areas are built. -/
def formatStart (d : Dev) : Dev := { d with
  maps := {}
  jnl := { seq := 1, formatted := true }
  sec := { d.sec with store := [], wiped := d.sec.wiped ++ d.sec.store.map (·.1) }
  med := { d.med with toErase := [], rebuilds := [], failedLg := [] } }

def formatRows (d : Dev) : Dev := makeRescue (growCkpt 32 (growJournal 8 (forAll (foundDies d) settleDie d)))

/-- The mark of a format, on the areas it has built. -/
def formatMark (d : Dev) : Dev :=
  let d := { d with jnl := { d.jnl with used := (rescueRows d).map (·.1) } }
  let d := record (.mark 2 d.kpr.pwrcyc d.clo.image) d
  { d with clo := { d.clo with format := true } }

theorem format_eq (t : Nat) (d : Dev) : format t d = goReady t (endCkpt (beginCkpt t (formatMark (formatRows (formatStart d))))) := rfl

theorem formatRows_standing (d : Dev) : standing (formatRows d) = standing d := by
  rw [formatRows, makeRescue_standing, growCkpt_standing, growJournal_standing, standing_forAll fun die d => settleDie_standing d die]

/-- The media are formatted (R322): the device is ready, with no key. -/
theorem format_spec (t : Nat) (d : Dev) : (format t d).jnl.formatted = true ∧ (format t d).sec.store = [] ∧ (format t d).clo.phase = 9 ∧ (format t d).clo.ready = true := by
  obtain ⟨k, q, hready⟩ := goReady_standing t (endCkpt (beginCkpt t (formatMark (formatRows (formatStart d)))))
  obtain ⟨c0, c1, p, hend⟩ := endCkpt_standing (beginCkpt t (formatMark (formatRows (formatStart d))))
  have hrows := formatRows_standing (formatStart d)
  rw [format_eq]
  refine ⟨?_, ?_, ?_, ?_⟩
  · exact (congrArg Standing.formatted hready).trans ((congrArg Standing.formatted hend).trans (congrArg Standing.formatted hrows))
  · exact (congrArg (fun x : Standing => x.sec.store) hready).trans ((congrArg (fun x : Standing => x.sec.store) hend).trans (congrArg (fun x : Standing => x.sec.store) hrows))
  · exact congrArg (fun x : Standing => x.clo.phase) hready
  · exact congrArg (fun x : Standing => x.clo.ready) hready

/-- The end of the rescue intake: its marks stand on whatever the intake has made of the maps. -/
theorem rescueIntakeDone_ready (t : Nat) (d : Dev) : ∃ e : Dev, rescueIntakeDone t d = armList (goReady t { e with jnl := { e.jnl with rescue := { unarmed := true } } }) := ⟨_, rfl⟩

/-! ### Replay (R312, R315, R418) -/

@[simp] theorem record_recRecords (r : JRec) (d : Dev) : (record r d).jnl.recRecords = d.jnl.recRecords := rfl
@[simp] theorem onMaps_recRecords (f : Maps → Maps) (d : Dev) : (onMaps f d).jnl.recRecords = d.jnl.recRecords := rfl

theorem forAll_recRecords {α : Type} {f : α → Dev → Dev} (hf : ∀ a d, (f a d).jnl.recRecords = d.jnl.recRecords) (l : List α) (d : Dev) :
    (forAll l f d).jnl.recRecords = d.jnl.recRecords :=
  forAll_keeps (P := fun e => e.jnl.recRecords = d.jnl.recRecords) l d rfl fun a _ _ he => (hf a _).trans he

@[simp] theorem condemnPlot_recRecords (plot : Nat) (d : Dev) : (condemnPlot plot d).jnl.recRecords = d.jnl.recRecords := by
  unfold condemnPlot
  refine forAll_recRecords (fun e d => ?_) _ _
  rfl

/-- A plot that is destroyed leaves the figures of the recovery. -/
theorem erasePlot_recRecords (plot : Nat) (d : Dev) : (erasePlot plot d).jnl.recRecords = d.jnl.recRecords := by
  simp only [erasePlot]
  split <;> simp [forAll_recRecords fun _ _ => record_recRecords _ _]

theorem reconcileKeys_recRecords (d : Dev) : (reconcileKeys d).jnl.recRecords = d.jnl.recRecords :=
  forAll_keeps (P := fun e => e.jnl.recRecords = d.jnl.recRecords) _ _ rfl fun _ _ _ he => (erasePlot_recRecords ..).trans he

/-- Where each plot has its key, none is destroyed. -/
theorem reconcileKeys_maps (h : ∀ e ∈ d.maps.plots, thas (tfilter d.sec.store fun p _ => thas d.maps.plots p) e.1 = true) : (reconcileKeys d).maps = d.maps := by
  have hnone : (d.maps.plots.filter fun e => !thas (tfilter d.sec.store fun p _ => thas d.maps.plots p) e.1) = [] :=
    List.filter_eq_nil_iff.mpr fun e he => by simp [h e he]
  simp only [reconcileKeys, hnone]
  rfl

/-- Replay: the records up to the gap stand in the maps and are counted; then keys and plots are reconciled. -/
theorem journalReplayDone_reconciles (gap : Option Nat) (repaired : Nat) (unknown : List (Nat × Nat)) (d : Dev) :
    ∃ e, journalReplayDone gap repaired unknown d = toPhase 8 (reconcileKeys e) ∧
      e.maps = applyAll (replayable d.jnl.replayFrom gap (d.jnl.prog ++ d.jnl.rescue.tail)) d.maps ∧ e.sec = d.sec ∧
      e.jnl.recRecords = tailRecords (replayable d.jnl.replayFrom gap (d.jnl.prog ++ d.jnl.rescue.tail)) := by
  simp only [journalReplayDone, forAll_raise]
  exact ⟨_, rfl, rfl, rfl, rfl⟩

end

/-- Settles O35: each phase by its effect; the phases that end in a device that is ready by what stands then (`goReady_standing`). -/
theorem startPhasesComplete : Obligations.StartPhasesComplete := by
  unfold Obligations.StartPhasesComplete
  refine ⟨?sram, ?warm, ?hbm, ?boot, ?discovery, ?load, ?replay, ?intake⟩
  case sram =>
    intro s temp tm hph hpll hscan
    exact ⟨_, next_onlyIf (by simp [hph, hpll, hscan]) _ _, rfl, rfl, rfl⟩
  case warm =>
    intro s temp tm hph
    refine ⟨fun htemp => ?_, fun htemp hdue => ?_⟩
    · exact ⟨_, next_onlyIf (by simp [hph, htemp]) _ _, rfl, rfl⟩
    · exact ⟨_, next_onlyIf (by simp [hph, htemp, hdue]) _ _, rfl, rfl⟩
  case hbm =>
    intro s tm hph
    exact ⟨_, next_onlyIf (by simp [hph]) _ _, rfl, rfl, rfl⟩
  case boot =>
    intro s i pools tm hph hlow herase h0 h1
    have hexec : exec (.bootVerifyDone (some i) none pools tm) s = .next { s with dev := bootVerifyDone (some i) none pools tm (tick tm s.dev) } :=
      (next_onlyIf (by simp [hph, hlow]) _ _).trans (by rw [h0, h1]; rfl)
    refine ⟨fun hpass => ⟨_, hexec, ?_⟩, fun hfail => ⟨_, hexec, bootVerifyDone_refused pools hfail⟩⟩
    obtain ⟨e, he, himage, hslot, hsvn, hpads, hbox⟩ := bootVerifyDone_started (d := tick tm s.dev) (t := tm) pools hpass herase
    rw [he, fullTraining_forAll]
    exact ⟨rfl, himage, hslot, hsvn, hpads, hbox⟩
  case discovery =>
    intro s noWear clusters foreign tm hph
    refine ⟨_, next_onlyIf (by simp [hph]) _ _, fun hfound => ?_, fun hfound => ?_⟩
    · simp only [hfound, if_true]
      exact ⟨rfl, discovered_maps ..⟩
    · simp only [hfound, Bool.false_eq_true, if_false]
      obtain ⟨hform, hstore, hphase, hready⟩ := format_spec tm (discovered noWear clusters (tick tm s.dev))
      exact ⟨hphase, hready, hform, hstore⟩
  case load =>
    intro s ok0 ok1 tm a b hph ha hb hab
    refine ⟨_, next_onlyIf (by simp [hph]) _ _, ?_, ?_, ?_⟩
    · rintro rfl
      rw [checkpointLoadDone_newer (d := tick tm s.dev) ok0 ha hb hab]
      exact ⟨rfl, rfl, rfl, rfl⟩
    · rintro rfl rfl
      rw [checkpointLoadDone_older (d := tick tm s.dev) ha hb hab]
      exact ⟨rfl, rfl, rfl, rfl, rfl⟩
    · rintro rfl rfl
      rw [checkpointLoadDone_neither]
      exact ⟨rfl, rfl⟩
  case replay =>
    intro s gap repaired unknown tm hph
    obtain ⟨e, he, hmaps, hsec, hrec⟩ := journalReplayDone_reconciles gap repaired unknown (tick tm s.dev)
    refine ⟨_, (next_onlyIf (by simp [hph]) _ _).trans (by rw [he]), rfl, ?_, ?_⟩
    · exact (reconcileKeys_recRecords e).trans hrec
    · rintro m rfl hkeys
      exact (reconcileKeys_maps (by rw [hmaps, hsec]; exact hkeys)).trans hmaps
  case intake =>
    intro s tm hph
    obtain ⟨e, he⟩ := rescueIntakeDone_ready tm (tick tm s.dev)
    obtain ⟨k, q, hready⟩ := goReady_standing tm { e with jnl := { e.jnl with rescue := { unarmed := true } } }
    refine ⟨_, (next_onlyIf (by simp [hph]) _ _).trans (by rw [he]), ?_⟩
    rw [armList_frame]
    exact ⟨congrArg (fun x : Standing => x.clo.phase) hready, congrArg (fun x : Standing => x.clo.ready) hready, congrArg Standing.rescue hready,
      congrArg (fun x : Standing => x.clo.ceilDue) hready⟩

end Sys2Proof.Machine

namespace Sys2Proof.Machine

/-! ### Acknowledgement (R291, R306) -/

/-- The head of the budget queue that may be acknowledged: its command is done, and the queue begins after its blocks. -/
theorem writeAcknowledge_acks {d : Dev} {id : Nat} {c : Cmd} (hhead : ackHead d = some (id, c)) (hcmd : tget d.qm.cmds id = some c) (hmay : mayAck d c = true) :
    (∃ c', tget (writeAcknowledge d).qm.cmds id = some c' ∧ c'.stage = .done ∧ c'.status = .ok ∧ c'.result = c.result) ∧
    (∀ j, j ≠ id → tget (writeAcknowledge d).qm.cmds j = tget d.qm.cmds j) ∧
    (writeAcknowledge d).clo.ackPos = c.pos0 + c.npos ∧ (writeAcknowledge d).clo.buf = d.clo.buf ∧ (writeAcknowledge d).maps = d.maps := by
  simp only [writeAcknowledge, hhead, hmay, if_true]
  split
  · have hblamed := onCmd_get_self (fun x => { x with causes := x.causes ++ [(3, d.io.now - c.waitFrom)] }) hcmd
    exact ⟨⟨_, onCmd_get_self _ hblamed, rfl, rfl, rfl⟩, fun j hj => (onCmd_get_ne _ _ hj).trans (onCmd_get_ne _ _ hj), rfl, rfl, rfl⟩
  · exact ⟨⟨_, onCmd_get_self _ hcmd, rfl, rfl, rfl⟩, fun j hj => onCmd_get_ne _ _ hj, rfl, rfl, rfl⟩

/-- One that may not is marked. -/
theorem writeAcknowledge_waits {d : Dev} {id : Nat} {c : Cmd} (hhead : ackHead d = some (id, c)) (hmay : mayAck d c = false) :
    writeAcknowledge d = onCmd id (fun c => { c with dp := 1 }) d := by
  simp [writeAcknowledge, hhead, hmay]

/-- O12's clause of WRITE_ACKNOWLEDGE holds. -/
theorem writeAcknowledge_head {s : State} {tm id : Nat} {c : Cmd} (hup : mainUp s.dev = true) (hpf : s.dev.kpr.pf = false) (hflush : s.dev.kpr.flush = none)
    (hhead : ackHead s.dev = some (id, c)) (hcmd : tget s.dev.qm.cmds id = some c) :
    ∃ t c', exec (.writeAcknowledge tm) s = .next t ∧ tget t.dev.qm.cmds id = some c' ∧
      (mayAck s.dev c = true → c'.stage = .done ∧ c'.status = .ok ∧ c'.result = c.result ∧ t.dev.clo.ackPos = c.pos0 + c.npos) ∧
      (mayAck s.dev c = false → c' = { c with dp := 1 } ∧ t.dev.clo = s.dev.clo) ∧
      (∀ j, j ≠ id → tget t.dev.qm.cmds j = tget s.dev.qm.cmds j) ∧ t.dev.maps = s.dev.maps ∧ t.dev.clo.buf = s.dev.clo.buf := by
  have hexec : exec (.writeAcknowledge tm) s = .next { s with dev := writeAcknowledge (tick tm s.dev) } := next_onlyIf (by simp [hup, hpf, hflush]) _ _
  cases hmay : mayAck s.dev c with
  | true =>
    obtain ⟨⟨c', hc', hstage, hstatus, hresult⟩, hne, hpos, hbuf, hmaps⟩ := writeAcknowledge_acks (d := tick tm s.dev) hhead hcmd hmay
    exact ⟨_, c', hexec, hc', fun _ => ⟨hstage, hstatus, hresult, hpos⟩, nofun, hne, hmaps, hbuf⟩
  | false =>
    rw [writeAcknowledge_waits (d := tick tm s.dev) hhead hmay] at hexec
    exact ⟨_, _, hexec, onCmd_get_self (d := tick tm s.dev) _ hcmd, nofun, fun _ => ⟨rfl, rfl⟩, fun j hj => onCmd_get_ne _ _ hj, rfl, rfl⟩

/-! ### What laying blocks and starting operations leave of stripes, the write buffer and the rows in use (R270) -/

structure Spilling where
  stripes : Tbl Stripe
  used : List Nat
  buf : Tbl BufBlk

def spilling (d : Dev) : Spilling := ⟨d.med.stripes, d.jnl.used, d.clo.buf⟩

section
variable {α : Type} (d : Dev)

@[simp] theorem spilling_mk (id rf qm bpm maps alm med jnl clo kpr hld smt pcx hl ecc sec scu pwr thm age sil mgt io) :
    spilling ⟨id, rf, qm, bpm, maps, alm, med, jnl, clo, kpr, hld, smt, pcx, hl, ecc, sec, scu, pwr, thm, age, sil, mgt, io⟩ = ⟨med.stripes, jnl.used, clo.buf⟩ := (rfl)

@[simp] theorem spilling_eta : Spilling.mk d.med.stripes d.jnl.used d.clo.buf = spilling d := (rfl)

@[simp] theorem spilling_ite (c : Prop) [Decidable c] (d e : Dev) : spilling (if c then d else e) = if c then spilling d else spilling e := apply_ite spilling c d e

theorem spilling_forAll {f : α → Dev → Dev} (hf : ∀ a d, spilling (f a d) = spilling d) (l : List α) (d : Dev) : spilling (forAll l f d) = spilling d :=
  forAll_keeps (P := fun e => spilling e = spilling d) l d rfl fun a _ e he => (hf a e).trans he

theorem spilling_of_offLine {d e : Dev} (h : offLine e = offLine d) : spilling e = spilling d := (congrArg spilling h :)

@[simp] theorem record_spilling (r) : spilling (record r d) = spilling d := (rfl)
@[simp] theorem onMaps_spilling (f) : spilling (onMaps f d) = spilling d := (rfl)
@[simp] theorem putBed_spilling (die bed f) : spilling (putBed die bed f d) = spilling d := (rfl)
@[simp] theorem noteBed_spilling (die bed f) : spilling (noteBed die bed f d) = spilling d := (rfl)
@[simp] theorem queueOp_spilling (o) : spilling (queueOp o d) = spilling d := (rfl)
@[simp] theorem dropWork_spilling (w) : spilling (dropWork w d) = spilling d := (rfl)
@[simp] theorem onOp_spilling (i f) : spilling (onOp i f d) = spilling d := (rfl)
@[simp] theorem blockDie_spilling (o) : spilling (blockDie o d) = spilling d := (rfl)
@[simp] theorem putFlash_spilling (die bed s q c v) : spilling (putFlash die bed s q c v d) = spilling d := (rfl)
@[simp] theorem abandonPatrol_spilling (row) : spilling (abandonPatrol row d) = spilling d := by simp [abandonPatrol]

@[simp] theorem queueXpl_spilling (row pos cause hard) : spilling (queueXpl row pos cause hard d) = spilling d := by
  unfold queueXpl
  (repeat' split) <;> simp

@[simp] theorem countSense_spilling (die bed n) : spilling (countSense die bed n d) = spilling d := by simp [countSense, readCheck]
@[simp] theorem takeSlot_spilling (o) : spilling (takeSlot o d) = spilling d := by simp [takeSlot]
@[simp] theorem holdBack_spilling (i o) : spilling (holdBack i o d) = spilling d := by simp [holdBack]
@[simp] theorem hlCommand_spilling (l target opc op bytes) : spilling (hlCommand l target opc op bytes d).2 = spilling d := spilling_of_offLine (hlCommand_offLine ..)
@[simp] theorem hlData_spilling (l target otag data) : spilling (hlData l target otag data d) = spilling d := spilling_of_offLine (hlData_offLine ..)
@[simp] theorem pauseCommand_spilling (opc i o) : spilling (pauseCommand opc i o d) = spilling d := spilling_of_offLine (pauseCommand_offLine ..)
@[simp] theorem startOp_spilling (i o) : spilling (startOp i o d) = spilling d := by simp [startOp]

@[simp] theorem almPump_spilling (die) : spilling (almPump die d) = spilling d := by
  simp only [almPump]
  (repeat' split) <;> simp

@[simp] theorem pumpAll_spilling : spilling (pumpAll d) = spilling d := spilling_forAll (fun die d => almPump_spilling d die) _ _

@[simp] theorem queueWork_spilling (w kind level row s pos q) : spilling (queueWork w kind level row s pos q d) = spilling d := by
  unfold queueWork
  split <;> simp

@[simp] theorem giveStripe_spilling (row slot rank s r) : spilling (giveStripe row slot rank s r d) = spilling d := by simp [giveStripe]

@[simp] theorem layColumn_spilling (row s q c ds) : spilling (layColumn row s q c ds d) = spilling d := by
  unfold layColumn
  split
  · rfl
  · simp [spilling_forAll]

/-- The stripes of a rescue row, given out and laid. -/
def rescueLaid (row : Nat) (all : List (Option Nat × Payload)) (after : Nat → Row → Dev → Dev) (d : Dev) : Dev :=
  forAll (List.range (spillStripes d row (all.map (·.2)).length)) (fun i d => match rowAt d row with
    | none => d
    | some r =>
      after r.given r (forAll (columns (theProfile r.profile)) (fun e => layColumn row r.given e.1 e.2
        ((List.range r.k).map fun j => (all.map (·.2)).getD (i * r.perStripe + blockOf (theProfile r.profile) r.k j e.1 e.2) 0)) (giveStripe row 0 r.given r.given r d))) d

/-- A block of the write buffer with its place in a rescue row, where it is laid there. -/
def rescuePlace (row : Nat) (r : Row) (all : List (Option Nat × Payload)) (i : Nat) (b : BufBlk) : BufBlk :=
  match tget (all.zipIdx.filterMap fun e => e.1.1.map fun i => (i, r.given * r.perStripe + e.2) : Tbl Nat) i with
  | some o => { b with at_ := some (row, o) }
  | none => b

/-- The row is in use, and the blocks have their places. -/
def rescueUsed (row : Nat) (place : Nat → BufBlk → BufBlk) (d : Dev) : Dev :=
  let d := onRow row (fun r => { r with valid := r.given * r.perStripe }) { d with jnl := { d.jnl with used := if d.jnl.used.contains row then d.jnl.used else d.jnl.used ++ [row] } }
  { d with clo := { d.clo with buf := tmap d.clo.buf place } }

theorem layRescue_eq {row : Nat} {r : Row} (all : List (Option Nat × Payload)) (after : Nat → Row → Dev → Dev) (hr : rowAt d row = some r) :
    layRescue row all after d = rescueUsed row (rescuePlace row r all) (rescueLaid row all after d) := by
  unfold layRescue
  rw [hr]
  rfl

theorem rescuePlace_at (row : Nat) (r : Row) (all : List (Option Nat × Payload)) (i : Nat) (b : BufBlk) : rescuePlace row r all i b = { b with at_ := (rescuePlace row r all i b).at_ } := by
  unfold rescuePlace
  split <;> rfl

theorem rescueUsed_spilling (row : Nat) (place : Nat → BufBlk → BufBlk) : spilling (rescueUsed row place d) =
    { spilling d with used := if (spilling d).used.contains row then (spilling d).used else (spilling d).used ++ [row], buf := tmap (spilling d).buf place } := rfl

theorem rescueLaid_spilling (row : Nat) (all : List (Option Nat × Payload)) {after : Nat → Row → Dev → Dev} (hafter : ∀ s r d, spilling (after s r d) = spilling d) :
    spilling (rescueLaid row all after d) = spilling d := by
  refine spilling_forAll (fun i e => ?_) _ _
  split
  · rfl
  · exact (hafter ..).trans ((spilling_forAll (fun x e => layColumn_spilling e ..) _ _).trans (giveStripe_spilling e ..))

theorem rescueUsed_mem (row : Nat) (used : List Nat) : row ∈ (if used.contains row then used else used ++ [row]) := by
  split
  · next h => exact List.contains_iff_mem.1 h
  · simp

/-- What a spill does once a stripe is marked: the blocks are laid, their programs queued. -/
theorem spill_eq {key row : Nat} {x : Stripe} {r : Row} (hfor : rescueFor d (spillBlocks d key x).length = some row) (hr : rowAt d row = some r) :
    spill key x d = rescueUsed row (rescuePlace row r (spillBlocks d key x)) (rescueLaid row (spillBlocks d key x)
      (fun s r d => forAll (List.range r.n) (fun pos => queueWork (.spill key) .program 6 row s pos 0) d)
      { d with med := { d.med with stripes := tset d.med.stripes key { x with spilling := true } } }) := by
  simp only [spill, hfor]
  exact layRescue_eq { d with med := { d.med with stripes := tset d.med.stripes key { x with spilling := true } } } _ _ hr

/-- A spill: its stripe is marked, the row is in use, the blocks have their places. -/
theorem spill_spilling {key row : Nat} {x : Stripe} {r : Row} (hfor : rescueFor d (spillBlocks d key x).length = some row) (hr : rowAt d row = some r) :
    spilling (pumpAll (spill key x d)) = ⟨tset d.med.stripes key { x with spilling := true }, if d.jnl.used.contains row then d.jnl.used else d.jnl.used ++ [row],
      tmap d.clo.buf (rescuePlace row r (spillBlocks d key x))⟩ := by
  rw [pumpAll_spilling, spill_eq d hfor hr, rescueUsed_spilling,
    rescueLaid_spilling _ row _ fun s r d => spilling_forAll (fun pos d => queueWork_spilling d ..) _ _]
  rfl

end

/-! ### O12 as it stands

`writeAcknowledge_head` and `stripeIdleSpill_begins` are its clauses, the second with one hypothesis that the obligation lacks: that a look-up finds the rescue row that takes the blocks.
Without it the clause fails where the table of rows is not in canonical form, as `rescueFor` scans the table. -/

/-- A row of two members in the mapping class, with nothing in it. -/
def emptyRow (kind role : Nat) : Row where
  st := .isOpen
  durable := false
  kind := kind
  role := role
  k := 2
  mc := 0
  life := 0
  slc := true
  profile := 1
  plot := 0
  bset := none
  valid := 0
  claimed := 0
  sealHour := 0
  colo := 0
  stream := 0
  pos := []
  assigned := [[]]
  since := []
  filled := 0

/-- A part whose one rescue row, number 3, stands behind row 5 in the table, with an empty stripe that must be spilled as the ceiling is zero. -/
def unorderedRows : State where
  pending := []
  dev := {
    pwr := { aon := true }
    kpr := { state := 2 }
    clo := { armed := true }
    maps := { rows := [(5, emptyRow 0 0), (3, emptyRow 2 2)] }
    med := { stripes := [(7, {})] } }

/-- A stripe that must be spilled begins to be. -/
theorem exec_stripeIdleSpill {s : State} {key tm : Nat} {x : Stripe} (hup : mainUp s.dev = true) (hx : tget s.dev.med.stripes key = some x) (hspilled : x.spilled = false)
    (hspilling : x.spilling = false) (hfill : x.fill = false) (hdue : spillDue (tick tm s.dev) key x = true) (hmay : maySpill s.dev = true) :
    exec (.stripeIdleSpill key tm) s = .next { s with dev := pumpAll (spill key x (tick tm s.dev)) } := by
  have hup' : mainUp (tick tm s.dev) = true := hup
  have hmay' : maySpill (tick tm s.dev) = true := hmay
  exact (next_withSome hx _ _).trans (next_onlyIf (by simp [hup', hspilled, hspilling, hfill, hdue, hmay']) _ _)

/-- O12's clause of STRIPE_IDLE_SPILL holds where the rescue row is found by its number. -/
theorem stripeIdleSpill_begins {s : State} {key tm row : Nat} {x : Stripe} (hup : mainUp s.dev = true) (hx : tget s.dev.med.stripes key = some x) (hspilled : x.spilled = false)
    (hspilling : x.spilling = false) (hfill : x.fill = false) (hdue : spillDue (tick tm s.dev) key x = true) (hmay : maySpill s.dev = true)
    (hfor : rescueFor s.dev (spillBlocks s.dev key x).length = some row) (hrow : (rowAt s.dev row).isSome = true) :
    ∃ t, exec (.stripeIdleSpill key tm) s = .next t ∧ tget t.dev.med.stripes key = some { x with spilling := true } ∧ row ∈ t.dev.jnl.used ∧
      (∀ i b, tget s.dev.clo.buf i = some b → ∃ b', tget t.dev.clo.buf i = some b' ∧ b' = { b with at_ := b'.at_ }) := by
  obtain ⟨r, hr⟩ := Option.isSome_iff_exists.1 hrow
  have hspill := spill_spilling (tick tm s.dev) (x := x) hfor hr
  refine ⟨_, exec_stripeIdleSpill hup hx hspilled hspilling hfill hdue hmay, ?_, ?_, fun i b hb => ⟨rescuePlace row r (spillBlocks s.dev key x) i b, ?_, rescuePlace_at ..⟩⟩
  · exact (congrArg (fun w : Spilling => tget w.stripes key) hspill).trans (tget_tset_self ..)
  · have hused : (pumpAll (spill key x (tick tm s.dev))).jnl.used = _ := congrArg Spilling.used hspill
    exact hused ▸ rescueUsed_mem row s.dev.jnl.used
  · refine (congrArg (fun w : Spilling => tget w.buf i) hspill).trans ((tget_tmap ..).trans ?_)
    rw [show tget (tick tm s.dev).clo.buf i = some b from hb]
    rfl

/-- The spill lays nothing, and no rescue row is in use. -/
theorem unorderedRows_used : (pumpAll (spill 7 {} (tick 0 unorderedRows.dev))).jnl.used = [] := by decide +kernel

/-- Refutes O12: its clause of STRIPE_IDLE_SPILL speaks of every state, and in `unorderedRows` the row found for the spill is not in use afterwards. -/
theorem not_acknowledgeAndSpillComplete : ¬ Obligations.AcknowledgeAndSpillComplete := by
  unfold Obligations.AcknowledgeAndSpillComplete
  rintro ⟨-, hspill⟩
  have hup : mainUp unorderedRows.dev = true := by decide
  have hmay : maySpill unorderedRows.dev = true := by decide +kernel
  have hdue : spillDue (tick 0 unorderedRows.dev) 7 {} = true := by decide +kernel
  have hrow : rescueFor unorderedRows.dev (spillBlocks unorderedRows.dev 7 {}).length = some 3 := by decide +kernel
  obtain ⟨t, ht, -, hused, -⟩ := hspill unorderedRows 7 0 {} 3 hup rfl rfl rfl rfl hdue hmay hrow
  obtain rfl := Host.Outcome.next.inj ((exec_stripeIdleSpill hup rfl rfl rfl rfl hdue hmay).symm.trans ht)
  simp [unorderedRows_used] at hused

end Sys2Proof.Machine

namespace Sys2Proof.Machine

section
variable {s : State} (d : Dev) (t : Nat)

/-! ### Power-fail in a part that serves (R304, R305, R309) -/

/-- What power-fail does before the flush begins. -/
def pfStart : Dev :=
  let d := if d.hld.calSt = 2 then calAbort 4 t d else d
  let d := { d with hld := { d.hld with bleeding := false, bleed := false } }
  onKpr (fun k => { k with buck := true, shutdown := false }) (pfActions d)

theorem pfActions_spec : ∃ h l, pfActions d = { d with kpr := { d.kpr with pf := true, fet := false, filterAt := none, vinOkSince := none }, hld := h, sil := l } ∧
    h.charging = false ∧ (⟨.powerFail, [d.kpr.vinMv, d.hld.vhold]⟩, false) ∈ l.inbox :=
  ⟨_, _, rfl, rfl, List.mem_append_right _ (List.mem_singleton_self _)⟩

theorem calAbort_vhold (reason : Nat) : ∃ h l, calAbort reason t d = { d with hld := h, sil := l } ∧ h.vhold = d.hld.vhold := ⟨_, _, rfl, rfl⟩

/-- The bank discharges no more, VIN's switch opens, and the event is raised. -/
theorem pfStart_spec : ∃ h l, pfStart d t = { d with
      kpr := { d.kpr with pf := true, fet := false, filterAt := none, vinOkSince := none, buck := true, shutdown := false }, hld := h, sil := l } ∧
    h.charging = false ∧ (⟨.powerFail, [d.kpr.vinMv, d.hld.vhold]⟩, false) ∈ l.inbox := by
  obtain ⟨h0, l0, he, hv⟩ : ∃ h l, (if d.hld.calSt = 2 then calAbort 4 t d else d) = { d with hld := h, sil := l } ∧ h.vhold = d.hld.vhold := by
    split
    · exact calAbort_vhold d t 4
    · exact ⟨_, _, rfl, rfl⟩
  obtain ⟨h, l, hpf, hch, hmem⟩ := pfActions_spec { d with hld := { h0 with bleeding := false, bleed := false }, sil := l0 }
  refine ⟨h, l, ?_, hch, hv ▸ hmem⟩
  simp only [pfStart]
  rw [he, hpf]
  rfl

/-- The flush begins, or waits for the keeper link where that is down and the list armed (R20). -/
def pfFlush : Dev :=
  if !d.pwr.klinkUp ∧ d.clo.ready ∧ listArmed d ∧ !d.sec.lowering then { d with pwr := { d.pwr with klinkDownAt := some t } } else startFlush 0 t d

theorem powerFail_eq (hst : d.kpr.state = 2) : powerFail t d = pfFlush (pfStart d t) t := by
  unfold powerFail
  rw [if_neg (by rw [hst]; decide), if_pos hst]
  rfl

/-- A part that serves begins its flush, or waits. -/
theorem pfFlush_cases : pfFlush d t = startFlush 0 t d ∨ d.pwr.klinkUp = false ∧ listArmed d = true ∧ pfFlush d t = { d with pwr := { d.pwr with klinkDownAt := some t } } := by
  unfold pfFlush
  split
  · next hwait =>
    obtain ⟨hdown, -, harmed, -⟩ := hwait
    exact .inr ⟨by simpa using hdown, harmed, rfl⟩
  · exact .inl rfl

variable {d t}

/-- With a rail enabled the main die goes, and the rails go down one by one. -/
theorem dropRails_eq {restart : Option Nat} {n : Nat} (hn : d.kpr.ken.getLast? = some n) : dropRails restart t d =
    onKpr (fun k => { k with state := 4, restart := restart, downFrom := some t, ken := k.ken.filter fun x => decide (x ≠ n) }) (mainOff d) := by
  have hoff : (onKpr (fun k => { k with state := 4, restart := restart, downFrom := some t }) (mainOff d)).kpr.ken.getLast? = some n := by simpa using hn
  simp only [dropRails, hoff]
  rfl

theorem dropRails_kpr {restart : Option Nat} (hken : d.kpr.ken ≠ []) :
    (∃ ken, (dropRails restart t d).kpr = { d.kpr with shutdown := false, state := 4, restart := restart, downFrom := some t, ken := ken }) ∧
    (dropRails restart t d).hld.charging = (d.hld.charging && !d.kpr.pf) ∧ (dropRails restart t d).pwr.aon = false := by
  rw [dropRails_eq (List.getLast?_eq_some_getLast hken)]
  exact ⟨⟨_, by simp; rfl⟩, by simp, rfl⟩

theorem tripWait_thm (d : Dev) (t cause : Nat) : ∃ x, tripWait cause t { d with thm := { d.thm with tripAt := none } } = { d with thm := x } := by
  unfold tripWait
  split <;> exact ⟨_, rfl⟩

/-- The flush begins where the list is armed and the keeper link up. -/
theorem startFlush_flushes {cause : Nat} (hready : d.clo.ready = true) (harmed : listArmed d = true) (hlink : d.pwr.klinkUp = true) (hlow : d.sec.lowering = false) :
    ∃ x, startFlush cause t d = { d with thm := x, kpr := { d.kpr with state := 3, flush := some (cause, t), lastCause := cause } } := by
  obtain ⟨x, hx⟩ := tripWait_thm d t cause
  simp only [startFlush, hx]
  exact ⟨_, if_pos ⟨hready, harmed, hlink, by rw [hlow]; rfl⟩⟩

/-- Else the rails go down without one. -/
theorem startFlush_drops {cause : Nat} (h : ¬ (d.clo.ready = true ∧ listArmed d = true ∧ d.pwr.klinkUp = true ∧ d.sec.lowering = false)) (hken : d.kpr.ken ≠ []) :
    (∃ ken, (startFlush cause t d).kpr = { d.kpr with shutdown := false, state := 4, restart := causeAfter cause, downFrom := some t, ken := ken, lastResult := 0, lastCause := cause }) ∧
    (startFlush cause t d).hld.charging = (d.hld.charging && !d.kpr.pf) ∧ (startFlush cause t d).pwr.aon = false := by
  obtain ⟨x, hx⟩ := tripWait_thm d t cause
  have hno : ¬ (d.clo.ready = true ∧ listArmed { d with thm := x } = true ∧ d.pwr.klinkUp = true ∧ (!d.sec.lowering) = true) := by
    rintro ⟨hready, harmed, hlink, hlow⟩
    exact h ⟨hready, harmed, hlink, by simpa using hlow⟩
  simp only [startFlush, hx]
  rw [if_neg hno, leave_frame]
  obtain ⟨⟨ken, hkpr⟩, hch, haon⟩ := dropRails_kpr (t := t) (restart := causeAfter cause)
    (d := { d with thm := x, jnl := { d.jnl with rescue := (leave (unflushed (!(listArmed { d with thm := x } && d.clo.ready && !d.sec.lowering))) { d with thm := x }).jnl.rescue } }) hken
  exact ⟨⟨ken, by rw [onKpr_kpr, hkpr]⟩, hch, haon⟩

/-- O32's clause of POWER_FAIL holds while a rail is enabled. -/
theorem powerFail_serving {tm a : Nat} (hrun : s.dev.kpr.running = true) (hfilter : s.dev.kpr.filterAt = some a) (hpf : s.dev.kpr.pf = false)
    (hlow : s.dev.kpr.vinMv < pfThresh s.dev) (hdue : a + 1000 * pfFilter s.dev ≤ tm) (hst : s.dev.kpr.state = 2) (hken : s.dev.kpr.ken ≠ []) :
    ∃ t, exec (.powerFail tm) s = .next t ∧ t.dev.kpr.pf = true ∧ t.dev.kpr.fet = false ∧ t.dev.hld.charging = false ∧
      (s.dev.clo.ready = true → listArmed s.dev = true → s.dev.pwr.klinkUp = true → s.dev.sec.lowering = false →
        t.dev.kpr = { s.dev.kpr with pf := true, fet := false, filterAt := none, vinOkSince := none, buck := true, shutdown := false, state := 3, flush := some (0, tm), lastCause := 0 } ∧
        (⟨.powerFail, [s.dev.kpr.vinMv, s.dev.hld.vhold]⟩, false) ∈ t.dev.sil.inbox ∧ t.dev.maps = s.dev.maps ∧ t.dev.clo = s.dev.clo) ∧
      (listArmed s.dev = false → t.dev.kpr.state = 4 ∧ t.dev.kpr.restart = some 1 ∧ t.dev.kpr.lastResult = 0 ∧ t.dev.pwr.aon = false) := by
  have hlow' : s.dev.kpr.vinMv < pfThresh (tick tm s.dev) := hlow
  have hdue' : a + 1000 * pfFilter (tick tm s.dev) ≤ tm := hdue
  have hexec : exec (.powerFail tm) s = .next { s with dev := powerFail tm (tick tm s.dev) } :=
    (next_withSome hfilter _ _).trans (next_onlyIf (by simp [hrun, hpf, hlow', hdue']) _ _)
  rw [powerFail_eq (tick tm s.dev) tm hst] at hexec
  obtain ⟨h, l, hstart, hch, hbox⟩ := pfStart_spec (tick tm s.dev) tm
  generalize pfStart (tick tm s.dev) tm = d at hexec hstart
  have hkpr : d.kpr = { s.dev.kpr with pf := true, fet := false, filterAt := none, vinOkSince := none, buck := true, shutdown := false } := by rw [hstart]; rfl
  have hhld : d.hld.charging = false := by rw [hstart]; exact hch
  have hinbox : (⟨.powerFail, [s.dev.kpr.vinMv, s.dev.hld.vhold]⟩, false) ∈ d.sil.inbox := by rw [hstart]; exact hbox
  have hmaps : d.maps = s.dev.maps := by rw [hstart]; rfl
  have hclo : d.clo = s.dev.clo := by rw [hstart]; rfl
  have hlist : listArmed d = listArmed s.dev := by rw [hstart]; rfl
  have hlink : d.pwr.klinkUp = s.dev.pwr.klinkUp := by rw [hstart]; rfl
  have hsec : d.sec.lowering = s.dev.sec.lowering := by rw [hstart]; rfl
  refine ⟨_, hexec, ?_⟩
  rcases pfFlush_cases d tm with hflush | ⟨hdown, harmed, hwait⟩
  · rw [hflush]
    by_cases hall : d.clo.ready = true ∧ listArmed d = true ∧ d.pwr.klinkUp = true ∧ d.sec.lowering = false
    · obtain ⟨hready, harmed, hup, hlow⟩ := hall
      obtain ⟨x, hx⟩ := startFlush_flushes (t := tm) (cause := 0) hready harmed hup hlow
      rw [hx]
      refine ⟨by rw [hkpr], by rw [hkpr], hhld, fun _ _ _ _ => ⟨by rw [hkpr], hinbox, hmaps, hclo⟩, fun hno => ?_⟩
      rw [← hlist, harmed] at hno
      cases hno
    · obtain ⟨⟨ken, hk⟩, hc, haon⟩ := startFlush_drops (t := tm) (cause := 0) hall (by rw [hkpr]; exact hken)
      rw [hk, hkpr, hc, hhld]
      refine ⟨rfl, rfl, rfl, fun h1 h2 h3 h4 => absurd ⟨hclo ▸ h1, hlist ▸ h2, hlink ▸ h3, hsec ▸ h4⟩ hall, fun _ => ⟨rfl, rfl, rfl, haon⟩⟩
  · rw [hwait]
    refine ⟨by rw [hkpr], by rw [hkpr], hhld, fun _ _ hup _ => ?_, fun hno => ?_⟩
    · rw [← hlink, hdown] at hup
      cases hup
    · rw [← hlist, harmed] at hno
      cases hno

end

/-! ### O32 as it stands

`powerFail_serving` is its clause of POWER_FAIL with one hypothesis that the obligation lacks: that a rail is enabled. Without it the clause fails in a part that serves with none, which is off at once. -/

/-- A part that serves with no rail enabled, whose VIN has been at 0 V since time 0 and whose flush list is not armed. -/
def railless : State where
  pending := []
  dev := { kpr := { running := true, state := 2, vinMv := 0, filterAt := some 0 } }

/-- Such a part has nothing to flush and no rail to take down: it is off at once, and starts afresh, with power-fail cleared, when VIN returns. -/
theorem railless_clears : (powerFail 20000 (tick 20000 railless.dev)).kpr.pf = false := by decide +kernel

/-- Refutes O32: its clause of POWER_FAIL has power-fail stand afterwards in every part that serves, also in `railless`. -/
theorem not_powerFailAndShutdownComplete : ¬ Obligations.PowerFailAndShutdownComplete := by
  unfold Obligations.PowerFailAndShutdownComplete
  rintro ⟨⟨-, -, -, hfail, -⟩, -⟩
  have hlow : railless.dev.kpr.vinMv < pfThresh railless.dev := by decide
  have hfilter : 0 + 1000 * pfFilter railless.dev ≤ 20000 := by decide
  obtain ⟨t, ht, hpf, -⟩ := hfail railless 20000 0 rfl rfl rfl hlow hfilter rfl
  have hexec : exec (.powerFail 20000) railless = .next { railless with dev := powerFail 20000 (tick 20000 railless.dev) } :=
    (next_withSome (show railless.dev.kpr.filterAt = some 0 from rfl) _ _).trans (next_onlyIf (by decide) _ _)
  obtain rfl := Host.Outcome.next.inj (hexec.symm.trans ht)
  exact Bool.false_ne_true (railless_clears.symm.trans hpf)

end Sys2Proof.Machine
